-- ==== Sys2Proof/Word.lean ====
section
/-! DEFINITION. The word types of the GLM-256: bytes, 32-bit register words, 36-bit Adral-2 words (R117), and lists of
bytes as the host and the engines move them. -/

namespace Sys2Proof

/-- One byte of host data, buffers or DRAM. -/
abbrev Byte := BitVec 8

/-- One 32-bit register of a register page, or one word of a descriptor. -/
abbrev W32 := BitVec 32

/-- One Adral-2 word (R117): bits 35:32 are the tags of bytes 3 to 0. -/
abbrev W36 := BitVec 36

/-- The contents of one logical block, buffer or blob, lowest byte first. -/
abbrev Bytes := List Byte

end Sys2Proof
end

