-- ==== Sys2Proof/Syntax.lean ====
section
/-! DEFINITION. The commands of the GLM-256: one constructor of `Instr` for each row of the table of operations and
events, with the row's operands. The table gives the rows no operands and no bits; the operands here are what the
row's rule needs from outside the module (assumption 1). -/

namespace Sys2Proof

/-- Who issues a register access (R13, R461): a core, a host function through BAR2, or a service port of a block. -/
inductive Ini where
  | core (n : Nat)
  | host (fn : Nat)
  | block (code inst : Nat)
  deriving DecidableEq, Repr

/-- What one boot finds in the hardware (R394, R298, R342): cores failing self-test, per channel the trained rate
(0, 1, 2, or 3 for a failed channel) and its failing dies, DRAM channels failing training, and whether the outside
keeps PWRDIS high (R451). -/
structure BootEnv where
  badCores : List Nat := []
  rates : List (Nat × Nat) := []
  badDies : List (Nat × Nat) := []
  badDram : BitVec 8 := 0
  dualRef : Bool := true
  /-- the entropy source passes its 1,024 start-up samples (R210) -/
  samples : Bool := true
  deriving DecidableEq, Repr

/-- Actions of Virtualization Management (R61, R62). -/
inductive VirtAct where
  | offline
  | online
  /-- assign VQ resources -/
  | assignVq (n : Nat)
  /-- assign VI resources -/
  | assignVi (n : Nat)
  deriving DecidableEq, Repr

/-- The source of a Memory Copy (R106): logical blocks of an NVM namespace, or bytes of SLM. -/
inductive CopySrc where
  | nvm (nsid slba count : Nat)
  | slm (off len : Nat)
  deriving DecidableEq, Repr

/-- What a command asks of the protection information of its blocks (R67): whether the guard and the reference tag are checked, and
the expected initial reference tag of type 2. -/
structure PiChk where
  guard : Bool := true
  ref : Bool := true
  tag : Nat := 0
  deriving DecidableEq, Repr

/-- Where a command that reads blocks starts, and what it asks of their protection information. -/
structure FromLba where
  slba : Nat
  pi : PiChk := {}
  deriving DecidableEq, Repr

/-- A start of a GCM operation (R214): the descriptor's index; does the duplicate key schedule check agree (R212)? -/
structure GcmStart where
  idx : Nat
  sched : Bool := true
  deriving DecidableEq, Repr

/-- The unit that missed its boundary in a teardown (R53): a core, or the engine that serves an in-flight descriptor
of a ring, with the engine instance of the root tag. -/
inductive LateUnit where
  | core (n : Nat)
  | engine (inst : Nat)
  deriving DecidableEq, Repr

/-- The store of a slot whose parity fails (alarm 0x06). -/
inductive SlotStore where
  | cipherKey
  | hmac
  | cipherCtx
  | digestCtx
  deriving DecidableEq, Repr

/-- How the hard decoder leaves one granule of a read (R292): decoded with so many corrected bits, or failing and
passed to the soft pool. -/
inductive HardOut where
  | good (bits : Nat)
  | soft
  deriving DecidableEq, Repr

/-- What a die operation ends with (R283, R292): the status bit of a program or erase, the decode outcome of each
granule of a read in mask order, a feature value. -/
structure DieOut where
  pass : Bool := true
  grans : List HardOut := []
  value : W32 := 0
  deriving DecidableEq, Repr

/-- What a scrub finds (R353). -/
inductive ScrubResult where
  | clean
  | correctable
  | uncorrectable
  deriving DecidableEq, Repr

/-- One MCTP packet (R420, R421): the command slot it is for, PEC check, first and last packet bits, sequence number,
destination EID, source tag and the payload. -/
structure MctpPacket where
  slot : Nat := 0
  pecOk : Bool := true
  som : Bool := true
  eom : Bool := true
  seq : BitVec 2 := 0
  dest : BitVec 8 := 0
  msgType : BitVec 8 := 0
  payload : Bytes := []
  deriving DecidableEq, Repr

/-- The admin commands of the tunnel (R422). -/
inductive TunnelCmd where
  | identify (cns nsid : Nat)
  | getLogPage (lid off len : Nat)
  | getFeatures (fid : Nat)
  | other (opcode : Nat)
  deriving DecidableEq, Repr

/-- The commands: every row of the table of operations and events. -/
inductive Instr where
  /-- COLD_POWER_ON (R386): the levels on SLOT_ID2-0. -/
  | coldPowerOn (slotPins : BitVec 3)
  /-- MAIN_POWER_ON (R386). -/
  | mainPowerOn
  /-- MAIN_POWER_LOSS (R27): the hold-up granules that received the staged writes not drained before, in staging order. -/
  | mainPowerLoss (grans : List Nat)
  /-- AUX_POWER_LOSS (R447). -/
  | auxPowerLoss
  /-- BOOT (R390): what self-test and training find. -/
  | boot (env : BootEnv)
  /-- MRAM_WRITE_RELEASE (R392). -/
  | mramWriteRelease
  /-- MRAM_RELEASE_TIMEOUT (R392). -/
  | mramReleaseTimeout
  /-- BOOT_TIMEOUT (R393). -/
  | bootTimeout (env : BootEnv)
  /-- NVM_SUBSYSTEM_RESET (R83): function and value written to NSSR. -/
  | nvmSubsystemReset (fn : Nat) (value : W32)
  /-- WATCHDOG_PERIOD_END (R412). -/
  | watchdogPeriodEnd
  /-- PORT_A_CONVENTIONAL_RESET (R386). -/
  | portAConventionalReset
  /-- PORT_A_PF_FLR (R386). -/
  | portAPfFlr
  /-- PORT_B_CONVENTIONAL_RESET (R386). -/
  | portBConventionalReset (flr : Bool)
  /-- VF_FLR (R49). -/
  | vfFlr (k : Nat)
  /-- CONTROLLER_RESET (R81). -/
  | controllerReset (fn : Nat)
  /-- OPTION_POLDER_REACTIVATION (R388). -/
  | optionPolderReactivation
  /-- POWER_DISABLE (R450). -/
  | powerDisable
  /-- POWER_DISABLE_RELEASE (R451). -/
  | powerDisableRelease
  /-- BROWNOUT_LATCH (R295). -/
  | brownoutLatch
  /-- BROWNOUT_RECOVERY (R297). -/
  | brownoutRecovery
  /-- HOLDUP_DRAIN_DONE (R295): the hold-up granules that received the staged writes, in staging order. -/
  | holdupDrainDone (grans : List Nat)
  /-- THERMAL_SHUTDOWN (R372). -/
  | thermalShutdown (sensor : Nat)
  /-- RAIL_FAULT (R360). -/
  | railFault (rail cause : Nat)
  /-- CLOCK_LOSS (R407). -/
  | clockLoss (dom : Nat)
  /-- LINK_TRAINING (R54): what the link partner supports: 64, 32, 16 or 0 GT/s; lanes. -/
  | linkTraining (port speed width : Nat) (flit : Bool)
  /-- VF_ENABLE_CLEAR (R50). -/
  | vfEnableClear
  /-- NUMVFS_LOWER (R50). -/
  | numvfsLower (n : Nat)
  /-- CONTROLLER_ENABLE (R60): the value written to CC. -/
  | controllerEnable (fn : Nat) (cc : W32)
  /-- CONTROLLER_READY (R391). -/
  | controllerReady (fn : Nat)
  /-- NORMAL_SHUTDOWN (R82). -/
  | normalShutdown (fn : Nat)
  /-- SHUTDOWN_COMPLETE (R82). -/
  | shutdownComplete (fn : Nat)
  /-- SQ_TAIL_DOORBELL (R36). -/
  | sqTailDoorbell (fn sq tail : Nat)
  /-- CREATE_IO_SUBMISSION_QUEUE (R61). -/
  | createIoSubmissionQueue (fn cid qid size cqid : Nat)
  /-- DELETE_IO_SUBMISSION_QUEUE (R79). -/
  | deleteIoSubmissionQueue (fn cid qid : Nat)
  /-- CREATE_IO_COMPLETION_QUEUE (R61). -/
  | createIoCompletionQueue (fn cid qid size vector : Nat)
  /-- DELETE_IO_COMPLETION_QUEUE (R61). -/
  | deleteIoCompletionQueue (fn cid qid : Nat)
  /-- GET_LOG_PAGE (R66). -/
  | getLogPage (fn cid lid off len : Nat) (rae : Bool)
  /-- GET_LOG_POLDER_STATUS (R72). -/
  | getLogPolderStatus (fn cid off len : Nat) (rae : Bool)
  /-- GET_LOG_CALIBRATION_EXPORT (R382). -/
  | getLogCalibrationExport (fn cid off len : Nat)
  /-- IDENTIFY (R3). -/
  | identify (fn cid cns nsid : Nat)
  /-- ABORT (R86). -/
  | abort (fn cid sq acid : Nat)
  /-- GET_FEATURES (R65). -/
  | getFeatures (fn cid fid sel : Nat) (cdw11 : W32)
  /-- SET_FEATURES (R65). -/
  | setFeatures (fn cid fid : Nat) (sv : Bool) (cdw11 cdw12 : W32)
  /-- SET_POWER_MANAGEMENT (R88). -/
  | setPowerManagement (fn cid : Nat) (sv : Bool) (ps : Nat)
  /-- SET_APST (R89): per power state from 0: target state, idle ms; empty = defaults. -/
  | setApst (fn cid : Nat) (sv enable : Bool) (table : List (Nat × Nat))
  /-- SET_TIMESTAMP (R378). -/
  | setTimestamp (fn cid : Nat) (sv : Bool) (ms : Nat)
  /-- SET_NUMBER_OF_QUEUES (R63). -/
  | setNumberOfQueues (fn cid nsq ncq : Nat) (sv : Bool)
  /-- SET_FREEZE_ON_ERROR (R77). -/
  | setFreezeOnError (fn cid : Nat) (sv freeze : Bool)
  /-- QUEUE_THAW (R79). -/
  | queueThaw (fn cid sq : Nat) (sv : Bool)
  /-- SET_POWER_ENVELOPE (R74). -/
  | setPowerEnvelope (fn cid : Nat) (sv : Bool) (ceiling : BitVec 2)
  /-- SET_POLDER_ENERGY_SHARE (R75). -/
  | setPolderEnergyShare (fn cid : Nat) (sv : Bool) (polder weight cap : Nat)
  /-- SET_READ_AROUND_POLICY (R74). -/
  | setReadAroundPolicy (fn cid : Nat) (sv enable : Bool) (threshold : Nat)
  /-- ASYNCHRONOUS_EVENT_REQUEST (R76). -/
  | asynchronousEventRequest (fn cid : Nat)
  /-- NAMESPACE_CREATE (R304). -/
  | namespaceCreate (fn cid blocks lbaf : Nat)
  /-- NAMESPACE_DELETE (R304). -/
  | namespaceDelete (fn cid nsid : Nat)
  /-- NAMESPACE_ATTACH (R32). -/
  | namespaceAttach (fn cid nsid cntlid : Nat)
  /-- NAMESPACE_DETACH (R32). -/
  | namespaceDetach (fn cid nsid cntlid : Nat)
  /-- VIRTUALIZATION_MANAGEMENT (R62). -/
  | virtualizationManagement (fn cid : Nat) (act : VirtAct) (cntlid : Nat)
  /-- NVME_MI_SEND (R64). -/
  | nvmeMiSend (fn cid : Nat) (opcode : Nat) (data : Bytes)
  /-- NVME_MI_RECEIVE (R64). -/
  | nvmeMiReceive (fn cid : Nat) (opcode len : Nat)
  /-- FORMAT_NVM (R200). -/
  | formatNvm (fn cid nsid lbaf ses : Nat)
  /-- DEVICE_SELF_TEST (R64). -/
  | deviceSelfTest (fn cid : Nat) (code : Nat)
  /-- SANITIZE_BLOCK_ERASE (R64). -/
  | sanitizeBlockErase (fn cid : Nat)
  /-- SANITIZE_CRYPTO_ERASE (R200). -/
  | sanitizeCryptoErase (fn cid : Nat)
  /-- FIRMWARE_IMAGE_DOWNLOAD (R401). -/
  | firmwareImageDownload (fn cid off : Nat) (data : Bytes)
  /-- FIRMWARE_COMMIT_REPLACE (R402). -/
  | firmwareCommitReplace (fn cid slot : Nat)
  /-- FIRMWARE_COMMIT_REPLACE_ACTIVATE (R402). -/
  | firmwareCommitReplaceActivate (fn cid slot : Nat)
  /-- FIRMWARE_COMMIT_ACTIVATE (R402). -/
  | firmwareCommitActivate (fn cid slot : Nat)
  /-- FIRMWARE_ACTIVATION_WITHOUT_RESET (R84). -/
  | firmwareActivationWithoutReset (fn cid slot : Nat)
  /-- FW_ACTIVATION_QUIESCED (R84). -/
  | fwActivationQuiesced
  /-- FW_ACTIVATION_SELF_CHECK (R84). -/
  | fwActivationSelfCheck (pass : Bool)
  /-- SECURITY_PROTOCOL_LIST (R457). -/
  | securityProtocolList (fn cid : Nat) (send : Bool) (secp spsp : Nat)
  /-- TRANSPORT_KEY (R205). -/
  | transportKey (fn cid nssf : Nat)
  /-- ATTESTATION_CHAIN (R460). -/
  | attestationChain (fn cid nssf : Nat)
  /-- SLOT_STATUS (R460). -/
  | slotStatus (fn cid nssf : Nat)
  /-- QUOTE_NONCE (R460). -/
  | quoteNonce (fn cid nssf : Nat) (data : Bytes)
  /-- QUOTE (R460). -/
  | quote (fn cid nssf : Nat)
  /-- ESTABLISH (R205). -/
  | establish (fn cid nssf : Nat) (data : Bytes)
  /-- LOAD_KEY (R206). -/
  | loadKey (fn cid nssf : Nat) (data : Bytes)
  /-- ERASE_KEY (R204). -/
  | eraseKey (fn cid nssf : Nat) (data : Bytes)
  /-- IMAGE_KEY (R207). -/
  | imageKey (fn cid nssf : Nat) (data : Bytes)
  /-- ERASE_ALL (R212). -/
  | eraseAll (fn cid nssf : Nat) (data : Bytes)
  /-- FLUSH (R80). -/
  | flush (fn sq cid nsid : Nat)
  /-- WRITE (R22): the logical blocks' data; guard and reference tags match. -/
  | write (fn sq cid nsid slba : Nat) (blocks : List Bytes) (pi : PiChk)
  /-- READ (R24). -/
  | read (fn sq cid nsid : Nat) (start : FromLba) (count : Nat)
  /-- WRITE_UNCORRECTABLE (R463). -/
  | writeUncorrectable (fn sq cid nsid slba count : Nat)
  /-- COMPARE (R91). -/
  | compare (fn sq cid nsid : Nat) (start : FromLba) (blocks : List Bytes)
  /-- WRITE_ZEROES (R463). -/
  | writeZeroes (fn sq cid nsid slba count : Nat) (deac : Bool)
  /-- DATASET_MANAGEMENT (R463). -/
  | datasetManagement (fn sq cid nsid : Nat) (ranges : List (Nat × Nat))
  /-- VERIFY (R91). -/
  | verify (fn sq cid nsid : Nat) (start : FromLba) (count : Nat)
  /-- COPY (R91): the destination; source NSID, first LBA, count of each range, whose blocks are checked. -/
  | copy (fn sq cid nsid : Nat) (start : FromLba) (format : Nat) (ranges : List (Nat × Nat × Nat))
  /-- IO_MANAGEMENT_RECEIVE (R91). -/
  | ioManagementReceive (fn sq cid nsid mo len : Nat)
  /-- IO_MANAGEMENT_SEND (R91). -/
  | ioManagementSend (fn sq cid nsid mo : Nat) (data : Bytes)
  /-- COMMAND_INTERRUPTED (R92). -/
  | commandInterrupted (fn sq cid : Nat)
  /-- STAGING_ADMIT (R376). -/
  | stagingAdmit (fn sq cid : Nat)
  /-- PROGRAM_UNIT_ISSUE (R22): staging sequence and slot (4 × plane + slot) of each granule placed. -/
  | programUnitIssue (ch die block page : Nat) (planes : BitVec 4) (parity : Bool) (units : List (Nat × Nat))
  /-- LOAD_PROGRAM (R98). -/
  | loadProgram (fn sq cid engine index off : Nat) (data : Bytes)
  /-- PROGRAM_UNLOAD (R99). -/
  | programUnload (fn sq cid engine index : Nat)
  /-- PROGRAM_ACTIVATE (R100). -/
  | programActivate (fn sq cid engine index : Nat)
  /-- PROGRAM_DEACTIVATE (R100). -/
  | programDeactivate (fn sq cid engine index : Nat)
  /-- EXECUTE_PROGRAM (R102). -/
  | executeProgram (fn sq cid engine index rset : Nat) (params : Bytes)
  /-- EXECUTE_PROGRAM_DEFERRED (R116). -/
  | executeProgramDeferred (job : Nat)
  /-- JOB_TIME_LIMIT (R104). -/
  | jobTimeLimit (job : Nat)
  /-- JOB_OUTPUTS_SETTLED (R105). -/
  | jobOutputsSettled (job : Nat)
  /-- VOID_BLOCK_ZEROED (R105): 64 KiB block number counted from the start of the SLM region. -/
  | voidBlockZeroed (block : Nat)
  /-- MEMORY_RANGE_SET_CREATE (R108). -/
  | memoryRangeSetCreate (fn sq cid rset : Nat) (ranges : List (Nat × Nat))
  /-- MEMORY_RANGE_SET_DELETE (R108). -/
  | memoryRangeSetDelete (fn sq cid rset : Nat)
  /-- MEMORY_READ (R106). -/
  | memoryRead (fn sq cid off len : Nat)
  /-- MEMORY_WRITE (R106). -/
  | memoryWrite (fn sq cid off : Nat) (data : Bytes)
  /-- MEMORY_COPY (R106). -/
  | memoryCopy (fn sq cid dst : Nat) (src : CopySrc)
  /-- APST_IDLE_TIMER (R89). -/
  | apstIdleTimer
  /-- POWER_STATE_ENTRY (R348). -/
  | powerStateEntry
  /-- POWER_STATE_EXIT (R349). -/
  | powerStateExit
  /-- DRAM_SEGMENT_INIT_DONE (R349). -/
  | dramSegmentInitDone
  /-- PROVISION (R35). -/
  | provision (ini : Ini) (p : Nat)
  /-- ACTIVATE (R33). -/
  | activate (ini : Ini) (p : Nat)
  /-- QUIESCE (R36). -/
  | quiesce (ini : Ini) (p : Nat)
  /-- POLDER_DRAINED (R36). -/
  | polderDrained (p : Nat)
  /-- TEARDOWN (R50). -/
  | teardown (ini : Ini) (p : Nat)
  /-- TEARDOWN_HALT_TIMEOUT (R53). -/
  | teardownHaltTimeout (p : Nat) (late : LateUnit)
  /-- TEARDOWN_COMPLETE (R50). -/
  | teardownComplete (p : Nat)
  /-- BREACH_RECORD_READ (R42). -/
  | breachRecordRead (ini : Ini)
  /-- BREACH_RECORD_POP (R42). -/
  | breachRecordPop (ini : Ini) (v : W32)
  /-- ADD (R128). -/
  | iAdd (c : Nat) (rd ra rb : BitVec 5) (m : BitVec 7)
  /-- SUB (R128). -/
  | iSub (c : Nat) (rd ra rb : BitVec 5) (m : BitVec 7)
  /-- ADDC (R128). -/
  | iAddc (c : Nat) (rd ra rb : BitVec 5) (m : BitVec 7)
  /-- SUBC (R128). -/
  | iSubc (c : Nat) (rd ra rb : BitVec 5) (m : BitVec 7)
  /-- AND (R128). -/
  | iAnd (c : Nat) (rd ra rb : BitVec 5) (m : BitVec 7)
  /-- OR (R128). -/
  | iOr (c : Nat) (rd ra rb : BitVec 5) (m : BitVec 7)
  /-- XOR (R128). -/
  | iXor (c : Nat) (rd ra rb : BitVec 5) (m : BitVec 7)
  /-- ANDN (R128). -/
  | iAndn (c : Nat) (rd ra rb : BitVec 5) (m : BitVec 7)
  /-- SLL (R128). -/
  | iSll (c : Nat) (rd ra rb : BitVec 5) (m : BitVec 7)
  /-- SRL (R128). -/
  | iSrl (c : Nat) (rd ra rb : BitVec 5) (m : BitVec 7)
  /-- SRA (R128). -/
  | iSra (c : Nat) (rd ra rb : BitVec 5) (m : BitVec 7)
  /-- ROT (R128). -/
  | iRot (c : Nat) (rd ra rb : BitVec 5) (m : BitVec 7)
  /-- SLT (R128). -/
  | iSlt (c : Nat) (rd ra rb : BitVec 5) (m : BitVec 7)
  /-- SLTU (R128). -/
  | iSltu (c : Nat) (rd ra rb : BitVec 5) (m : BitVec 7)
  /-- MINU (R128). -/
  | iMinu (c : Nat) (rd ra rb : BitVec 5) (m : BitVec 7)
  /-- MAXU (R128). -/
  | iMaxu (c : Nat) (rd ra rb : BitVec 5) (m : BitVec 7)
  /-- MUL (R128). -/
  | iMul (c : Nat) (rd ra rb : BitVec 5) (m : BitVec 7)
  /-- MULHU (R128). -/
  | iMulhu (c : Nat) (rd ra rb : BitVec 5) (m : BitVec 7)
  /-- MULH (R128). -/
  | iMulh (c : Nat) (rd ra rb : BitVec 5) (m : BitVec 7)
  /-- ADDH (R128). -/
  | iAddh (c : Nat) (rd ra rb : BitVec 5) (m : BitVec 7)
  /-- SUBH (R128). -/
  | iSubh (c : Nat) (rd ra rb : BitVec 5) (m : BitVec 7)
  /-- ADDHS (R128). -/
  | iAddhs (c : Nat) (rd ra rb : BitVec 5) (m : BitVec 7)
  /-- CLZ (R128). -/
  | iClz (c : Nat) (rd ra rb : BitVec 5) (m : BitVec 7)
  /-- POPC (R128). -/
  | iPopc (c : Nat) (rd ra rb : BitVec 5) (m : BitVec 7)
  /-- ADDI (R127). -/
  | iAddi (c : Nat) (rd ra : BitVec 5) (imm : BitVec 18)
  /-- ANDI (R127). -/
  | iAndi (c : Nat) (rd ra : BitVec 5) (imm : BitVec 18)
  /-- ORI (R127). -/
  | iOri (c : Nat) (rd ra : BitVec 5) (imm : BitVec 18)
  /-- XORI (R127). -/
  | iXori (c : Nat) (rd ra : BitVec 5) (imm : BitVec 18)
  /-- LUI (R127). -/
  | iLui (c : Nat) (rd ra : BitVec 5) (imm : BitVec 18)
  /-- SHI (R127). -/
  | iShi (c : Nat) (rd ra : BitVec 5) (imm : BitVec 18)
  /-- TCMPI (R127). -/
  | iTcmpi (c : Nat) (rd ra : BitVec 5) (imm : BitVec 18)
  /-- TCMP (R129). -/
  | iTcmp (c : Nat) (rd ra rb : BitVec 5) (m : BitVec 7)
  /-- TSET (R129). -/
  | iTset (c : Nat) (rd ra rb : BitVec 5) (m : BitVec 7)
  /-- TAND (R129). -/
  | iTand (c : Nat) (rd ra rb : BitVec 5) (m : BitVec 7)
  /-- TOR (R129). -/
  | iTor (c : Nat) (rd ra rb : BitVec 5) (m : BitVec 7)
  /-- TXOR (R129). -/
  | iTxor (c : Nat) (rd ra rb : BitVec 5) (m : BitVec 7)
  /-- TANDN (R129). -/
  | iTandn (c : Nat) (rd ra rb : BitVec 5) (m : BitVec 7)
  /-- TGET (R129). -/
  | iTget (c : Nat) (rd ra rb : BitVec 5) (m : BitVec 7)
  /-- TPUT (R129). -/
  | iTput (c : Nat) (rd ra rb : BitVec 5) (m : BitVec 7)
  /-- TCNTA (R129). -/
  | iTcnta (c : Nat) (rd ra rb : BitVec 5) (m : BitVec 7)
  /-- TFIRST (R129). -/
  | iTfirst (c : Nat) (rd ra rb : BitVec 5) (m : BitVec 7)
  /-- TSPRD (R129). -/
  | iTsprd (c : Nat) (rd ra rb : BitVec 5) (m : BitVec 7)
  /-- NEXT (R129). -/
  | iNext (c : Nat) (rd ra rb : BitVec 5) (m : BitVec 7)
  /-- NINS (R129). -/
  | iNins (c : Nat) (rd ra rb : BitVec 5) (m : BitVec 7)
  /-- NROT (R129). -/
  | iNrot (c : Nat) (rd ra rb : BitVec 5) (m : BitVec 7)
  /-- NALN (R129). -/
  | iNaln (c : Nat) (rd ra rb : BitVec 5) (m : BitVec 7)
  /-- PACKT (R129). -/
  | iPackt (c : Nat) (rd ra rb : BitVec 5) (m : BitVec 7)
  /-- NBCAST (R129). -/
  | iNbcast (c : Nat) (rd ra rb : BitVec 5) (m : BitVec 7)
  /-- CLS (R130). -/
  | iCls (c : Nat) (rd ra rb : BitVec 5) (fn : BitVec 13)
  /-- CLSW (R131). -/
  | iClsw (c : Nat) (rd ra rb : BitVec 5) (fn : BitVec 13)
  /-- LD (R132). -/
  | iLd (c : Nat) (rd ra : BitVec 5) (mode : BitVec 3) (lane : BitVec 2) (off : BitVec 13)
  /-- ST (R132). -/
  | iSt (c : Nat) (rd ra : BitVec 5) (mode : BitVec 3) (lane : BitVec 2) (off : BitVec 13)
  /-- STP (R127). -/
  | iStp (c : Nat) (rd ra rb : BitVec 5) (fn : BitVec 13)
  /-- AADD (R134). -/
  | iAadd (c : Nat) (rd ra rb : BitVec 5)
  /-- ASWP (R134). -/
  | iAswp (c : Nat) (rd ra rb : BitVec 5)
  /-- RSL (R133). -/
  | iRsl (c : Nat) (rd ra rb : BitVec 5)
  /-- RSLT (R133). -/
  | iRslt (c : Nat) (rd ra rb : BitVec 5)
  /-- RSN (R133). -/
  | iRsn (c : Nat) (rd ra rb : BitVec 5)
  /-- BEQ (R127). -/
  | iBeq (c : Nat) (ra rb : BitVec 5) (off : BitVec 18)
  /-- BNE (R127). -/
  | iBne (c : Nat) (ra rb : BitVec 5) (off : BitVec 18)
  /-- BLT (R127). -/
  | iBlt (c : Nat) (ra rb : BitVec 5) (off : BitVec 18)
  /-- BGE (R127). -/
  | iBge (c : Nat) (ra rb : BitVec 5) (off : BitVec 18)
  /-- BLTU (R127). -/
  | iBltu (c : Nat) (ra rb : BitVec 5) (off : BitVec 18)
  /-- BGEU (R127). -/
  | iBgeu (c : Nat) (ra rb : BitVec 5) (off : BitVec 18)
  /-- BF (R127). -/
  | iBf (c : Nat) (ra rb : BitVec 5) (off : BitVec 18)
  /-- JAL (R127). -/
  | iJal (c : Nat) (rd : BitVec 5) (off : BitVec 23)
  /-- JALR (R127). -/
  | iJalr (c : Nat) (rd ra : BitVec 5) (imm : BitVec 18)
  /-- DBR (R136). -/
  | iDbr (c : Nat) (rd ra rb : BitVec 5) (m : BitVec 7)
  /-- WFE (R137). -/
  | iWfe (c : Nat) (rd ra rb : BitVec 5) (m : BitVec 7)
  /-- WFE_TIMEOUT (R137). -/
  | wfeTimeout (c : Nat)
  /-- SIG (R137). -/
  | iSig (c : Nat) (rd ra rb : BitVec 5) (m : BitVec 7)
  /-- FENCE (R124). -/
  | iFence (c : Nat) (rd ra rb : BitVec 5) (m : BitVec 7)
  /-- MFS (R135). -/
  | iMfs (c : Nat) (rd ra rb : BitVec 5) (m : BitVec 7)
  /-- MFF (R118). -/
  | iMff (c : Nat) (rd ra rb : BitVec 5) (m : BitVec 7)
  /-- MTF (R118). -/
  | iMtf (c : Nat) (rd ra rb : BitVec 5) (m : BitVec 7)
  /-- RDC (R168). -/
  | iRdc (c : Nat) (rd ra rb : BitVec 5) (m : BitVec 7)
  /-- END (R139). -/
  | iEnd (c : Nat) (rd ra rb : BitVec 5) (m : BitVec 7)
  /-- TRAP (R158). -/
  | iTrap (c : Nat) (rd ra rb : BitVec 5) (m : BitVec 7)
  /-- MFC (R156). -/
  | iMfc (c : Nat) (rd ra rb : BitVec 5) (fn : BitVec 13)
  /-- MTC (R156). -/
  | iMtc (c : Nat) (rd ra rb : BitVec 5) (fn : BitVec 13)
  /-- ERET (R158). -/
  | iEret (c : Nat) (rd ra rb : BitVec 5) (fn : BitVec 13)
  /-- HALT (R156). -/
  | iHalt (c : Nat) (rd ra rb : BitVec 5) (fn : BitVec 13)
  /-- CUSTOM_INSTRUCTION (R164). -/
  | customInstruction (c : Nat) (idx : BitVec 6) (rd ra rb : BitVec 5) (fn : BitVec 13)
  /-- PAIRED_WORD (R141). -/
  | pairedWord (c : Nat) (rsvd : Bool) (a b : BitVec 17)
  /-- COUNTER_WRAP (R167). -/
  | counterWrap (c n : Nat)
  /-- COUNTER_OVF (R159). -/
  | counterOvf (c : Nat)
  /-- SMP_FULL (R171). -/
  | smpFull (c : Nat)
  /-- EXT_INT (R434). -/
  | extInt (c : Nat)
  /-- CORE_FORCE_STOP (R162). -/
  | coreForceStop (c : Nat)
  /-- CORE_HALT (R156). -/
  | coreHalt (ini : Ini) (c : Nat)
  /-- CORE_RESTART (R156). -/
  | coreRestart (ini : Ini) (c : Nat)
  /-- CONTROL_STORE_READ (R165). -/
  | controlStoreRead (ini : Ini) (c : Nat)
  /-- COUNTER_PAGE_WRITE (R169). -/
  | counterPageWrite (ini : Ini) (c off : Nat) (v : W32)
  /-- SAMPLING_AREA_WRITE (R171). -/
  | samplingAreaWrite (ini : Ini) (c : Nat) (limit : Bool) (v : W32)
  /-- CYCLE_COUNTER_READ (R168): the page offset read: CNT_CYC_L or CNT_2k_L. -/
  | cycleCounterRead (ini : Ini) (c off : Nat)
  /-- RING_DOORBELL (R178). -/
  | ringDoorbell (ini : Ini) (r : Nat) (prod : BitVec 16)
  /-- DESCRIPTOR_DISPATCH (R179). -/
  | descriptorDispatch (r : Nat)
  /-- ENGINE_COMPLETION (R195): the doubled comparators agree. -/
  | engineCompletion (r idx : Nat) (agree : Bool)
  /-- HELD_COMPLETION_WRITE (R183). -/
  | heldCompletionWrite (ini : Ini) (r : Nat) (ccons : BitVec 16)
  /-- RING_CANCEL (R194). -/
  | ringCancel (ini : Ini) (r : Nat) (v : W32)
  /-- CANCEL_AT_BOUNDARY (R194). -/
  | cancelAtBoundary (r idx : Nat)
  /-- RING_RESTART (R178). -/
  | ringRestart (ini : Ini) (r : Nat) (v : W32)
  /-- RING_RELEASE (R176). -/
  | ringRelease (ini : Ini) (r : Nat)
  /-- ALLOC (R187). -/
  | alloc (r idx : Nat)
  /-- HOLD (R188). -/
  | hold (r idx : Nat)
  /-- RELEASE (R188). -/
  | release (r idx : Nat)
  /-- BUFFER_WAIT_TIMEOUT (R187). -/
  | bufferWaitTimeout (r idx : Nat)
  /-- BUFFER_FREE_DONE (R188). -/
  | bufferFreeDone (pool index : Nat)
  /-- TO_SLM (R181). -/
  | toSlm (r idx : Nat)
  /-- FROM_SLM (R181). -/
  | fromSlm (r idx : Nat)
  /-- EXTENT_READ (R182). -/
  | extentRead (r idx : Nat)
  /-- BUFFER_AUDIT (R190). -/
  | bufferAudit (ini : Ini) (v : W32)
  /-- GCM_ENC (R214). -/
  | gcmEnc (r : Nat) (start : GcmStart)
  /-- GCM_DEC (R218). -/
  | gcmDec (r : Nat) (start : GcmStart)
  /-- KEY_ERASE (R203). -/
  | keyErase (r idx : Nat)
  /-- CTX_RELEASE (R216). -/
  | ctxRelease (r idx : Nat)
  /-- DIGEST (R223). -/
  | digest (r idx : Nat)
  /-- EXTEND (R227). -/
  | extend (r idx : Nat)
  /-- MEAS_READ (R228). -/
  | measRead (r idx : Nat)
  /-- DIGEST_CTX_RELEASE (R223). -/
  | digestCtxRelease (r idx : Nat)
  /-- ENTROPY_HEALTH_WINDOW (R211). -/
  | entropyHealthWindow (ok : Bool)
  /-- VOLTAGE_GLITCH (R212). -/
  | voltageGlitch
  /-- CLOCK_GLITCH (R212). -/
  | clockGlitch
  /-- TEMPERATURE (R212). -/
  | temperature
  /-- SLOT_INTEGRITY (R212). -/
  | slotIntegrity (store : SlotStore) (slot : Nat)
  /-- ALARM_MEDIA_READY (R212). -/
  | alarmMediaReady
  /-- ALARM_RING_READY (R212). -/
  | alarmRingReady
  /-- DRBG_RESEED (R210). -/
  | drbgReseed
  /-- MEDIA_KEY_NEW (R229). -/
  | mediaKeyNew (ini : Ini) (ns : Nat)
  /-- MEDIA_KEY_RELOAD (R229). -/
  | mediaKeyReload (ini : Ini)
  /-- MEAS_SELECT (R230). -/
  | measSelect (ini : Ini) (v : W32)
  /-- MEAS_DATA_READ (R230). -/
  | measDataRead (ini : Ini)
  /-- CIPH_RNG_STAT_READ (R10). -/
  | ciphRngStatRead (ini : Ini)
  /-- COMPRESS (R239). -/
  | compress (r idx : Nat)
  /-- DEFLATE_BLOCK_END (R238). -/
  | deflateBlockEnd (inst : Nat)
  /-- DECOMPRESS (R242). -/
  | decompress (r idx : Nat)
  /-- CMPR_CTX_RELEASE (R236). -/
  | cmprCtxRelease (r idx : Nat)
  /-- CMPR_ERR_READ (R10). -/
  | cmprErrRead (ini : Ini) (e : Nat)
  /-- LOOKUP (R267). -/
  | lookup (r idx : Nat)
  /-- SEARCH_WRITE (R264). -/
  | searchWrite (r idx : Nat)
  /-- INVALIDATE (R264). -/
  | invalidate (r idx : Nat)
  /-- SEARCH_READ (R269). -/
  | searchRead (r idx : Nat)
  /-- STEP (R262). -/
  | step (r idx : Nat)
  /-- SHIFT (R259). -/
  | shift (r idx : Nat)
  /-- MASK_RECOMPUTE_DONE (R258). -/
  | maskRecomputeDone (row : Nat)
  /-- SEARCH_ENTRY_SNAPSHOT (R271). -/
  | searchEntrySnapshot (ini : Ini) (v : W32)
  /-- DESCRIPTOR_PUSH_WORD (R273). -/
  | descriptorPushWord (ini : Ini) (ch q : Nat) (w : W32)
  /-- READ_PAGE (R279). -/
  | readPage (ch q i : Nat)
  /-- READ_CACHE (R274). -/
  | readCache (ch q i : Nat)
  /-- READ_RETRY (R294). -/
  | readRetry (ch q i : Nat)
  /-- PROGRAM (R284). -/
  | program (ch q i : Nat)
  /-- ERASE (R283). -/
  | erase (ch q i : Nat)
  /-- SUSPEND (R288). -/
  | suspend (ch q i : Nat)
  /-- RESUME (R287). -/
  | resume (ch q i : Nat)
  /-- RESET_DIE (R300). -/
  | resetDie (ch q i : Nat)
  /-- GET_FEATURE (R274). -/
  | getFeature (ch q i : Nat)
  /-- SET_FEATURE (R274). -/
  | setFeature (ch q i : Nat)
  /-- READ_STATUS (R274). -/
  | readStatus (ch q i : Nat)
  /-- DIE_COMMAND_END (R283). -/
  | dieCommandEnd (ch die : Nat) (out : DieOut)
  /-- SOFT_DECODE_DONE (R292): the corrected bits of a granule that decodes in the end; the offset set that succeeded. -/
  | softDecodeDone (ch tag gran : Nat) (ok : Option Nat) (set : Option Nat)
  /-- FLC_COMPLETION_WRITE (R276). -/
  | flcCompletionWrite (ini : Ini) (ch : Nat) (cons : W32)
  /-- FLC_CANCEL (R282). -/
  | flcCancel (ini : Ini) (ch : Nat) (v : W32)
  /-- FLC_ENABLE (R272). -/
  | flcEnable (ini : Ini) (ch : Nat) (v : W32)
  /-- BLOCK_STATE_SELECT (R302). -/
  | blockStateSelect (ini : Ini) (ch : Nat) (v : W32)
  /-- BLOCK_STATE_RESTORE (R285). -/
  | blockStateRestore (ini : Ini) (ch : Nat) (v : W32)
  /-- AUTO_SUSPEND (R289). -/
  | autoSuspend (ch die : Nat)
  /-- AUTO_RESUME (R289). -/
  | autoResume (ch die : Nat)
  /-- DIE_RETRAIN (R299): how far the die's temperature is from its training temperature, °C. -/
  | dieRetrain (ch die drift : Nat)
  /-- DIE_TIMEOUT (R300). -/
  | dieTimeout (ch die : Nat)
  /-- FLC_ECC_SOFT_READ (R10). -/
  | flcEccSoftRead (ini : Ini) (ch : Nat)
  /-- FLC_ECC_UNC_READ (R10). -/
  | flcEccUncRead (ini : Ini) (ch : Nat)
  /-- READ_AROUND (R320): the withdrawn read of one logical index of a waiting host read, or of the map page it waits for. -/
  | readAround (fn sq cid lba : Nat)
  /-- MAP_WRITE_BACK (R314): dirty map pages and the flash locations the translation firmware gives them. -/
  | mapWriteBack (pages : List (Nat × Nat))
  /-- Q_WINDOW_READBACK (R318): granules failing read-back and their new homes. -/
  | qWindowReadback (sb page : Nat) (bad : List (Nat × Nat))
  /-- FTLA_READY (R315): granules for the staged writes that persist without a hold-up copy, in staging order. -/
  | ftlaReady (grans : List Nat)
  /-- MAP_GET (R335). -/
  | mapGet
  /-- MAP_SET (R335). -/
  | mapSet
  /-- MAP_MOVE (R335). -/
  | mapMove
  /-- TRIM (R335). -/
  | trim
  /-- PAGE_OUT (R335): the flash location of the written page. -/
  | pageOut (loc : Nat)
  /-- RECORD (R335). -/
  | record
  /-- REBUILD (R335). -/
  | rebuild
  /-- SB_SET (R335). -/
  | sbSet
  /-- FTLA_COMPLETION_WRITE (R334). -/
  | ftlaCompletionWrite (ini : Ini) (v : W32)
  /-- FTLA_LA_MISS_READ (R10). -/
  | ftlaLaMissRead (ini : Ini)
  /-- FTLA_MC_MISS_READ (R10). -/
  | ftlaMcMissRead (ini : Ini)
  /-- FTLA_RA_CNT_READ (R10). -/
  | ftlaRaCntRead (ini : Ini)
  /-- DRAM_RETRAIN_PAUSE (R343): oscillator readings less their trained values. -/
  | dramRetrainPause (ch : Nat) (rd wr : BitVec 8)
  /-- DRAM_REPAIR_PAUSE (R354). -/
  | dramRepairPause (ch row : Nat)
  /-- ORDER_SWITCH (R347). -/
  | orderSwitch (ini : Ini) (v : W32)
  /-- SCRUB (R353). -/
  | scrub (inst line : Nat) (found : ScrubResult)
  /-- LINE_REMAP (R354). -/
  | lineRemap (inst line : Nat)
  /-- DRAM_DEVICE_FAILED (R357). -/
  | dramDeviceFailed (dev : Nat)
  /-- CHECK_BIT_TEST_ARM (R358). -/
  | checkBitTestArm (ini : Ini) (v : W32)
  /-- MEMI_SELECT (R359). -/
  | memiSelect (ini : Ini) (v : W32)
  /-- UE_RECORD_READ (R359). -/
  | ueRecordRead (ini : Ini)
  /-- DRC_FWD_READ (R10). -/
  | drcFwdRead (ini : Ini)
  /-- NRG_SAMPLE (R360): the monitors' readings of rails 0-7: µV and µA. -/
  | nrgSample (rails : List (Nat × Nat))
  /-- EPOCH_BOUNDARY (R364): readings of sensors 1-4 in tenths of a degree, before their offsets. -/
  | epochBoundary (temps : List Int)
  /-- ENVELOPE_GUARD_WINDOW (R367). -/
  | envelopeGuardWindow
  /-- ENERGY_DEFERRED (R368). -/
  | energyDeferred (r idx : Nat)
  /-- EMBANKMENT_MEASUREMENT (R374). -/
  | embankmentMeasurement
  /-- EMBANKMENT_MEASUREMENT_END (R375): voltage step at connection; fall time from 35.0 V to 33.0 V. -/
  | embankmentMeasurementEnd (stepMv fallUs : Nat)
  /-- BANK_CHARGED (R375). -/
  | bankCharged
  /-- SAFETY_DRAIN (R376). -/
  | safetyDrain (grans : List Nat)
  /-- DRAIN_RELEASE (R376). -/
  | drainRelease
  /-- CALENDAR_TICK (R21). -/
  | calendarTick
  /-- CALENDAR_SAVE (R378). -/
  | calendarSave
  /-- POWER_ON_SECOND (R380). -/
  | powerOnSecond
  /-- CALENDAR_SHADOW_READ (R385). -/
  | calendarShadowRead (ini : Ini)
  /-- POWER_ON_SECONDS_READ (R385). -/
  | powerOnSecondsRead (ini : Ini)
  /-- ENERGY_DELIVERED_READ (R385). -/
  | energyDeliveredRead (ini : Ini)
  /-- EPOCH_READ (R385). -/
  | epochRead (ini : Ini)
  /-- CALIBRATION_COMMIT (R383). -/
  | calibrationCommit (ini : Ini) (v : W32)
  /-- OPTION_COMMIT (R398). -/
  | optionCommit (ini : Ini) (v : W32)
  /-- FAULT_REPORT (R407). -/
  | faultReport (blk inst cls tinst cause action : Nat)
  /-- FAULT_WINDOW_END (R408). -/
  | faultWindowEnd
  /-- TAG_RELEASE (R409). -/
  | tagRelease (cls tinst : Nat)
  /-- FLT_ABS_READ (R10). -/
  | fltAbsRead (ini : Ini)
  /-- ENTDAA (R416, R417): the address on offer, whether this module wins the round, whether another wins it too. -/
  | entdaa (addr : BitVec 7) (won tie : Bool)
  /-- SETDASA (R417). -/
  | setdasa (legacy addr : BitVec 7)
  /-- RSTDAA (R417). -/
  | rstdaa
  /-- ENEC (R414). -/
  | enec
  /-- DISEC (R414). -/
  | disec
  /-- GETPID (R414). -/
  | getpid
  /-- GETBCR (R414). -/
  | getbcr
  /-- GETDCR (R414). -/
  | getdcr
  /-- GETSTATUS (R419). -/
  | getstatus
  /-- GETMWL (R414). -/
  | getmwl
  /-- SETMWL (R414). -/
  | setmwl (n : Nat)
  /-- GETMRL (R414). -/
  | getmrl
  /-- SETMRL (R414). -/
  | setmrl (n : Nat)
  /-- UNSUPPORTED_CCC (R414). -/
  | unsupportedCcc (addressed : Bool)
  /-- I2C_FRU_READ (R418). -/
  | i2cFruRead (addr : BitVec 7) (len : Nat)
  /-- I2C_FRU_OFFSET_WRITE (R418). -/
  | i2cFruOffsetWrite (addr : BitVec 7) (off : Nat)
  /-- MCTP_PACKET (R420). -/
  | mctpPacket (pkt : MctpPacket)
  /-- SET_ENDPOINT_ID (R420). -/
  | setEndpointId (eid : BitVec 8)
  /-- GET_ENDPOINT_ID (R420). -/
  | getEndpointId
  /-- GET_ENDPOINT_UUID (R420). -/
  | getEndpointUuid
  /-- GET_MCTP_VERSION_SUPPORT (R420). -/
  | getMctpVersionSupport
  /-- GET_MESSAGE_TYPE_SUPPORT (R420). -/
  | getMessageTypeSupport
  /-- READ_NVME_MI_DATA_STRUCTURE (R421). -/
  | readNvmeMiDataStructure (slot dtype ctrl : Nat)
  /-- NVM_SUBSYSTEM_HEALTH_STATUS_POLL (R421). -/
  | nvmSubsystemHealthStatusPoll (slot : Nat)
  /-- CONTROLLER_HEALTH_STATUS_POLL (R421). -/
  | controllerHealthStatusPoll (slot ctrl : Nat)
  /-- CONFIGURATION_GET (R421). -/
  | configurationGet (slot item : Nat)
  /-- CONFIGURATION_SET (R421). -/
  | configurationSet (slot item value : Nat)
  /-- VPD_READ (R421). -/
  | vpdRead (slot off len : Nat)
  /-- ADMIN_TUNNEL (R422). -/
  | adminTunnel (slot ctrl : Nat) (cmd : TunnelCmd)
  /-- MI_RESPONSE_READY (R423). -/
  | miResponseReady (slot : Nat)
  /-- SBD_STAT_READ (R10). -/
  | sbdStatRead (ini : Ini)
  /-- KEY_WRITE (R433). -/
  | keyWrite (ini : Ini) (frame : Nat) (v : W32)
  /-- KEY_WINDOW_END (R433). -/
  | keyWindowEnd (frame : Nat)
  /-- REGISTER_WRITE (R10): byte offset in the control window; width in bytes. -/
  | registerWrite (ini : Ini) (off width : Nat) (v : W32)
  /-- BRIDGE_TIMEOUT (R20). -/
  | bridgeTimeout (ini : Ini) (off : Nat) (write : Bool)
  /-- ERROR_RECORD_READ (R431). -/
  | errorRecordRead (ini : Ini) (frame : Nat)
  /-- BAR2_REQUEST (R438): DWORDs with their byte enables. -/
  | bar2Request (off : Nat) (write : Bool) (dwords : List (BitVec 4 × W32))
  /-- PMON_CLEAR (R440). -/
  | pmonClear (ini : Ini)
  /-- PMON_COUNTER_READ (R440). -/
  | pmonCounterRead (ini : Ini) (n : Nat)
  /-- CQ_HEAD_DOORBELL (R36). -/
  | cqHeadDoorbell (fn cq head : Nat)
  /-- VF_ENABLE_SET (R33). -/
  | vfEnableSet (numVfs : Nat)
  deriving DecidableEq, Repr

end Sys2Proof
end

