-- ==== Sys2Proof/Decode.lean ====
section
/-! DEFINITION. The reading of command words. The table of operations gives its rows no bits, so no word spells a command by it
(assumption 1). The words of the Adral-2, which its chapter does encode, are decoded and encoded here beside that (R125-R131, R140,
R146, R156; assumption 11). -/

namespace Sys2Proof

/-- The command that a word spells by the table's bits: the table gives none. -/
def decodeTableWord (_nbits _w : Nat) : Option Instr := none

/-! ## Fields of an instruction word (R125) -/

/-- op, bits 34:28. -/
def fldOp (w : W36) : BitVec 7 := w.extractLsb' 28 7
/-- rd of formats R, I, M and J; ra of format B: bits 27:23. -/
def fldRd (w : W36) : BitVec 5 := w.extractLsb' 23 5
/-- ra of formats R, I and M; rb of format B: bits 22:18. -/
def fldRa (w : W36) : BitVec 5 := w.extractLsb' 18 5
/-- rb, bits 17:13. -/
def fldRb (w : W36) : BitVec 5 := w.extractLsb' 13 5
/-- fn, off13: bits 12:0. -/
def fldFn (w : W36) : BitVec 13 := w.extractLsb' 0 13
/-- imm18, off18: bits 17:0. -/
def fldImm (w : W36) : BitVec 18 := w.extractLsb' 0 18
/-- off23: bits 22:0. -/
def fldOff (w : W36) : BitVec 23 := w.extractLsb' 0 23
/-- fn 12:6. -/
def fldMod (w : W36) : BitVec 7 := w.extractLsb' 6 7
/-- fn 5:0. -/
def fldSel (w : W36) : BitVec 6 := w.extractLsb' 0 6

/-! ## Decoding -/

/-- The ALU group by fn 5:0 (R128). -/
def aluInstr (c : Nat) (rd ra rb : BitVec 5) (m : BitVec 7) (f : Nat) : Option Instr :=
  match f with
  | 0 => some (.iAdd c rd ra rb m)
  | 1 => some (.iSub c rd ra rb m)
  | 2 => some (.iAddc c rd ra rb m)
  | 3 => some (.iSubc c rd ra rb m)
  | 4 => some (.iAnd c rd ra rb m)
  | 5 => some (.iOr c rd ra rb m)
  | 6 => some (.iXor c rd ra rb m)
  | 7 => some (.iAndn c rd ra rb m)
  | 8 => some (.iSll c rd ra rb m)
  | 9 => some (.iSrl c rd ra rb m)
  | 10 => some (.iSra c rd ra rb m)
  | 11 => some (.iRot c rd ra rb m)
  | 12 => some (.iSlt c rd ra rb m)
  | 13 => some (.iSltu c rd ra rb m)
  | 14 => some (.iMinu c rd ra rb m)
  | 15 => some (.iMaxu c rd ra rb m)
  | 16 => some (.iMul c rd ra rb m)
  | 17 => some (.iMulhu c rd ra rb m)
  | 18 => some (.iMulh c rd ra rb m)
  | 20 => some (.iAddh c rd ra rb m)
  | 21 => some (.iSubh c rd ra rb m)
  | 22 => some (.iAddhs c rd ra rb m)
  | 23 => some (.iClz c rd ra rb m)
  | 24 => some (.iPopc c rd ra rb m)
  | _ => none

/-- The nonet group by fn 5:0 (R129). -/
def nonetInstr (c : Nat) (rd ra rb : BitVec 5) (m : BitVec 7) (f : Nat) : Option Instr :=
  match f with
  | 0 => some (.iTcmp c rd ra rb m)
  | 1 => some (.iTset c rd ra rb m)
  | 2 => some (.iTand c rd ra rb m)
  | 3 => some (.iTor c rd ra rb m)
  | 4 => some (.iTxor c rd ra rb m)
  | 5 => some (.iTandn c rd ra rb m)
  | 6 => some (.iTget c rd ra rb m)
  | 7 => some (.iTput c rd ra rb m)
  | 9 => some (.iTcnta c rd ra rb m)
  | 10 => some (.iTfirst c rd ra rb m)
  | 11 => some (.iTsprd c rd ra rb m)
  | 12 => some (.iNext c rd ra rb m)
  | 13 => some (.iNins c rd ra rb m)
  | 14 => some (.iNrot c rd ra rb m)
  | 15 => some (.iNaln c rd ra rb m)
  | 16 => some (.iPackt c rd ra rb m)
  | 18 => some (.iNbcast c rd ra rb m)
  | _ => none

/-- The system group by fn 5:0 ("System group"). -/
def sysInstr (c : Nat) (rd ra rb : BitVec 5) (m : BitVec 7) (f : Nat) : Option Instr :=
  match f with
  | 1 => some (.iDbr c rd ra rb m)
  | 2 => some (.iWfe c rd ra rb m)
  | 3 => some (.iSig c rd ra rb m)
  | 4 => some (.iFence c rd ra rb m)
  | 5 => some (.iMfs c rd ra rb m)
  | 6 => some (.iMff c rd ra rb m)
  | 7 => some (.iMtf c rd ra rb m)
  | 8 => some (.iRdc c rd ra rb m)
  | 9 => some (.iEnd c rd ra rb m)
  | 10 => some (.iTrap c rd ra rb m)
  | _ => none

/-- The search group by fn, and the atomic group (R133, R134). -/
def exactInstr (c : Nat) (rd ra rb : BitVec 5) (op : Nat) (fn : Nat) : Option Instr :=
  match op, fn with
  | 12, 0 => some (.iRsl c rd ra rb)
  | 12, 1 => some (.iRslt c rd ra rb)
  | 12, 2 => some (.iRsn c rd ra rb)
  | 19, 0 => some (.iAadd c rd ra rb)
  | 19, 1 => some (.iAswp c rd ra rb)
  | _, _ => none

/-- A long word (R127, R146): none for an opcode or function that no table defines. -/
def decodeLong (c : Nat) (w : W36) : Option Instr :=
  let rd := fldRd w
  let ra := fldRa w
  let rb := fldRb w
  let fn := fldFn w
  match (fldOp w).toNat with
  | 0 => aluInstr c rd ra rb (fldMod w) (fldSel w).toNat
  | 1 => some (.iAddi c rd ra (fldImm w))
  | 2 => some (.iAndi c rd ra (fldImm w))
  | 3 => some (.iOri c rd ra (fldImm w))
  | 4 => some (.iXori c rd ra (fldImm w))
  | 5 => some (.iLui c rd ra (fldImm w))
  | 6 => some (.iShi c rd ra (fldImm w))
  | 8 => nonetInstr c rd ra rb (fldMod w) (fldSel w).toNat
  | 9 => some (.iTcmpi c rd ra (fldImm w))
  | 10 => some (.iCls c rd ra rb fn)
  | 11 => some (.iClsw c rd ra rb fn)
  | 12 => exactInstr c rd ra rb 12 fn.toNat
  | 16 => some (.iLd c rd ra (w.extractLsb' 15 3) (w.extractLsb' 13 2) fn)
  | 17 => some (.iSt c rd ra (w.extractLsb' 15 3) (w.extractLsb' 13 2) fn)
  | 18 => some (.iStp c rd ra rb fn)
  | 19 => exactInstr c rd ra rb 19 fn.toNat
  | 24 => some (.iBeq c rd ra (fldImm w))
  | 25 => some (.iBne c rd ra (fldImm w))
  | 26 => some (.iBlt c rd ra (fldImm w))
  | 27 => some (.iBge c rd ra (fldImm w))
  | 28 => some (.iBltu c rd ra (fldImm w))
  | 29 => some (.iBgeu c rd ra (fldImm w))
  | 30 => some (.iBf c rd ra (fldImm w))
  | 31 => some (.iJal c rd (fldOff w))
  | 32 => some (.iJalr c rd ra (fldImm w))
  | 40 => sysInstr c rd ra rb (fldMod w) (fldSel w).toNat
  | 60 => some (.iMfc c rd ra rb fn)
  | 61 => some (.iMtc c rd ra rb fn)
  | 62 => some (.iEret c rd ra rb fn)
  | 63 => some (.iHalt c rd ra rb fn)
  | n => if 64 ≤ n then some (.customInstruction c (w.extractLsb' 28 6) rd ra rb fn) else none

/-- The command of a word that core `c` fetches: a pair, a long operation, or none (R125). -/
def decodeWord (c : Nat) (w : W36) : Option Instr :=
  if w.getLsbD 35 then some (.pairedWord c (w.getLsbD 34) (w.extractLsb' 17 17) (w.extractLsb' 0 17))
  else decodeLong c w

/-! ## Encoding -/

/-- Format R. -/
def encR (op : BitVec 7) (rd ra rb : BitVec 5) (fn : BitVec 13) : W36 := 0#1 ++ op ++ rd ++ ra ++ rb ++ fn
/-- Format R with fn in its two parts. -/
def encF (op : BitVec 7) (rd ra rb : BitVec 5) (m : BitVec 7) (f : BitVec 6) : W36 := 0#1 ++ op ++ rd ++ ra ++ rb ++ m ++ f
/-- Formats I and B. -/
def encI (op : BitVec 7) (rd ra : BitVec 5) (imm : BitVec 18) : W36 := 0#1 ++ op ++ rd ++ ra ++ imm
/-- Format M. -/
def encM (op : BitVec 7) (rd ra : BitVec 5) (mode : BitVec 3) (lane : BitVec 2) (off : BitVec 13) : W36 :=
  0#1 ++ op ++ rd ++ ra ++ mode ++ lane ++ off
/-- Format J. -/
def encJ (op : BitVec 7) (rd : BitVec 5) (off : BitVec 23) : W36 := 0#1 ++ op ++ rd ++ off
/-- A custom word (R146). -/
def encC (idx : BitVec 6) (rd ra rb : BitVec 5) (fn : BitVec 13) : W36 := 0#1 ++ 1#1 ++ idx ++ rd ++ ra ++ rb ++ fn
/-- A paired word. -/
def encP (r : Bool) (a b : BitVec 17) : W36 := 1#1 ++ BitVec.ofBool r ++ a ++ b

/-- The core and the word of a command that is an instruction word; none for every other command. -/
def encode : Instr → Option (Nat × W36)
  | .coldPowerOn _ => none
  | .mainPowerOn => none
  | .mainPowerLoss _ => none
  | .auxPowerLoss => none
  | .boot _ => none
  | .mramWriteRelease => none
  | .mramReleaseTimeout => none
  | .bootTimeout _ => none
  | .nvmSubsystemReset _ _ => none
  | .watchdogPeriodEnd => none
  | .portAConventionalReset => none
  | .portAPfFlr => none
  | .portBConventionalReset _ => none
  | .vfFlr _ => none
  | .controllerReset _ => none
  | .optionPolderReactivation => none
  | .powerDisable => none
  | .powerDisableRelease => none
  | .brownoutLatch => none
  | .brownoutRecovery => none
  | .holdupDrainDone _ => none
  | .thermalShutdown _ => none
  | .railFault _ _ => none
  | .clockLoss _ => none
  | .linkTraining _ _ _ _ => none
  | .vfEnableClear => none
  | .numvfsLower _ => none
  | .controllerEnable _ _ => none
  | .controllerReady _ => none
  | .normalShutdown _ => none
  | .shutdownComplete _ => none
  | .sqTailDoorbell _ _ _ => none
  | .createIoSubmissionQueue _ _ _ _ _ => none
  | .deleteIoSubmissionQueue _ _ _ => none
  | .createIoCompletionQueue _ _ _ _ _ => none
  | .deleteIoCompletionQueue _ _ _ => none
  | .getLogPage _ _ _ _ _ _ => none
  | .getLogPolderStatus _ _ _ _ _ => none
  | .getLogCalibrationExport _ _ _ _ => none
  | .identify _ _ _ _ => none
  | .abort _ _ _ _ => none
  | .getFeatures _ _ _ _ _ => none
  | .setFeatures _ _ _ _ _ _ => none
  | .setPowerManagement _ _ _ _ => none
  | .setApst _ _ _ _ _ => none
  | .setTimestamp _ _ _ _ => none
  | .setNumberOfQueues _ _ _ _ _ => none
  | .setFreezeOnError _ _ _ _ => none
  | .queueThaw _ _ _ _ => none
  | .setPowerEnvelope _ _ _ _ => none
  | .setPolderEnergyShare _ _ _ _ _ _ => none
  | .setReadAroundPolicy _ _ _ _ _ => none
  | .asynchronousEventRequest _ _ => none
  | .namespaceCreate _ _ _ _ => none
  | .namespaceDelete _ _ _ => none
  | .namespaceAttach _ _ _ _ => none
  | .namespaceDetach _ _ _ _ => none
  | .virtualizationManagement _ _ _ _ => none
  | .nvmeMiSend _ _ _ _ => none
  | .nvmeMiReceive _ _ _ _ => none
  | .formatNvm _ _ _ _ _ => none
  | .deviceSelfTest _ _ _ => none
  | .sanitizeBlockErase _ _ => none
  | .sanitizeCryptoErase _ _ => none
  | .firmwareImageDownload _ _ _ _ => none
  | .firmwareCommitReplace _ _ _ => none
  | .firmwareCommitReplaceActivate _ _ _ => none
  | .firmwareCommitActivate _ _ _ => none
  | .firmwareActivationWithoutReset _ _ _ => none
  | .fwActivationQuiesced => none
  | .fwActivationSelfCheck _ => none
  | .securityProtocolList _ _ _ _ _ => none
  | .transportKey _ _ _ => none
  | .attestationChain _ _ _ => none
  | .slotStatus _ _ _ => none
  | .quoteNonce _ _ _ _ => none
  | .quote _ _ _ => none
  | .establish _ _ _ _ => none
  | .loadKey _ _ _ _ => none
  | .eraseKey _ _ _ _ => none
  | .imageKey _ _ _ _ => none
  | .eraseAll _ _ _ _ => none
  | .flush _ _ _ _ => none
  | .write _ _ _ _ _ _ _ => none
  | .read _ _ _ _ _ _ => none
  | .writeUncorrectable _ _ _ _ _ _ => none
  | .compare _ _ _ _ _ _ => none
  | .writeZeroes _ _ _ _ _ _ _ => none
  | .datasetManagement _ _ _ _ _ => none
  | .verify _ _ _ _ _ _ => none
  | .copy _ _ _ _ _ _ _ => none
  | .ioManagementReceive _ _ _ _ _ _ => none
  | .ioManagementSend _ _ _ _ _ _ => none
  | .commandInterrupted _ _ _ => none
  | .stagingAdmit _ _ _ => none
  | .programUnitIssue _ _ _ _ _ _ _ => none
  | .loadProgram _ _ _ _ _ _ _ => none
  | .programUnload _ _ _ _ _ => none
  | .programActivate _ _ _ _ _ => none
  | .programDeactivate _ _ _ _ _ => none
  | .executeProgram _ _ _ _ _ _ _ => none
  | .executeProgramDeferred _ => none
  | .jobTimeLimit _ => none
  | .jobOutputsSettled _ => none
  | .voidBlockZeroed _ => none
  | .memoryRangeSetCreate _ _ _ _ _ => none
  | .memoryRangeSetDelete _ _ _ _ => none
  | .memoryRead _ _ _ _ _ => none
  | .memoryWrite _ _ _ _ _ => none
  | .memoryCopy _ _ _ _ _ => none
  | .apstIdleTimer => none
  | .powerStateEntry => none
  | .powerStateExit => none
  | .dramSegmentInitDone => none
  | .provision _ _ => none
  | .activate _ _ => none
  | .quiesce _ _ => none
  | .polderDrained _ => none
  | .teardown _ _ => none
  | .teardownHaltTimeout _ _ => none
  | .teardownComplete _ => none
  | .breachRecordRead _ => none
  | .breachRecordPop _ _ => none
  | .iAdd c rd ra rb m => some (c, encF 0#7 rd ra rb m 0#6)
  | .iSub c rd ra rb m => some (c, encF 0#7 rd ra rb m 1#6)
  | .iAddc c rd ra rb m => some (c, encF 0#7 rd ra rb m 2#6)
  | .iSubc c rd ra rb m => some (c, encF 0#7 rd ra rb m 3#6)
  | .iAnd c rd ra rb m => some (c, encF 0#7 rd ra rb m 4#6)
  | .iOr c rd ra rb m => some (c, encF 0#7 rd ra rb m 5#6)
  | .iXor c rd ra rb m => some (c, encF 0#7 rd ra rb m 6#6)
  | .iAndn c rd ra rb m => some (c, encF 0#7 rd ra rb m 7#6)
  | .iSll c rd ra rb m => some (c, encF 0#7 rd ra rb m 8#6)
  | .iSrl c rd ra rb m => some (c, encF 0#7 rd ra rb m 9#6)
  | .iSra c rd ra rb m => some (c, encF 0#7 rd ra rb m 10#6)
  | .iRot c rd ra rb m => some (c, encF 0#7 rd ra rb m 11#6)
  | .iSlt c rd ra rb m => some (c, encF 0#7 rd ra rb m 12#6)
  | .iSltu c rd ra rb m => some (c, encF 0#7 rd ra rb m 13#6)
  | .iMinu c rd ra rb m => some (c, encF 0#7 rd ra rb m 14#6)
  | .iMaxu c rd ra rb m => some (c, encF 0#7 rd ra rb m 15#6)
  | .iMul c rd ra rb m => some (c, encF 0#7 rd ra rb m 16#6)
  | .iMulhu c rd ra rb m => some (c, encF 0#7 rd ra rb m 17#6)
  | .iMulh c rd ra rb m => some (c, encF 0#7 rd ra rb m 18#6)
  | .iAddh c rd ra rb m => some (c, encF 0#7 rd ra rb m 20#6)
  | .iSubh c rd ra rb m => some (c, encF 0#7 rd ra rb m 21#6)
  | .iAddhs c rd ra rb m => some (c, encF 0#7 rd ra rb m 22#6)
  | .iClz c rd ra rb m => some (c, encF 0#7 rd ra rb m 23#6)
  | .iPopc c rd ra rb m => some (c, encF 0#7 rd ra rb m 24#6)
  | .iAddi c rd ra imm => some (c, encI 1#7 rd ra imm)
  | .iAndi c rd ra imm => some (c, encI 2#7 rd ra imm)
  | .iOri c rd ra imm => some (c, encI 3#7 rd ra imm)
  | .iXori c rd ra imm => some (c, encI 4#7 rd ra imm)
  | .iLui c rd ra imm => some (c, encI 5#7 rd ra imm)
  | .iShi c rd ra imm => some (c, encI 6#7 rd ra imm)
  | .iTcmpi c rd ra imm => some (c, encI 9#7 rd ra imm)
  | .iTcmp c rd ra rb m => some (c, encF 8#7 rd ra rb m 0#6)
  | .iTset c rd ra rb m => some (c, encF 8#7 rd ra rb m 1#6)
  | .iTand c rd ra rb m => some (c, encF 8#7 rd ra rb m 2#6)
  | .iTor c rd ra rb m => some (c, encF 8#7 rd ra rb m 3#6)
  | .iTxor c rd ra rb m => some (c, encF 8#7 rd ra rb m 4#6)
  | .iTandn c rd ra rb m => some (c, encF 8#7 rd ra rb m 5#6)
  | .iTget c rd ra rb m => some (c, encF 8#7 rd ra rb m 6#6)
  | .iTput c rd ra rb m => some (c, encF 8#7 rd ra rb m 7#6)
  | .iTcnta c rd ra rb m => some (c, encF 8#7 rd ra rb m 9#6)
  | .iTfirst c rd ra rb m => some (c, encF 8#7 rd ra rb m 10#6)
  | .iTsprd c rd ra rb m => some (c, encF 8#7 rd ra rb m 11#6)
  | .iNext c rd ra rb m => some (c, encF 8#7 rd ra rb m 12#6)
  | .iNins c rd ra rb m => some (c, encF 8#7 rd ra rb m 13#6)
  | .iNrot c rd ra rb m => some (c, encF 8#7 rd ra rb m 14#6)
  | .iNaln c rd ra rb m => some (c, encF 8#7 rd ra rb m 15#6)
  | .iPackt c rd ra rb m => some (c, encF 8#7 rd ra rb m 16#6)
  | .iNbcast c rd ra rb m => some (c, encF 8#7 rd ra rb m 18#6)
  | .iCls c rd ra rb fn => some (c, encR 10#7 rd ra rb fn)
  | .iClsw c rd ra rb fn => some (c, encR 11#7 rd ra rb fn)
  | .iLd c rd ra mode lane off => some (c, encM 16#7 rd ra mode lane off)
  | .iSt c rd ra mode lane off => some (c, encM 17#7 rd ra mode lane off)
  | .iStp c rd ra rb fn => some (c, encR 18#7 rd ra rb fn)
  | .iAadd c rd ra rb => some (c, encR 19#7 rd ra rb 0#13)
  | .iAswp c rd ra rb => some (c, encR 19#7 rd ra rb 1#13)
  | .iRsl c rd ra rb => some (c, encR 12#7 rd ra rb 0#13)
  | .iRslt c rd ra rb => some (c, encR 12#7 rd ra rb 1#13)
  | .iRsn c rd ra rb => some (c, encR 12#7 rd ra rb 2#13)
  | .iBeq c ra rb off => some (c, encI 24#7 ra rb off)
  | .iBne c ra rb off => some (c, encI 25#7 ra rb off)
  | .iBlt c ra rb off => some (c, encI 26#7 ra rb off)
  | .iBge c ra rb off => some (c, encI 27#7 ra rb off)
  | .iBltu c ra rb off => some (c, encI 28#7 ra rb off)
  | .iBgeu c ra rb off => some (c, encI 29#7 ra rb off)
  | .iBf c ra rb off => some (c, encI 30#7 ra rb off)
  | .iJal c rd off => some (c, encJ 31#7 rd off)
  | .iJalr c rd ra imm => some (c, encI 32#7 rd ra imm)
  | .iDbr c rd ra rb m => some (c, encF 40#7 rd ra rb m 1#6)
  | .iWfe c rd ra rb m => some (c, encF 40#7 rd ra rb m 2#6)
  | .wfeTimeout _ => none
  | .iSig c rd ra rb m => some (c, encF 40#7 rd ra rb m 3#6)
  | .iFence c rd ra rb m => some (c, encF 40#7 rd ra rb m 4#6)
  | .iMfs c rd ra rb m => some (c, encF 40#7 rd ra rb m 5#6)
  | .iMff c rd ra rb m => some (c, encF 40#7 rd ra rb m 6#6)
  | .iMtf c rd ra rb m => some (c, encF 40#7 rd ra rb m 7#6)
  | .iRdc c rd ra rb m => some (c, encF 40#7 rd ra rb m 8#6)
  | .iEnd c rd ra rb m => some (c, encF 40#7 rd ra rb m 9#6)
  | .iTrap c rd ra rb m => some (c, encF 40#7 rd ra rb m 10#6)
  | .iMfc c rd ra rb fn => some (c, encR 60#7 rd ra rb fn)
  | .iMtc c rd ra rb fn => some (c, encR 61#7 rd ra rb fn)
  | .iEret c rd ra rb fn => some (c, encR 62#7 rd ra rb fn)
  | .iHalt c rd ra rb fn => some (c, encR 63#7 rd ra rb fn)
  | .customInstruction c idx rd ra rb fn => some (c, encC idx rd ra rb fn)
  | .pairedWord c r a b => some (c, encP r a b)
  | .counterWrap _ _ => none
  | .counterOvf _ => none
  | .smpFull _ => none
  | .extInt _ => none
  | .coreForceStop _ => none
  | .coreHalt _ _ => none
  | .coreRestart _ _ => none
  | .controlStoreRead _ _ => none
  | .counterPageWrite _ _ _ _ => none
  | .samplingAreaWrite _ _ _ _ => none
  | .cycleCounterRead _ _ _ => none
  | .ringDoorbell _ _ _ => none
  | .descriptorDispatch _ => none
  | .engineCompletion _ _ _ => none
  | .heldCompletionWrite _ _ _ => none
  | .ringCancel _ _ _ => none
  | .cancelAtBoundary _ _ => none
  | .ringRestart _ _ _ => none
  | .ringRelease _ _ => none
  | .alloc _ _ => none
  | .hold _ _ => none
  | .release _ _ => none
  | .bufferWaitTimeout _ _ => none
  | .bufferFreeDone _ _ => none
  | .toSlm _ _ => none
  | .fromSlm _ _ => none
  | .extentRead _ _ => none
  | .bufferAudit _ _ => none
  | .gcmEnc _ _ => none
  | .gcmDec _ _ => none
  | .keyErase _ _ => none
  | .ctxRelease _ _ => none
  | .digest _ _ => none
  | .extend _ _ => none
  | .measRead _ _ => none
  | .digestCtxRelease _ _ => none
  | .entropyHealthWindow _ => none
  | .voltageGlitch => none
  | .clockGlitch => none
  | .temperature => none
  | .slotIntegrity _ _ => none
  | .alarmMediaReady => none
  | .alarmRingReady => none
  | .drbgReseed => none
  | .mediaKeyNew _ _ => none
  | .mediaKeyReload _ => none
  | .measSelect _ _ => none
  | .measDataRead _ => none
  | .ciphRngStatRead _ => none
  | .compress _ _ => none
  | .deflateBlockEnd _ => none
  | .decompress _ _ => none
  | .cmprCtxRelease _ _ => none
  | .cmprErrRead _ _ => none
  | .lookup _ _ => none
  | .searchWrite _ _ => none
  | .invalidate _ _ => none
  | .searchRead _ _ => none
  | .step _ _ => none
  | .shift _ _ => none
  | .maskRecomputeDone _ => none
  | .searchEntrySnapshot _ _ => none
  | .descriptorPushWord _ _ _ _ => none
  | .readPage _ _ _ => none
  | .readCache _ _ _ => none
  | .readRetry _ _ _ => none
  | .program _ _ _ => none
  | .erase _ _ _ => none
  | .suspend _ _ _ => none
  | .resume _ _ _ => none
  | .resetDie _ _ _ => none
  | .getFeature _ _ _ => none
  | .setFeature _ _ _ => none
  | .readStatus _ _ _ => none
  | .dieCommandEnd _ _ _ => none
  | .softDecodeDone _ _ _ _ _ => none
  | .flcCompletionWrite _ _ _ => none
  | .flcCancel _ _ _ => none
  | .flcEnable _ _ _ => none
  | .blockStateSelect _ _ _ => none
  | .blockStateRestore _ _ _ => none
  | .autoSuspend _ _ => none
  | .autoResume _ _ => none
  | .dieRetrain _ _ _ => none
  | .dieTimeout _ _ => none
  | .flcEccSoftRead _ _ => none
  | .flcEccUncRead _ _ => none
  | .readAround _ _ _ _ => none
  | .mapWriteBack _ => none
  | .qWindowReadback _ _ _ => none
  | .ftlaReady _ => none
  | .mapGet => none
  | .mapSet => none
  | .mapMove => none
  | .trim => none
  | .pageOut _ => none
  | .record => none
  | .rebuild => none
  | .sbSet => none
  | .ftlaCompletionWrite _ _ => none
  | .ftlaLaMissRead _ => none
  | .ftlaMcMissRead _ => none
  | .ftlaRaCntRead _ => none
  | .dramRetrainPause _ _ _ => none
  | .dramRepairPause _ _ => none
  | .orderSwitch _ _ => none
  | .scrub _ _ _ => none
  | .lineRemap _ _ => none
  | .dramDeviceFailed _ => none
  | .checkBitTestArm _ _ => none
  | .memiSelect _ _ => none
  | .ueRecordRead _ => none
  | .drcFwdRead _ => none
  | .nrgSample _ => none
  | .epochBoundary _ => none
  | .envelopeGuardWindow => none
  | .energyDeferred _ _ => none
  | .embankmentMeasurement => none
  | .embankmentMeasurementEnd _ _ => none
  | .bankCharged => none
  | .safetyDrain _ => none
  | .drainRelease => none
  | .calendarTick => none
  | .calendarSave => none
  | .powerOnSecond => none
  | .calendarShadowRead _ => none
  | .powerOnSecondsRead _ => none
  | .energyDeliveredRead _ => none
  | .epochRead _ => none
  | .calibrationCommit _ _ => none
  | .optionCommit _ _ => none
  | .faultReport _ _ _ _ _ _ => none
  | .faultWindowEnd => none
  | .tagRelease _ _ => none
  | .fltAbsRead _ => none
  | .entdaa _ _ _ => none
  | .setdasa _ _ => none
  | .rstdaa => none
  | .enec => none
  | .disec => none
  | .getpid => none
  | .getbcr => none
  | .getdcr => none
  | .getstatus => none
  | .getmwl => none
  | .setmwl _ => none
  | .getmrl => none
  | .setmrl _ => none
  | .unsupportedCcc _ => none
  | .i2cFruRead _ _ => none
  | .i2cFruOffsetWrite _ _ => none
  | .mctpPacket _ => none
  | .setEndpointId _ => none
  | .getEndpointId => none
  | .getEndpointUuid => none
  | .getMctpVersionSupport => none
  | .getMessageTypeSupport => none
  | .readNvmeMiDataStructure _ _ _ => none
  | .nvmSubsystemHealthStatusPoll _ => none
  | .controllerHealthStatusPoll _ _ => none
  | .configurationGet _ _ => none
  | .configurationSet _ _ _ => none
  | .vpdRead _ _ _ => none
  | .adminTunnel _ _ _ => none
  | .miResponseReady _ => none
  | .sbdStatRead _ => none
  | .keyWrite _ _ _ => none
  | .keyWindowEnd _ => none
  | .registerWrite _ _ _ _ => none
  | .bridgeTimeout _ _ _ => none
  | .errorRecordRead _ _ => none
  | .bar2Request _ _ _ => none
  | .pmonClear _ => none
  | .pmonCounterRead _ _ => none
  | .cqHeadDoorbell _ _ _ => none
  | .vfEnableSet _ => none

end Sys2Proof
end

