-- ==== Sys2Proof/Config.lean ====
section
/-! DEFINITION. What the spec leaves open or takes from an outside standard, as constants without a body: the free
values (a fresh one for each value of the state's counter `freeCtr`) and the uninterpreted functions of the standards
that the spec names without restating them (SHA-2, SHA-3, HMAC, AES-GCM, ECDSA, DEFLATE, Zstandard, NVMe layouts). -/

namespace Sys2Proof.Config

open Sys2Proof

/-- A number the spec leaves open: the n-th free value of a run (assumption 3). -/
opaque freeNat : Nat → Nat

/-- Bytes the spec leaves open (an undefined buffer, data read under a lost key): assumption 3. -/
opaque freeBytes : Nat → Bytes

/-- A 36-bit value the spec leaves open: assumption 3. -/
opaque freeWord : Nat → W36

/-- SHA-256 of FIPS 180-4 (assumption 4). -/
opaque sha256 : Bytes → Bytes

/-- SHA-384 of FIPS 180-4 (assumption 4). -/
opaque sha384 : Bytes → Bytes

/-- SHA-512 of FIPS 180-4 (assumption 4). -/
opaque sha512 : Bytes → Bytes

/-- SHA3-256 of FIPS 202 (assumption 4). -/
opaque sha3 : Bytes → Bytes

/-- The state of a hash after its first block: algorithm 1 SHA-256, 2 SHA-384, 3 SHA-512, the block (assumption 4). -/
opaque hashStart : Nat → Bytes → Bytes

/-- The digest that a hash gives from its state after one block, over the bytes that follow that block: algorithm, state, bytes
(assumption 4). -/
opaque hashEnd : Nat → Bytes → Bytes → Bytes

/-- The GCM counter-mode transform of SP 800-38D: key, IV, byte offset in the message, data (assumption 4). -/
opaque gcmCrypt : Bytes → Bytes → Nat → Bytes → Bytes

/-- XTS-AES-256 of IEEE 1619 under the key pair of an identity: key identity, tweak, plaintext (assumption 4). -/
opaque xtsEnc : Nat → Nat → Bytes → Bytes

/-- The inverse transform of `xtsEnc`. -/
opaque xtsDec : Nat → Nat → Bytes → Bytes

/-- The 64 metadata bytes beside a granule that service firmware or the parity engine programmed: granule number, data; the spec
names no source for them (assumption 3). -/
opaque rawMeta : Nat → Bytes → Bytes

/-- The 16-byte GCM tag of key, IV, AAD and ciphertext (assumption 4). -/
opaque gcmTag : Bytes → Bytes → Bytes → Bytes → Bytes

/-- ECDSA P-384 with SHA-384: does the signature of the message verify under the public key (assumption 4). -/
opaque ecdsaVerify : Bytes → Bytes → Bytes → Bool

/-- Is the 97-byte string a valid uncompressed P-384 point (assumption 4). -/
opaque p384Valid : Bytes → Bool

/-- A signature by the module's attestation key over the bytes (assumption 4). -/
opaque attestSign : Bytes → Bytes

/-- The DER certificate chain of the attestation key (R460). -/
opaque attestChain : Bytes

/-- The attestation key's 97-byte public key (R460). -/
opaque attestPub : Bytes

/-- The attestation key's 8-byte identifier, which the spec does not lay out further (R460). -/
opaque attestKeyId : Bytes

/-- The Spagoern firmware public key whose SHA-384 is fused (R401). -/
opaque spagoernKey : Bytes

/-- The public key of the transport key pair that the DRBG's n-th draw gives (R205). -/
opaque transportPub : Nat → Bytes

/-- The ECDH shared secret Z of R205: draw of the transport key, host public key (assumption 4). -/
opaque ecdh : Nat → Bytes → Bytes

/-- RFC 5649 unwrap under a KEK: the unwrapped bytes, or none when the integrity check fails. -/
opaque keyUnwrap : Bytes → Bytes → Option Bytes

/-- The bits of one DEFLATE block with the fixed Huffman codes of RFC 1951: hash-chain depth and lazy matching of the level (R232),
the 32 KiB before the block, the block's input, BFINAL. How the match search uses depth and laziness the spec does not say. -/
opaque fixedBlock : Nat → Bool → Bytes → Bytes → Bool → List Bool

/-- The same with dynamic Huffman codes. -/
opaque dynamicBlock : Nat → Bool → Bytes → Bytes → Bool → List Bool

/-- A compressed block of a Zstandard frame (RFC 8878): the compressed blocks before it in the frame, the frame's output so far, its
window size, the block; 0 with the block's output, or BAD_CODE 10 or DIST_TOO_FAR 11 with its output so far (assumption 4). -/
opaque zstdBlock : List Bytes → Bytes → Nat → Bytes → Nat × Bytes

/-- The guard of protection information over a block's data and the metadata before it, by LBA format: 1 of 16 bits, 2 of 64 bits
(assumption 5). -/
opaque piGuard : Nat → Bytes → Nat

/-- Bytes of a log page, data structure or message whose layout an outside standard gives (NVMe, NVMe-MI, MCTP):
selector, free counter (assumption 5). -/
opaque stdBytes : Nat → Nat → Bytes

/-- A data structure of the Computational Programs Command Set: selector (log page or CNS) and the values that it reports
(assumption 5). -/
opaque cpLayout : Nat → List (List Nat) → Bytes

/-- The RST boot ROM, measured into register 0 (R404). -/
opaque bootRom : Bytes

/-- The firmware image that manufacture leaves in slot 1 of the boot store (assumption 18). -/
opaque factoryImage : Bytes

/-- The calibration area as manufacture writes it (assumption 18). -/
opaque factoryCal : Bytes

/-- The FRU data before and after the ordering code that it holds (R3); the spec does not lay it out (assumption 5). -/
opaque fruHead : Bytes

/-- The FRU data after the ordering code. -/
opaque fruTail : Bytes

/-- The 32 bytes of fuse values of an ordering code, which the spec does not lay out (R404). -/
opaque fuseBytes : Nat → Bytes

end Sys2Proof.Config
end

