-- ==== Sys2Proof/Machine/Bits.lean ====
section
/-! DEFINITION. Bit fields, sign extension and byte order: how registers, descriptors and blobs are laid out. -/

namespace Sys2Proof.Machine

/-- Bits hi:lo of a 32-bit word, as a number. -/
def fld (w : W32) (hi lo : Nat) : Nat := (w.toNat / 2 ^ lo) % 2 ^ (hi - lo + 1)

/-- One bit of a 32-bit word. -/
def bitOf (w : W32) (n : Nat) : Bool := w.getLsbD n

/-- A Boolean as a number. -/
def b2n (b : Bool) : Nat := if b then 1 else 0

/-- A register field at its place; a value wider than the field is cut to it. -/
def put (v hi lo : Nat) : W32 := BitVec.ofNat 32 ((v % 2 ^ (hi - lo + 1)) * 2 ^ lo)

/-- A one-bit field at its place. -/
def putB (b : Bool) (n : Nat) : W32 := put (b2n b) n n

/-- Little-endian bytes of a number. -/
def leBytes : Nat → Nat → Bytes
  | 0, _ => []
  | n + 1, v => BitVec.ofNat 8 (v % 256) :: leBytes n (v / 256)

/-- The number that little-endian bytes spell. -/
def ofLe : Bytes → Nat
  | [] => 0
  | b :: r => b.toNat + 256 * ofLe r

/-- The number that big-endian bytes spell. -/
def ofBe (b : Bytes) : Nat := ofLe b.reverse

/-- `n` bytes of a string from offset `o`, as a little-endian number; bytes past the end are zero. -/
def leAt (bs : Bytes) (o n : Nat) : Nat := ofLe ((bs.drop o).take n)

/-- Byte at an offset, zero past the end. -/
def byteAt (bs : Bytes) (o : Nat) : Byte := bs.getD o 0

/-- A string cut or padded with zeros to exactly `n` bytes. -/
def padTo (n : Nat) (bs : Bytes) : Bytes := bs.take n ++ List.replicate (n - bs.length) 0

/-- A span of a string, zeros past its end. -/
def span (bs : Bytes) (o n : Nat) : Bytes := padTo n (bs.drop o)

/-- ASCII text as bytes. -/
def ascii (t : String) : Bytes := t.toList.map (fun ch => BitVec.ofNat 8 ch.toNat)

/-- Saturating increment of a register of `n` bits. -/
def satInc {n : Nat} (v : BitVec n) : BitVec n := if v.toNat + 1 < 2 ^ n then v + 1 else v

/-- A number limited to 2^n − 1. -/
def satN (n v : Nat) : Nat := if v < 2 ^ n then v else 2 ^ n - 1

/-- A number rounded up to a multiple. -/
def roundUp (v m : Nat) : Nat := (v + m - 1) / m * m

/-- One step of CRC-32C over one bit (polynomial 0x1EDC6F41, reflected). -/
def crcBit (c : W32) : W32 := if c.getLsbD 0 then (c >>> 1) ^^^ 0x82F63B78#32 else c >>> 1

/-- CRC-32C over one byte. -/
def crcByte (c : W32) (b : Byte) : W32 :=
  let c := c ^^^ b.setWidth 32
  crcBit (crcBit (crcBit (crcBit (crcBit (crcBit (crcBit (crcBit c)))))))

/-- CRC-32C of a string. -/
def crc32c (bs : Bytes) : W32 := ~~~(bs.foldl crcByte (BitVec.allOnes 32))

/-- The 36-bit words packed two to nine bytes: word `i` of a packed section. -/
def packedWord (bs : Bytes) (i : Nat) : W36 :=
  let g := leAt bs (i / 2 * 9) 9
  BitVec.ofNat 36 (if i % 2 = 0 then g % 2 ^ 36 else g / 2 ^ 36)

end Sys2Proof.Machine
end

