-- ==== Sys2Proof/Machine/Table.lean ====
section
/-! DEFINITION. Sparse tables: a list of (key, value) pairs in ONE canonical form, keys strictly rising and no value
equal to what an unlisted key reads as, so that equal tables are equal lists. Everything numbered in the machine
(registers, polders, cores, rings, granules, bytes) is kept this way. -/

namespace Sys2Proof.Machine

/-- A sparse table; `tget` says what an unlisted key reads as. -/
abbrev Tbl (α : Type) := List (Nat × α)

/-- The value at a key; `d` for an unlisted key. -/
def tget {α : Type} (t : Tbl α) (d : α) (k : Nat) : α :=
  match t with
  | [] => d
  | (j, v) :: r => if j = k then v else tget r d k

/-- Removes a key, wherever it stands. -/
def tdel {α : Type} (t : Tbl α) (k : Nat) : Tbl α :=
  match t with
  | [] => []
  | (j, v) :: r => if j = k then tdel r k else (j, v) :: tdel r k

/-- Puts a value at its key's place, whatever the value. -/
def tput {α : Type} (t : Tbl α) (k : Nat) (v : α) : Tbl α :=
  match t with
  | [] => [(k, v)]
  | (j, w) :: r => if j = k then (k, v) :: r else if k < j then (k, v) :: (j, w) :: r else (j, w) :: tput r k v

/-- Writes a value: writing what an unlisted key reads as removes the entry. -/
def tset {α : Type} [DecidableEq α] (t : Tbl α) (d : α) (k : Nat) (v : α) : Tbl α :=
  if v = d then tdel t k else tput t k v

/-- Changes the value at one key. -/
def tmod {α : Type} [DecidableEq α] (t : Tbl α) (d : α) (k : Nat) (f : α → α) : Tbl α :=
  tset t d k (f (tget t d k))

/-- The keys strictly rise, the first above `lo`. -/
def tsorted {α : Type} (t : Tbl α) (lo : Option Nat) : Bool :=
  match t with
  | [] => true
  | (j, _) :: r => (match lo with | none => true | some l => decide (l < j)) && tsorted r (some j)

/-- The canonical form. -/
def twf {α : Type} [DecidableEq α] (t : Tbl α) (d : α) : Bool :=
  tsorted t none && t.all (fun e => decide (e.2 ≠ d))

/-- Changes every listed value that the test picks; used with changes that map an unlisted value to itself. -/
def tmapIf {α : Type} (t : Tbl α) (p : Nat → α → Bool) (f : α → α) : Tbl α :=
  t.map (fun e => if p e.1 e.2 then (e.1, f e.2) else e)

/-- Drops every listed entry that the test picks: it then reads as unlisted. -/
def tdrop {α : Type} (t : Tbl α) (p : Nat → α → Bool) : Tbl α :=
  t.filter (fun e => !p e.1 e.2)

/-- Byte memory: a table of bytes, an unlisted byte reading as zero (assumption 8). -/
abbrev Memory := Tbl Byte

/-- One byte of memory. -/
def readByte (m : Memory) (a : Nat) : Byte := tget m 0 a

/-- Writes one byte. -/
def writeByte (m : Memory) (a : Nat) (b : Byte) : Memory := tset m 0 a b

/-- Writes bytes at ascending addresses. -/
def writeBytes (m : Memory) (a : Nat) : Bytes → Memory
  | [] => m
  | b :: r => writeBytes (writeByte m a b) (a + 1) r

/-- Reads `n` bytes from an address upward. -/
def readBytes (m : Memory) (a : Nat) : Nat → Bytes
  | 0 => []
  | n + 1 => readByte m a :: readBytes m (a + 1) n

/-- Zeroes the bytes from `a` up to `a + n`: they become unlisted. -/
def zeroBytes (m : Memory) (a n : Nat) : Memory :=
  tdrop m (fun k _ => decide (a ≤ k) && decide (k < a + n))

/-- The canonical form of memory: addresses strictly rising, no zero byte listed. -/
def Memory.wf (m : Memory) : Bool := twf m 0

end Sys2Proof.Machine
end

