-- ==== Sys2Proof/Machine/State.lean ====
section
/-! DEFINITION. The state of the GLM-256 as plain data: every register, FIFO, buffer, counter, mode and pin the spec
gives the module, grouped by block, and the queue of the commands that are waiting. A default is the field's reset value
(R8); INVENTORY.md names for each the rule and the log entry where the spec gives none. -/

namespace Sys2Proof.Machine

/-- Reasons a command could stop the model with a fault. -/
inductive Fault where
  /-- Raised by no command of this release: the spec gives every command of the table an effect. Safe. -/
  | stuck
  deriving DecidableEq, Repr

/-- Reasons a command could be refused. -/
inductive Refusal where
  /-- An arm of `exec` that has no meaning yet; safe: nothing can be proved about it. -/
  | notModelled (mnemonic : String)
  deriving DecidableEq, Repr

/-! ## The host interface (chapter "Host link and command queues") -/

/-- Completion statuses (R456 and the rules that name them). -/
inductive NStat where
  | success | invalidOpcode | invalidField | invalidNs | lbaRange | invalidQueue | invalidQueueSize | invalidLogPage
  | invalidResources | invalidController | alreadyAttached | notAttached | insufficientCapacity | notChangeable
  | notSaveable | invalidFirmware | activationProhibited | accessDenied | guardCheck | unrecoveredRead | internalError
  | interrupted | abortedByRequest | abortLimit | aerLimit | sequenceError | writeProtected | compareFailure
  | refCheck | unwritten | queueFrozen | deferredEnergy | tornDown | imageRejected
  | invalidVector | invalidCq | queueDeletion | abortedSq | controllerList | secondaryState | invalidFormat
  | nsidUnavailable
  deriving DecidableEq, Repr

/-- One completion: function, submission queue, command identifier, status, DNR, command dwords 0 and 1, and the data
the command moves to the host (a read's blocks, a log page). -/
structure Compl where
  fn : Nat
  sq : Nat
  cid : Nat
  stat : NStat := .success
  dnr : Bool := false
  dw0 : W32 := 0
  dw1 : W32 := 0
  data : Bytes := []
  deriving DecidableEq, Repr

/-- An asynchronous event: type, information, log page. -/
structure Aen where
  typ : Nat
  info : Nat
  log : Nat
  deriving DecidableEq, Repr

/-- A submission queue (R61, R77). -/
structure Sq where
  size : Nat
  cq : Nat
  head : Nat := 0
  tail : Nat := 0
  /-- a compute queue, from its first Computational Programs or SLM command -/
  compute : Bool := false
  /-- frozen: SQID and CID of the failing command -/
  frozen : Option (Nat × Nat) := none
  deriving DecidableEq, Repr

/-- A completion queue: entries posted and not yet consumed, and completions held while it is full. -/
structure Cq where
  size : Nat
  vector : Nat := 0
  head : Nat := 0
  posted : List Compl := []
  held : List Compl := []
  deriving DecidableEq, Repr

/-- A controller (R58-R65). -/
structure Ctrl where
  cc : W32 := 0
  rdy : Bool := false
  cfs : Bool := false
  shst : BitVec 2 := 0
  online : Bool := false
  vq : Nat := 0
  vi : Nat := 0
  /-- the counts that Set Features Number of Queues has fixed (R63) -/
  numQ : Option (Nat × Nat) := none
  /-- standard features of this controller by FID -/
  feats : Tbl W32 := []
  /-- feature 0xC0 bit 0 -/
  freeze : Bool := false
  /-- identifiers of the Asynchronous Event Requests outstanding -/
  aers : List Nat := []
  /-- events waiting for a request -/
  events : List Aen := []
  /-- Aborts outstanding: identifier, SQ and identifier of the command named -/
  aborts : List (Nat × Nat × Nat) := []
  /-- Error Information entries, newest first: SQ, identifier, status -/
  errLog : List (Nat × Nat × NStat) := []
  /-- Changed Namespace List -/
  changedNs : List Nat := []
  deriving DecidableEq, Repr

/-- One logical block that a command reads: LBA, data once delivered, or unreadable. -/
structure Part where
  lba : Nat
  /-- a Copy's source: namespace and LBA, where `lba` is the place in the command -/
  src : Option (Nat × Nat) := none
  data : Option Bytes := none
  bad : Bool := false
  unwritten : Bool := false
  deriving DecidableEq, Repr

/-- What a fetched command still has to do. -/
inductive CmdOp where
  /-- a write that waits at step 1 for protected staging (R23) -/
  | write (slba : Nat) (blocks : List Bytes)
  | read
  | compare (blocks : List Bytes)
  | verify
  /-- a copy: the destination LBA of the blocks read -/
  | copy (dst : Nat)
  /-- a Memory Copy from an NVM namespace: the destination byte offset -/
  | memCopy (dst : Nat)
  /-- a flush (R80): staging sequence numbers to reach the journal, and fetch orders of covered writes still at step 1 -/
  | flush (seqs ords : List Nat)
  /-- Write Zeroes, deallocate or Write Uncorrectable behind earlier staged writes (R463): ranges, special value, a Write Zeroes -/
  | mapChange (ranges : List (Nat × Nat)) (special : Nat) (zeroes : Bool)
  /-- an Execute Program: its job -/
  | exec (job : Nat)
  /-- a Firmware Commit with action 3 -/
  | activate
  deriving DecidableEq, Repr

/-- A fetched command whose completion is not committed: fetch time and order, namespace, work left, blocks read. -/
structure Cmd where
  fn : Nat
  sq : Nat
  cid : Nat
  nsid : Nat := 0
  t : Nat := 0
  ord : Nat := 0
  /-- what it asks of the protection information of the blocks that it reads -/
  pi : PiChk := ⟨false, false, 0⟩
  op : CmdOp
  parts : List Part := []
  deriving DecidableEq, Repr

/-- One PCIe port (R54, HIF_LINK): `speed` is 4, 5 or 6 for 16, 32 or 64 GT/s. -/
structure Port where
  up : Bool := false
  flit : Bool := false
  width : Nat := 0
  speed : Nat := 0
  /-- training failed at 16 GT/s: the link stays in Detect -/
  detect : Bool := false
  deriving DecidableEq, Repr

/-- Firmware activation without reset in progress (R84): requester, slot, steps ended, start; `reset` for the
switch that a controller reset starts (R403). -/
structure FwAct where
  fn : Nat
  cid : Nat
  slot : Nat
  /-- step 3 reached: the tenant cores are paused; since; step 4 reached: the engines are drained -/
  paused : Bool := false
  pauseT : Nat := 0
  quiesced : Bool := false
  t : Nat := 0
  byReset : Bool := false
  deriving DecidableEq, Repr

/-- The host side: ports, SR-IOV, controllers, queues, commands in flight, module-wide features, power state. -/
structure HostIf where
  portA : Port := {}
  portB : Port := {}
  vfEnable : Bool := false
  numVfs : Nat := 0
  ctrls : Tbl Ctrl := []
  /-- submission queues, key function × 65536 + queue -/
  sqs : Tbl (Option Sq) := []
  /-- completion queues, same key -/
  cqs : Tbl (Option Cq) := []
  cmds : List Cmd := []
  /-- commands fetched so far -/
  ord : Nat := 0
  /-- vendor events 0x00 to 0x03 outstanding (R76) -/
  evOut : BitVec 4 := 0
  /-- CC.EN clears that wait for the end of an activation (R85) -/
  enClears : List Nat := []
  /-- power state in force, and the last operational one (R88) -/
  ps : Nat := 0
  opPs : Nat := 0
  psNext : Option Nat := none
  /-- entry to a non-operational state decided, not yet reached (R348) -/
  psEntry : Option Nat := none
  psExit : Bool := false
  apstEn : Bool := false
  /-- per power state from 0: target, idle ms -/
  apst : List (Nat × Nat) := []
  idleSince : Nat := 0
  /-- feature 0xC2 ceiling -/
  ceiling : BitVec 2 := 0
  /-- feature 0xC4 -/
  raEn : Bool := true
  raThreshold : Nat := 300
  fwAct : Option FwAct := none
  /-- commit action 1 or 2 taken: the slot takes effect at the next reset or controller reset of the PF (R85) -/
  fwPending : Bool := false
  /-- SMART critical warning bits -/
  smart : BitVec 8 := 0
  /-- reliability degraded by a failed DRAM device (R357) -/
  stopped : Bool := false
  /-- the snapshot of log page 0xC5 (R382) -/
  calSnap : Option Bytes := none
  /-- QUOTE nonces per polder -/
  nonces : Tbl Bytes := []
  /-- time of the last host I/O completion (R453) -/
  lastIo : Option Nat := none
  /-- device self-test code in progress -/
  selfTest : Nat := 0
  deriving DecidableEq, Repr

/-! ## Polders (chapter "Polders and dikes") -/

/-- Polder states with their codes 0 to 4. -/
inductive PolSt where
  | empty | provisioning | active | quiescing | teardown
  deriving DecidableEq, Repr

/-- The resource registers POL_CORES to POL_IMG (R29, R30). -/
structure PolRes where
  cores : W32 := 0
  rings : W32 := 0
  bufq : W32 := 0
  keys : W32 := 0
  hmac : W32 := 0
  ctx : W32 := 0
  srch : W32 := 0
  slm : W32 := 0
  img : W32 := 0
  deriving DecidableEq, Repr

/-- The record of a polder (R29): registers, the ownership records granted at the targets, status. -/
structure Polder where
  st : PolSt := .empty
  gen : BitVec 8 := 0
  drained : Bool := false
  res : PolRes := {}
  /-- the ownership records written at the last ACTIVATE -/
  own : PolRes := {}
  weight : BitVec 8 := 0
  /-- a weight that waits for the next epoch boundary (R47) -/
  weightNext : Option (BitVec 8) := none
  lend : Bool := true
  perm : BitVec 3 := 0
  breaches : W32 := 0
  progress : BitVec 8 := 0
  tdStart : Nat := 0
  /-- teardown completed since the port A PF last read 0xC4; calendar time of the last completion -/
  tdDone : Bool := false
  tdTime : Nat := 0
  deriving DecidableEq, Repr

/-- A breach record of four words. -/
structure Breach where
  w0 : W32
  w1 : W32
  w2 : W32
  w3 : W32
  deriving DecidableEq, Repr

/-- The POL block: records, event policy, breach FIFO and its latches (R42-R45). -/
structure Pol where
  tab : Tbl Polder := [(0, { st := .active, weight := 16 })]
  aen : Bool := true
  fifo : List Breach := []
  lost : BitVec 16 := 0
  armed : Bool := true
  w1 : W32 := 0
  w2 : W32 := 0
  w3 : W32 := 0
  /-- polders that RST activates again once every torn-down polder is EMPTY (R388) -/
  reactivate : Bool := false
  deriving DecidableEq, Repr

/-! ## Programs and jobs (chapter "Compute programs and the Kloed image") -/

/-- A program index: the loaded image, a partial load, activation, and the 64 KiB blocks of the images region that hold the image,
counted from the region's start (R96, R151). -/
structure Prog where
  image : Option Bytes := none
  partialLoad : Bytes := []
  active : Bool := false
  blks : List Nat := []
  deriving DecidableEq, Repr

/-- A memory range set (R108): its ranges as byte offset and length; stale once a range lay outside POL_SLM (R110). -/
structure RSet where
  ranges : List (Nat × Nat)
  stale : Bool := false
  deriving DecidableEq, Repr

/-- Job states (R102-R107). -/
inductive JobSt where
  | admitting | running | held | paused | ending
  deriving DecidableEq, Repr

/-- A job from its checks to DONE. -/
structure Job where
  polder : Nat := 0
  fn : Nat := 0
  sq : Nat := 0
  cid : Nat := 0
  engine : Nat := 0
  index : Nat := 0
  rset : Nat := 0
  ranges : List (Nat × Nat) := []
  params : Bytes := []
  cores : List Nat := []
  limitMs : Nat := 0
  reservation : Nat := 0
  /-- unspent reserve, µJ -/
  reserve : Nat := 0
  /-- spending of this job not yet deducted, fJ -/
  pend : Nat := 0
  st : JobSt := .admitting
  /-- the state that PAUSED returns to -/
  prev : JobSt := .running
  fetchT : Nat := 0
  startT : Nat := 0
  pauseT : Nat := 0
  pausedUs : Nat := 0
  /-- 64 KiB blocks of SLM written, and those fenced with the quarantines open at the write (R219) -/
  wrote : List Nat := []
  /-- ending: status, CDW0; none when no completion is posted -/
  result : Option (NStat × W32) := none
  /-- an Abort that committed first -/
  aborted : Option (Nat × Nat) := none
  deriving DecidableEq, Repr

/-! ## Adral-2 cores (chapters "Adral-2 instruction set" and "Adral-2 cores") -/

/-- Core states, CORE_STAT.state 0 to 7. -/
inductive CoreSt where
  | free | starting | running | waiting | paused | stopping | scrubbing | halted
  deriving DecidableEq, Repr

/-- A region entry of the protection unit (R153). -/
structure Rgn where
  base : Nat
  limit : Nat
  xo : Bool := false
  x : Bool := false
  w : Bool := false
  r : Bool := false
  deriving DecidableEq, Repr

/-- Wraps of a counter in one word: its pc, slot, data address and latency as a counter notes them, and how many. -/
structure Wrap where
  pc : W36 := 0
  slot : Nat := 0
  addr : Nat := 0
  lat : Nat := 0
  n : Nat := 1
  deriving DecidableEq, Repr

/-- A programmable counter (R166-R170): configuration, value, the value last written, the word held for CNT_n_H, and the
wraps that have happened and are not yet processed, oldest first. -/
structure Counter where
  cfg : BitVec 16 := 0
  val : W36 := 0
  reload : W36 := 0
  hiHold : Option (BitVec 4) := none
  wraps : List Wrap := []
  deriving DecidableEq, Repr

/-- A routine that waits at a doorbell while its job is HELD (R164): micro-temporaries, held register writes, flags, the microaddress
to run, microwords left, counter events, the last data address. -/
structure Routine where
  u : Tbl W36 := []
  held : List (BitVec 5 × W36) := []
  g : BitVec 4 := 0
  a : Nat := 0
  left : Nat := 0
  evs : List Nat := []
  addr : Option Nat := none
  deriving DecidableEq, Repr

/-- What a core waits for in WFE (R137): mask, destination, timeout cycles (0 none). -/
structure Wfe where
  mask : BitVec 33
  rd : BitVec 5
  timeout : Nat
  deriving DecidableEq, Repr

/-- The context's last search operation: key, priority, index of the last entry returned (R262). -/
structure LastSearch where
  key : Nat
  prio : Nat
  idx : Nat
  deriving DecidableEq, Repr

/-- One in-service core. -/
structure Core where
  st : CoreSt := .free
  user : Bool := false
  polder : Nat := 0
  prog : Nat := 0
  job : Option Nat := none
  /-- job-relative index (MFS 1) -/
  rel : Nat := 0
  v1 : Bool := false
  csLoaded : Bool := false
  /-- w1 to w31 by number; w0 reads as zero (R118) -/
  regs : Tbl W36 := []
  pc : W36 := 0
  flags : BitVec 4 := 0
  /-- classify tables: key table × 256 + byte -/
  cls : Tbl (BitVec 4) := []
  ldm : Tbl W36 := []
  /-- 64-entry decode table and 4,096-word control store -/
  dec : Tbl W36 := []
  cs : Tbl W36 := []
  rgn : Tbl (Option Rgn) := []
  pend : BitVec 33 := 0
  wfe : Option Wfe := none
  search : Option LastSearch := none
  utvec : W36 := 0
  uepc : W36 := 0
  ucause : W36 := 0
  utval : W36 := 0
  sstatus : BitVec 2 := 0
  stvec : W36 := 0
  sepc : W36 := 0
  scause : W36 := 0
  stval : W36 := 0
  sscratch : W36 := 0
  cyc : BitVec 72 := 0
  /-- snapshots that the next read returns (R168): bits 71:36 of the cycle counter and the odd halves of chained pairs for RDC -/
  snapHi : Option W36 := none
  snapPair : Tbl (Option W36) := []
  /-- those of CORE page 1: CNT_CYC_M, CNT_CYC_H, and CNT_n_L, CNT_n_H by counter -/
  snapM : Option W32 := none
  snapH : Option (BitVec 8) := none
  snapCntL : Tbl (Option W32) := []
  snapCntH : Tbl (Option (BitVec 4)) := []
  cnt : Tbl Counter := []
  ovf : BitVec 8 := 0
  /-- COUNTER_OVF and SMP_FULL interrupts pending (R159) -/
  ovfPend : Bool := false
  fullPend : Bool := false
  smpBase : BitVec 21 := 0
  smpLimit : BitVec 21 := 0
  smpNext : W32 := 0
  smpLost : BitVec 16 := 0
  smpFull : Bool := false
  trap : W32 := 0
  trapPc : W36 := 0
  halt : Bool := false
  csAddr : BitVec 12 := 0
  csX : BitVec 4 := 0
  /-- taken out of service until the next boot (R396), or absent (R395) -/
  out : Bool := false
  absent : Bool := false
  /-- uncorrectable errors of its local memory since boot (R396) -/
  ldmErrs : Nat := 0
  /-- EXT_INT raised by the watchdog (R412) -/
  wdtInt : Bool := false
  /-- when the end of its job asked it to stop (R162) -/
  stopT : Option Nat := none
  /-- the custom instruction at its pc, begun and waiting at a doorbell -/
  routine : Option Routine := none
  /-- it has stalled at the word of its pc (event 0x13) -/
  stalled : Bool := false
  deriving DecidableEq, Repr

/-! ## Engine rings and buffers (chapter "Engine rings, flows and the buffer pools") -/

/-- Who holds a ring (R176). -/
inductive Holder where
  | free
  | job (j : Nat)
  | service
  deriving DecidableEq, Repr

/-- A compressor context slot or a decompression stream record (R236). -/
structure Strm where
  used : Bool := false
  seq : BitVec 8 := 0
  polder : Nat := 0
  ring : Nat := 0
  job : Option Nat := none
  format : Nat := 0
  level : Nat := 0
  /-- compressor: the wrapper's header is written, history, bits not yet byte-aligned, input count, checksum -/
  begun : Bool := false
  hist : Bytes := []
  bits : List Bool := []
  count : Nat := 0
  sum : Nat := 0
  /-- quarantines of the input so far -/
  inq : List Nat := []
  /-- decompressor: input of the member in progress, output so far, limit, bound instance, a member has ended -/
  input : Bytes := []
  out : Nat := 0
  limit : Nat := 0
  inst : Option Nat := none
  memberOut : Nat := 0
  ended : Bool := false
  deriving DecidableEq, Repr

/-- A result that an engine has for its completion: status, bytes in and out, output handles, detail words. -/
structure ERes where
  status : BitVec 8 := 0
  consumed : Nat := 0
  produced : Nat := 0
  outs : List W32 := []
  w6 : W32 := 0
  w7 : W32 := 0
  /-- the list buffer that names the outputs, where word 4 is a list -/
  list : Option W32 := none
  /-- a GCM verdict: the quarantine where the stream has one, tag matches; a VERIFY result in w6, w7 -/
  verdict : Option (Option Nat × Bool) := none
  verify : Bool := false
  deriving DecidableEq, Repr

/-- Output of a descriptor that is not in a buffer yet: the size that its buffer is asked for, the bytes, the quarantines it inherits,
the logical block that it comes from. -/
structure OutBuf where
  size : Nat
  data : Bytes
  quar : List Nat := []
  lba : Nat := 0
  deriving DecidableEq, Repr

/-- A dispatched descriptor: index, its sixteen words, chained input, the result once the engine has ended it. -/
structure Flight where
  idx : Nat
  words : List W32
  /-- bound to this upstream descriptor (ring, index), and the upstream's end status -/
  up : Option (Nat × Nat) := none
  upEnd : Option (BitVec 8) := none
  /-- buffers passed in from upstream and not consumed -/
  chain : List W32 := []
  /-- chained input already read into the engine, and the quarantines it inherits -/
  acc : Bytes := []
  accQ : List Nat := []
  /-- input handles as named at dispatch (kind 1 and 2), list words of a LIST digest -/
  ins : List W32 := []
  /-- what the read of the list buffer met: 0, 6 POISONED_INPUT, 7 DIKE_BREACH -/
  insBad : Nat := 0
  /-- the downstream descriptor that this one is bound to -/
  down : Option (Nat × Nat) := none
  /-- outputs already delivered or passed downstream -/
  given : Nat := 0
  /-- extent READ: the blocks not yet taken, in order -/
  parts : List Part := []
  /-- output still to be put into buffers, bytes of output so far, filled buffers not yet named or passed on (handle, bytes, LBA), and
  the result that stands once all output is delivered -/
  todo : List OutBuf := []
  sent : Nat := 0
  full : List (W32 × Nat × Nat) := []
  fin : Option ERes := none
  /-- the pipeline or compressor of a fragment, the slot or record that a FIRST fragment took at dispatch with its sequence, the key
  slot and generation that its stream took, the quarantine that it opened -/
  pipe : Nat := 0
  strm : Option (Nat × BitVec 8) := none
  key : Option (Nat × BitVec 8) := none
  quar : Option Nat := none
  /-- the compressor or decompressor that is bound to the fragment; input bytes of the compressor's ended blocks; the compressor's
  stream as its ended blocks leave it -/
  inst : Option Nat := none
  eaten : Nat := 0
  work : Option Strm := none
  /-- waiting for a buffer since -/
  waitBuf : Option Nat := none
  /-- held for energy since (R368) -/
  waitNrg : Option Nat := none
  cancelled : Bool := false
  res : Option ERes := none
  deriving DecidableEq, Repr

/-- A completion record of eight words with its index. -/
structure ERec where
  idx : Nat
  words : List W32
  deriving DecidableEq, Repr

/-- A ring and its area (R174-R177). -/
structure Ring where
  holder : Holder := .free
  desc : Tbl W32 := []
  comp : Tbl W32 := []
  prod : BitVec 16 := 0
  cons : BitVec 16 := 0
  cprod : BitVec 16 := 0
  ccons : BitVec 16 := 0
  halted : Bool := false
  cause : BitVec 2 := 0
  foreign : Bool := false
  concerned : BitVec 16 := 0
  cancelReq : Bool := false
  cancelIdx : BitVec 16 := 0
  /-- dispatched descriptors not completed, in dispatch order -/
  flight : List Flight := []
  /-- buffers waiting for a descriptor of input kind 3 -/
  waitBufs : List (W32 × Nat × Nat) := []
  /-- ends of upstream descriptors whose buffers still wait: ring, index, status -/
  waitEnd : List (Nat × Nat × BitVec 8) := []
  /-- descriptors cancelled before their dispatch -/
  skip : List Nat := []
  /-- finished completions held while 32 are unconsumed (R183) -/
  held : List ERec := []
  deriving DecidableEq, Repr

/-- The record of a buffer (R186). -/
structure Buf where
  owner : Nat := 0
  gen : BitVec 8 := 0
  ref : BitVec 8 := 0
  fill : Nat := 0
  poison : Bool := false
  job : Option Nat := none
  t : Nat := 0
  /-- quarantining streams (R218) -/
  quar : List Nat := []
  /-- releases that wait for the verdict -/
  relWait : Nat := 0
  /-- freed, being zeroed -/
  zeroing : Bool := false
  deriving DecidableEq, Repr

/-- A leak record (R190). -/
structure Leak where
  owner : Nat
  pool : Nat
  out : Nat
  age : Nat
  deriving DecidableEq, Repr

/-- Rings, buffer records, shared buffer SRAM, leak records, audit control. -/
structure Bpm where
  rings : Tbl Ring := []
  /-- buffers, key pool × 8192 + index -/
  bufs : Tbl Buf := []
  /-- shared buffer SRAM bytes by byte offset -/
  sram : Memory := []
  leaks : List Leak := []
  age : BitVec 16 := 10000
  audit : Bool := false
  deriving DecidableEq, Repr

/-! ## The security island (chapter "Cipher and digest engines") -/

/-- A cipher key slot or HMAC slot (R202): current generation and key, shadow, HMAC algorithm. -/
structure KeySlot where
  gen : BitVec 8 := 0
  key : Option Bytes := none
  shadow : Option (BitVec 8 × Bytes) := none
  alg : BitVec 2 := 0
  deriving DecidableEq, Repr

/-- A stream context of a cipher or digest pipeline (R215, R223). -/
structure Ctx where
  used : Bool := false
  seq : BitVec 8 := 0
  polder : Nat := 0
  ring : Nat := 0
  job : Option Nat := none
  lost : Bool := false
  dec : Bool := false
  slot : Nat := 0
  gen : BitVec 8 := 0
  iv : Bytes := []
  aad : Bytes := []
  /-- bytes so far: ciphertext of a GCM stream, message of a digest stream -/
  data : Bytes := []
  alg : BitVec 2 := 0
  hmac : Bool := false
  /-- the quarantine of a GCM_DEC stream; the quarantines of the input so far -/
  quar : Option Nat := none
  inq : List Nat := []
  deriving DecidableEq, Repr

/-- A measurement register and its extend count (R227). -/
structure Meas where
  val : Bytes := List.replicate 48 0
  cnt : W32 := 0
  deriving DecidableEq, Repr

/-- Keys, contexts, alarms, measurement registers. -/
structure Island where
  keys : Tbl KeySlot := []
  hmacs : Tbl KeySlot := []
  /-- cipher contexts, key pipeline × 64 + slot -/
  cctx : Tbl Ctx := []
  /-- digest contexts, key pipeline × 64 + slot -/
  dctx : Tbl Ctx := []
  /-- the loaded media key table: key identity per NSID, 0 = none -/
  media : Tbl Nat := []
  kek : Tbl (Option (BitVec 8 × Bytes)) := []
  transGen : Tbl (BitVec 8) := []
  /-- the DRBG draw that the transport key pair of a polder comes from, 0 = none -/
  transDraw : Tbl Nat := []
  imageKey : Tbl (Option Bytes) := []
  last : BitVec 8 := 0
  mediaReady : Bool := false
  seen : BitVec 8 := 0
  ready : Bool := false
  alarms : W32 := 0
  alarmT : Nat := 0
  reseeds : BitVec 16 := 0
  fails : BitVec 8 := 0
  ok : Bool := false
  /-- times of failed health windows in the last second -/
  failT : List Nat := []
  /-- DRBG draws so far; requests since the last reseed, and its time -/
  draws : Nat := 0
  reqs : Nat := 0
  seedT : Nat := 0
  /-- the source has passed its start-up samples; the boot has brought the island up -/
  sampled : Bool := false
  up : Bool := false
  /-- the operation of CIPH_MEDIA_CTRL is in progress until -/
  mediaEnd : Nat := 0
  mediaOp : BitVec 2 := 0
  mediaNs : BitVec 10 := 0
  meas : Tbl Meas := []
  snapVal : Bytes := []
  snapCnt : W32 := 0
  snapPtr : Nat := 0
  measSel : BitVec 7 := 0
  /-- open quarantines: stream identity and job -/
  quars : List (Nat × Option Nat) := []
  nextQuar : Nat := 1
  /-- quarantines that have failed: what an engine still fills from their data is scrubbed too -/
  failedQ : List Nat := []
  /-- SLM blocks of 64 KiB fenced by open quarantines (R219) -/
  fence : Tbl (List Nat) := []
  deriving DecidableEq, Repr

/-! ## Compression (chapter "Compression and decompression") -/

/-- CMPR_INST_i: the stream a compressor or decompressor is bound to. -/
structure Inst where
  bound : Bool := false
  owner : Nat := 0
  format : Nat := 0
  deriving DecidableEq, Repr

/-- Compressors, decompressors, their streams and error counters. -/
structure Cmpr where
  insts : Tbl Inst := []
  /-- compressor slots, key instance × 8 + slot -/
  slots : Tbl Strm := []
  /-- decompression stream records 0 to 63 -/
  recs : Tbl Strm := []
  errs : Tbl W32 := []
  deriving DecidableEq, Repr

/-! ## Range search -/

/-- A search entry (R251). -/
structure SEnt where
  valid : Bool := false
  lo : Nat := 0
  hi : Nat := 0
  result : W36 := 0
  prio : Nat := 0
  polder : Nat := 0
  deriving DecidableEq, Repr

/-- The SRCH block. -/
structure Srch where
  ents : Tbl SEnt := []
  shift : Tbl Nat := []
  busy : Tbl Bool := []
  /-- bucket masks of 256 bits per row -/
  masks : Tbl Nat := []
  /-- rows awaiting mask recomputation, and the polder that pays for it by row -/
  pending : List Nat := []
  payer : Tbl Nat := []
  lkp : Tbl W32 := []
  rows : Tbl W32 := []
  /-- SHIFTs in progress: ring and index of the descriptor (none once its ring is released), polder, rows to recompute -/
  shifting : List (Option (Nat × Nat) × Nat × List Nat) := []
  nofilter : Bool := false
  eIdx : BitVec 16 := 0
  snap : List W32 := []
  deriving DecidableEq, Repr

/-! ## Flash channels -/

/-- Block states with codes 0 to 5 (R283). -/
inductive BlkSt where
  | unknown | erased | opened | sealed | erasing | suspended
  deriving DecidableEq, Repr

/-- State of one block of one plane. -/
structure Blk where
  st : BlkSt := .unknown
  ptr : Nat := 0
  pslc : Bool := false
  hold : Bool := false
  deriving DecidableEq, Repr

/-- A descriptor in an FLC: its words, queue, whether FTLA's port pushed it, commit time, the staged writes a program
carries (staging sequence, granule bit), the read requests a read serves, the buffers taken. -/
structure FDesc where
  words : List W32
  q : Nat
  /-- its slot of the channel's store -/
  slot : Nat := 0
  ftla : Bool := false
  t : Nat := 0
  units : List (Nat × Nat) := []
  reqs : List (Nat × Nat) := []
  bufs : List W32 := []
  issued : Nat := 0
  /-- waiting for buffers since -/
  waitT : Option Nat := none
  deriving DecidableEq, Repr

/-- Die states with codes 0 to 8 (FLC_DIE_d.state). -/
inductive DieSt where
  | idle | reading | program | erase | suspending | resetting | training | stuck | failed
  deriving DecidableEq, Repr

/-- A die: running command and its start, a suspended erase with its run time, automatic or not; training. -/
structure Die where
  st : DieSt := .idle
  run : Option FDesc := none
  t : Nat := 0
  /-- the suspended erase and the time it has run, µs -/
  susp : Option (FDesc × Nat) := none
  auto : Bool := false
  /-- run time of the erase before its last resume -/
  ran : Nat := 0
  stuck : Bool := false
  failed : Bool := false
  needTrain : Bool := false
  lastTrain : Nat := 0
  /-- consecutive issues from higher queues while a lower one waits (R279) -/
  bypass : Nat := 0
  /-- weighted round-robin of R280: the polder served last, by queue -/
  turn : Tbl Nat := []
  /-- its deficits in tenths of a µs, key queue × 64 + polder -/
  deficit : Tbl Nat := []
  feats : Tbl W32 := []
  deriving DecidableEq, Repr

/-- A read that has left its die: granules in the soft pool (R292), or all decided and waiting for the media path (R201). -/
structure SoftRd where
  desc : FDesc
  good : List Nat := []
  bad : List Nat := []
  wait : List Nat := []
  bits : Nat := 0
  retry : Option Nat := none
  /-- a granule of it was soft-decoded -/
  soft : Bool := false
  deriving DecidableEq, Repr

/-- One FLC. -/
structure Flc where
  guard : BitVec 12 := 500
  retries : BitVec 4 := 4
  autoSusp : Bool := true
  enable : Bool := false
  rate : BitVec 2 := 0
  brownout : Bool := false
  training : Bool := false
  cancelReq : Bool := false
  cancelQ : BitVec 2 := 0
  cancelTag : BitVec 16 := 0
  cqBase : BitVec 22 := 0
  cqProd : BitVec 16 := 0
  cqCons : BitVec 16 := 0
  /-- FLC_DQ_BASE_q: base and size -/
  base0 : BitVec 8 × BitVec 9 := (0, 64)
  base1 : BitVec 8 × BitVec 9 := (64, 64)
  base2 : BitVec 8 × BitVec 9 := (128, 64)
  base3 : BitVec 8 × BitVec 9 := (192, 64)
  committed : Tbl (BitVec 16) := []
  /-- assembly buffers: initiator, queue, words so far -/
  asm : List (Ini × Nat × List W32) := []
  /-- committed descriptors that have not issued, in commit order -/
  queue : List FDesc := []
  /-- FTLA's descriptors that wait for room in their queue, in order (assumption 69) -/
  backlog : List FDesc := []
  dies : Tbl Die := []
  /-- blocks, key (die × 4 + plane) × 2730 + block -/
  blks : Tbl Blk := []
  soft : List SoftRd := []
  /-- completions held while 512 are unconsumed -/
  held : List (List W32) := []
  rr : Tbl W32 := []
  trainCnt : BitVec 16 := 0
  interval : BitVec 8 := 15
  drift : BitVec 8 := 8
  eccSoft : W32 := 0
  eccUnc : W32 := 0
  bstSel : W32 := 0
  /-- FLC_BST_DATA as the last write of FLC_BST_SEL sampled it -/
  bstSnap : W32 := 0
  deriving DecidableEq, Repr

/-! ## Translation -/

/-- What a granule of flash holds: media key identity, plaintext under that key, back-pointer, undecodable. -/
structure Gran where
  key : Nat := 0
  data : Bytes := []
  back : Option Nat := none
  /-- the block's LBA, the tweak of its data units (R199) -/
  lba : Nat := 0
  bad : Bool := false
  /-- programmed by service firmware: `data` is what the cells hold, not a plaintext -/
  raw : Bool := false
  deriving DecidableEq, Repr

/-- Namespace table entry (R67, R304): blocks, format, protection information type 0 (none) to 3, metadata as an extended LBA,
segments (first map page, pages), owner, attached controller. -/
structure Ns where
  blocks : Nat
  lbaf : Nat := 0
  pi : Nat := 0
  ext : Bool := false
  segs : List (Nat × Nat) := []
  owner : Nat := 0
  ctrl : Option Nat := none
  deriving DecidableEq, Repr

/-- Directory entry of a map page (R309): flash location, cached, slot, dirty, first and last sequence changing it. -/
structure MPage where
  loc : Option Nat := none
  cached : Bool := false
  slot : Nat := 0
  dirty : Bool := false
  /-- sequence of the oldest record that the flash copy lacks -/
  seqLo : Nat := 0
  /-- order of the last use, for eviction (R311) -/
  use : Nat := 0
  deriving DecidableEq, Repr

/-- A journal record (R312): type, sequence, words 2 to 6. -/
structure JRec where
  typ : Nat
  seq : Nat
  w : List W32
  deriving DecidableEq, Repr

/-- Superblock state: stream code, event code of the last BLOCK record, absent members, erase counts, Q window. -/
structure Sb where
  ev : Nat := 0
  stream : Nat := 0
  absent : W32 := 0
  qlc : Nat := 0
  pslc : Nat := 0
  /-- page indices in the Q window, oldest first; the whole-row programs of the newest -/
  window : List Nat := []
  deriving DecidableEq, Repr

/-- A write in protected staging (R22). -/
structure Staged where
  seq : Nat
  nsid : Nat
  lba : Nat
  lidx : Nat
  polder : Nat
  data : Bytes
  /-- fetch order of its command -/
  ord : Nat := 0
  /-- granule of a PROGRAM in flight -/
  placed : Option Nat := none
  /-- granule of its hold-up copy -/
  drained : Option Nat := none
  /-- when it entered staging, µs (the 1 ms limit of R22) -/
  t : Nat := 0
  deriving DecidableEq, Repr

/-- Who waits for a flash read. -/
inductive Waiter where
  | cmd (fn sq cid lba : Nat)
  | desc (r idx lba : Nat)
  | page (pg : Nat)
  deriving DecidableEq, Repr

/-- A flash read that FTLA has issued: identity, who waits, logical index, granule, withdrawn, read again. -/
structure RdReq where
  id : Nat
  who : Waiter
  lidx : Nat := 0
  gran : Nat := 0
  polder : Nat := 0
  withdrawn : Bool := false
  again : Bool := false
  /-- waits for its map page -/
  page : Bool := false
  deriving DecidableEq, Repr

/-- FTLA: map, directory, journal, namespaces, superblocks, staging, media, reads, queues, registers. -/
structure Ftla where
  media : Tbl Gran := []
  /-- the map; an unlisted index reads as unmapped 0o777_777_777_777 -/
  map : Tbl Nat := []
  pages : Tbl MPage := []
  /-- lookaside contents, newest first -/
  la : List Nat := []
  journal : List JRec := []
  jseq : Nat := 0
  /-- highest staging sequence applied to an index since its page's last write-back (R313) -/
  applied : Tbl Nat := []
  nss : Tbl (Option Ns) := []
  sbs : Tbl Sb := []
  staging : List Staged := []
  stageSeq : Nat := 0
  reads : List RdReq := []
  nextRd : Nat := 1
  /-- uses of map pages so far -/
  uses : Nat := 0
  enable : Bool := false
  stagger : Bool := true
  spread : BitVec 12 := 400
  sqBase : BitVec 22 := 0
  sqProd : BitVec 8 := 0
  sqCons : BitVec 8 := 0
  cqBase : BitVec 22 := 0
  cqProd : BitVec 9 := 0
  cqCons : BitVec 9 := 0
  cache : BitVec 22 := 3611761
  ready : Bool := false
  replaying : Bool := false
  writeback : Bool := false
  laMiss : W32 := 0
  mcMiss : W32 := 0
  raCnt : W32 := 0
  /-- FTLA_FAIL: kind, channel, die, superblocks left -/
  fail : Option (Nat × Nat × Nat × Nat) := none
  deriving DecidableEq, Repr

/-! ## DRAM and memory integrity -/

/-- Error record of one memory instance (R351-R355). -/
structure MemInst where
  ce : W32 := 0
  ue : W32 := 0
  /-- lines remapped -/
  remap : List Nat := []
  /-- no spare left has been reported -/
  fullRep : Bool := false
  deriving DecidableEq, Repr

/-- The DRC. -/
structure Drc where
  hours : BitVec 8 := 24
  scrubEn : Bool := true
  glm96 : Bool := false
  failedCh : BitVec 8 := 0
  init : Bool := false
  selfref : Bool := false
  trained : Bool := false
  fwd : W32 := 0
  oscRd : Tbl (BitVec 8) := []
  oscWr : Tbl (BitVec 8) := []
  driftRep : BitVec 8 := 0
  /-- 64-byte blocks with a queued write, oldest first -/
  wq : List Nat := []
  /-- µs at which the last switch of the ordering mode began -/
  orderT : Option Nat := none
  deriving DecidableEq, Repr

/-- MEMI. -/
structure Memi where
  insts : Tbl MemInst := []
  /-- corrected errors per line, key instance × 2^32 + line -/
  errs : Tbl Nat := []
  /-- what is wrong with a line, same key: 1 poisoned (R341), 2 uncorrectable, 3 a codeword of it was uncorrectable -/
  bad : Tbl Nat := []
  /-- check-bit masks stored by test mode 0 (R358), key instance × 2^32 + codeword -/
  flips : Tbl Nat := []
  sel : BitVec 8 := 0
  snapCe : W32 := 0
  snapUe : W32 := 0
  ueW0 : W32 := 0
  ueW1 : W32 := 0
  ueW2 : W32 := 0
  latW1 : W32 := 0
  latW2 : W32 := 0
  armed : Bool := false
  mode : Bool := false
  target : BitVec 8 := 0
  chk0 : W32 := 0
  chk1 : W32 := 0
  chk2 : W32 := 0
  /-- accepted erasure trials per DRAM device (R340) -/
  trials : Tbl Nat := []
  deriving DecidableEq, Repr

/-! ## Energy and time -/

/-- The account of a polder (R364-R366), and its entry of the last 0xC0 snapshot. -/
structure Acct where
  bal : Int := 0
  refill : Nat := 0
  /-- energy of the epoch not belonging to a job reserve, fJ: charged and not yet deducted -/
  pend : Nat := 0
  /-- estimate of the epoch, fJ -/
  est : Nat := 0
  /-- class 1 and 2 part of the estimate, fJ -/
  est12 : Nat := 0
  life : Nat := 0
  deferrals : W32 := 0
  deferred : Bool := false
  /-- energy weight and cap of feature 0xC3 -/
  weight : BitVec 8 := 16
  cap : W32 := 0
  weightNext : Option (BitVec 8 × W32) := none
  snapRefill : Nat := 0
  snapEst : Nat := 0
  snapRec : Int := 0
  snapBal : Int := 0
  snapDef : Bool := false
  snapDeferrals : W32 := 0
  snapLife : Nat := 0
  deriving DecidableEq, Repr

/-- NRG. -/
structure Nrg where
  acct : Tbl Acct := []
  svcPct : BitVec 8 := 50
  svcBal : Int := 0
  svcPend : Nat := 0
  thermal : BitVec 2 := 0
  /-- the last step down while the composite has stayed at or above WCTEMP -/
  thermalT : Option Nat := none
  coolT : Option Nat := none
  /-- effective envelope 0 to 3 -/
  envelope : BitVec 2 := 0
  held : BitVec 3 := 0
  pacing : Bool := false
  gap : BitVec 16 := 0
  drift : Bool := false
  driftCnt : Nat := 0
  embValid : Bool := false
  epoch : Nat := 0
  epochHi : W32 := 0
  /-- measured energy of the epoch so far and of the guard window, µJ; samples in the window -/
  meas : Nat := 0
  /-- energy below a whole µJ, 10^-10 µJ -/
  measRem : Nat := 0
  window : Nat := 0
  samples : Nat := 0
  lastMeas : Nat := 0
  lastA : Nat := 0
  lastRes : Int := 0
  lastEnv : BitVec 2 := 0
  capUf : BitVec 20 := 0
  esr : BitVec 16 := 0
  eMj : BitVec 16 := 0
  limit : Nat := 0
  /-- the limit that applies once the bank is back at V_chg -/
  limitNext : Option Nat := none
  measuring : Bool := false
  test : Bool := false
  lastMeasT : Nat := 0
  /-- the calibration set in force for gains, and for coefficients and constants -/
  calGain : Bytes := []
  calCoef : Bytes := []
  calNew : Bool := false
  temps : List Int := [250, 250, 250, 250]
  /-- the safety copy of R376: staging sequences drained and not yet released -/
  safety : List Nat := []
  draining : Bool := false
  deriving DecidableEq, Repr

/-- TIME: the calendar in domain 39, its shadow in domain 38, latches. -/
structure Time where
  cal : Nat := 0
  shadow : Nat := 0
  shadowHi : W32 := 0
  st : BitVec 2 := 0
  synch : Bool := false
  posHi : W32 := 0
  engHi : W32 := 0
  /-- µs of the last saving of the calendar -/
  saved : Nat := 0
  deriving DecidableEq, Repr

/-! ## Reset, boot, faults, sideband -/

/-- A report to FLT (R407). -/
structure FRep where
  cls : Nat
  inst : Nat
  blk : Nat
  binst : Nat
  cause : Nat
  action : Nat
  deriving DecidableEq, Repr

/-- An entry of log page 0xC1. -/
structure FEnt where
  seq : Nat
  t : Nat
  kind : Nat
  cls : Nat
  inst : Nat
  blk : Nat
  binst : Nat
  cause : Nat
  count : Nat
  extra : Nat
  deriving DecidableEq, Repr

/-- FLT: the open window's reports with the calendar time of each, latched tags with their time, absorbed count. -/
structure Flt where
  window : Option (Nat × List (FRep × Nat)) := none
  latched : List (Nat × Nat × Nat) := []
  abs : W32 := 0
  deriving DecidableEq, Repr

/-- RST, OPT and CAL registers, and the fuses' companions of the boot. -/
structure Rst where
  kind : BitVec 4 := 0
  step : BitVec 4 := 0
  cores : BitVec 8 := 0
  measChanged : Bool := false
  fallback : Bool := false
  slot : Bool := false
  ready : Bool := false
  wdtEn : Bool := false
  wdtMs : BitVec 16 := 100
  kick : BitVec 16 := 0
  late : BitVec 16 := 0
  /-- ranks that missed the last period (R412) -/
  missed : BitVec 16 := 0
  svnRun : BitVec 16 := 0
  bootMs : W32 := 0
  bootT : Nat := 0
  bootTimeoutS : Nat := 20
  retried : Bool := false
  failed : Bool := false
  /-- MRAM writes held until the bank reaches 20.0 V (R392) -/
  mramHeld : Bool := true
  /-- the service cores in ascending core ID order -/
  service : List Nat := []
  dual : Bool := false
  bar2 : Bool := false
  opKey : Option Bytes := none
  polRecs : List Bytes := []
  optHalf : Bool := false
  optGen : W32 := 0
  optPending : Bool := false
  optErr : BitVec 8 := 0
  optSrc : BitVec 23 := 0
  /-- when the last commit of the option area and of the calibration set started to be written -/
  optT : Option Nat := none
  calT : Option Nat := none
  calErr : BitVec 8 := 0
  calSrc : BitVec 23 := 0
  calValid : Bool := false
  /-- the running firmware image -/
  image : Bytes := []
  deriving DecidableEq, Repr

/-- The two supplies and what they cause. -/
structure Power where
  main : Bool := true
  aux : Bool := true
  /-- power-on reset released and boot not yet started -/
  por : Bool := true
  brownout : Bool := false
  pwrdis : Bool := false
  /-- PWRDIS disable at step 4: loads off -/
  off : Bool := false
  thermal : Bool := false
  /-- PWRDIS was released before step 4 (R451) -/
  released : Bool := false
  deriving DecidableEq, Repr

/-- An NVMe-MI command slot (R420, R421): message in assembly, next sequence, request answered and ready. -/
structure MiSlot where
  asm : Option (Bytes × BitVec 2) := none
  req : Option Bytes := none
  tunnel : Bool := false
  resp : Option Bytes := none
  /-- the interrupt on the bus that its ready response raised is pending -/
  ibi : Bool := false
  deriving DecidableEq, Repr

/-- The sideband. -/
structure Sbd where
  eid : BitVec 8 := 0
  dropped : BitVec 8 := 0
  fallback : Bool := true
  dynValid : Bool := false
  dynAddr : BitVec 7 := 0
  ibiEn : Bool := true
  protoErr : Bool := false
  slot : BitVec 3 := 0
  mwl : Nat := 261
  mrl : Nat := 261
  mtu : Nat := 64
  fruOff : Nat := 0
  slot0 : MiSlot := {}
  slot1 : MiSlot := {}
  /-- the interrupt on the bus that a control message's response raised is pending -/
  ibi : Bool := false
  /-- the health status change item of Configuration Set, as last written -/
  health : Nat := 0
  /-- another module holds the same dynamic address (R416) -/
  tied : Bool := false
  /-- what the last transaction answered: none = NACK -/
  resp : Option Bytes := none
  deriving DecidableEq, Repr

/-- A register page's header (R429, R433). -/
structure Hdr where
  /-- PG_CTRL.target once written; none: the lowest service core ID -/
  target : Option (BitVec 5) := none
  errInt : Bool := false
  intEn : Bool := false
  raw : W32 := 0
  en : W32 := 0
  seq : BitVec 16 := 0
  /-- the initiator with an open key window -/
  win : Option Ini := none
  /-- the initiators whose window another initiator has closed, and that have made no key write and no KG write since -/
  closed : List Ini := []
  errValid : Bool := false
  errStamp : BitVec 6 := 0
  errCode : BitVec 8 := 0
  errInfo : W32 := 0
  errLatch : W32 := 0
  evt : W32 := 0
  deriving DecidableEq, Repr

/-- PMON (R440). -/
structure Pmon where
  filt : Bool := false
  polder : BitVec 6 := 0
  cnt : Tbl (BitVec 72) := []
  /-- µs at which counter 11 began to count the cycles since -/
  cycT : Nat := 0
  latM : Tbl W32 := []
  latH : Tbl (BitVec 8) := []
  deriving DecidableEq, Repr

/-- The content of MRAM and the boot store that no reset changes of itself (R352, R380, R396-R405). -/
structure Nv where
  optA : Bytes := []
  optB : Bytes := []
  cal : Bytes := []
  calCommits : BitVec 16 := 0
  slot1 : Bytes := []
  slot2 : Bytes := []
  download : Bytes := []
  /-- the slot marked active: false slot 1 -/
  active : Bool := false
  /-- core identifiers that a spare serves, in order of substitution -/
  spares : List Nat := []
  svnMin : BitVec 16 := 0
  /-- measurement registers 0 to 7 as the last two boots ended, newest first -/
  measCopies : List (List Bytes) := []
  /-- log page 0xC1, newest first -/
  faults : List FEnt := []
  faultSeq : Nat := 0
  calendar : Nat := 0
  calSet : Bool := false
  posSeconds : Nat := 0
  energyUj : Nat := 0
  cycles : Nat := 0
  losses : Nat := 0
  /-- embankment history, newest first: day, µF, mΩ, mJ -/
  history : List (Nat × Nat × Nat × Nat) := []
  historyHours : Nat := 0
  /-- media keys: identity of the pair of each NSID, 0 = none -/
  mediaKeys : Tbl Nat := []
  nextKey : Nat := 1
  opImageKey : Option Bytes := none
  failedDev : BitVec 8 := 0
  deriving DecidableEq, Repr

/-- The fuses (R1, R2): ordering code 0 -V, 1 -O, 2 -OD, and the 20-character module serial. -/
structure Fuse where
  code : Nat := 0
  serial : Bytes := List.replicate 20 48
  deriving DecidableEq, Repr

/-- What the last read of a register, of the control window or of the sideband answered. -/
structure Out where
  reg : W32 := 0
  regs : List W32 := []
  deriving DecidableEq, Repr

/-- The GLM-256. -/
structure State where
  /-- microseconds since the model's start; an idle step is one microsecond (assumption 6) -/
  now : Nat := 0
  /-- the model's own: how many free values have been used (assumption 3) -/
  freeCtr : Nat := 0
  /-- the queue of waiting commands, first in first out -/
  pending : List Instr := []
  fuse : Fuse := {}
  nv : Nv := {}
  pw : Power := {}
  rst : Rst := {}
  host : HostIf := {}
  pol : Pol := {}
  progs : Tbl Prog := []
  /-- memory range sets, key polder × 65536 + identifier -/
  rsets : Tbl (Option RSet) := []
  jobs : Tbl (Option Job) := []
  nextJob : Nat := 1
  /-- void 64 KiB blocks of the SLM region (R105) -/
  void : List Nat := []
  cores : Tbl Core := []
  bpm : Bpm := {}
  isl : Island := {}
  cmpr : Cmpr := {}
  srch : Srch := {}
  flcs : Tbl Flc := []
  /-- granules in the pool of soft decoders, in arrival order: channel, read, position; the first eight are being decoded (R292) -/
  softPool : List (Nat × FDesc × Nat) := []
  ftla : Ftla := {}
  dram : Memory := []
  drc : Drc := {}
  memi : Memi := {}
  nrg : Nrg := {}
  time : Time := {}
  flt : Flt := {}
  sbd : Sbd := {}
  /-- page headers by frame -/
  hdrs : Tbl Hdr := []
  pmon : Pmon := {}
  clkLock : BitVec 40 := 0
  clkLoss : BitVec 40 := 0
  out : Out := {}
  deriving DecidableEq, Repr

/-- The module right after a cold power-on, before boot step 1: both supplies present, boot store slot 1 holds the
factory image of `Config.factoryImage` and the calibration area the set written at manufacture, every other field at its reset value. -/
def State.reset : State := { nv := { slot1 := Config.factoryImage, cal := Config.factoryCal } }

end Sys2Proof.Machine
end

