-- ==== Sys2Proof/Machine/Ops.lean ====
section
/-! DEFINITION. The named operations that the commands share: access to the parts of the state, page headers and their
error records and interrupts, fault reports, log 0xC1, asynchronous events, completions and freezing, dike breaches,
energy charges, free values, and the move of a job into ENDING. -/

namespace Sys2Proof.Machine

open Sys2Proof

/-- What a command answers. -/
abbrev Res := Host.Outcome State Fault Refusal

/-! ## Access to the parts -/

/-- Core `c`. -/
def core (s : State) (c : Nat) : Core := tget s.cores {} c
/-- Replaces core `c`. -/
def setCore (s : State) (c : Nat) (k : Core) : State := { s with cores := tset s.cores {} c k }
/-- Changes core `c`. -/
def modCore (s : State) (c : Nat) (f : Core → Core) : State := setCore s c (f (core s c))
/-- The record of polder `p`. -/
def polder (s : State) (p : Nat) : Polder := tget s.pol.tab {} p
/-- Changes the record of polder `p`. -/
def modPolder (s : State) (p : Nat) (f : Polder → Polder) : State :=
  { s with pol := { s.pol with tab := tmod s.pol.tab {} p f } }
/-- The controller of function `fn`: 0 port A PF, k VF k, 64 port B PF (CNTLID). -/
def ctrl (s : State) (fn : Nat) : Ctrl := tget s.host.ctrls {} fn
/-- Changes a controller. -/
def modCtrl (s : State) (fn : Nat) (f : Ctrl → Ctrl) : State :=
  { s with host := { s.host with ctrls := tmod s.host.ctrls {} fn f } }
/-- The key of queue `q` of function `fn`. -/
def qkey (fn q : Nat) : Nat := fn * 65536 + q
/-- A submission queue. -/
def sqOf (s : State) (fn q : Nat) : Option Sq := tget s.host.sqs none (qkey fn q)
/-- Sets or removes a submission queue. -/
def setSq (s : State) (fn q : Nat) (v : Option Sq) : State :=
  { s with host := { s.host with sqs := tset s.host.sqs none (qkey fn q) v } }
/-- A completion queue. -/
def cqOf (s : State) (fn q : Nat) : Option Cq := tget s.host.cqs none (qkey fn q)
/-- Sets or removes a completion queue. -/
def setCq (s : State) (fn q : Nat) (v : Option Cq) : State :=
  { s with host := { s.host with cqs := tset s.host.cqs none (qkey fn q) v } }
/-- Ring `r`, by absolute number. -/
def ring (s : State) (r : Nat) : Ring := tget s.bpm.rings {} r
/-- Replaces ring `r`. -/
def setRing (s : State) (r : Nat) (g : Ring) : State :=
  { s with bpm := { s.bpm with rings := tset s.bpm.rings {} r g } }
/-- Changes ring `r`. -/
def modRing (s : State) (r : Nat) (f : Ring → Ring) : State := setRing s r (f (ring s r))
/-- Channel `ch`. -/
def flc (s : State) (ch : Nat) : Flc := tget s.flcs {} ch
/-- Changes channel `ch`. -/
def modFlc (s : State) (ch : Nat) (f : Flc → Flc) : State := { s with flcs := tmod s.flcs {} ch f }
/-- Job `j`. -/
def job (s : State) (j : Nat) : Option Job := tget s.jobs none j
/-- Sets or removes job `j`. -/
def setJob (s : State) (j : Nat) (v : Option Job) : State := { s with jobs := tset s.jobs none j v }
/-- Changes job `j` where it exists. -/
def modJob (s : State) (j : Nat) (f : Job → Job) : State :=
  match job s j with
  | some v => setJob s j (some (f v))
  | none => s
/-- Changes the host side. -/
def modHost (s : State) (f : HostIf → HostIf) : State := { s with host := f s.host }
/-- Changes the security island. -/
def modIsl (s : State) (f : Island → Island) : State := { s with isl := f s.isl }
/-- Changes FTLA. -/
def modFtla (s : State) (f : Ftla → Ftla) : State := { s with ftla := f s.ftla }
/-- Changes NRG. -/
def modNrg (s : State) (f : Nrg → Nrg) : State := { s with nrg := f s.nrg }
/-- Changes RST, OPT and CAL. -/
def modRst (s : State) (f : Rst → Rst) : State := { s with rst := f s.rst }
/-- Changes the nonvolatile stores. -/
def modNv (s : State) (f : Nv → Nv) : State := { s with nv := f s.nv }
/-- Changes the sideband. -/
def modSbd (s : State) (f : Sbd → Sbd) : State := { s with sbd := f s.sbd }
/-- Changes BPM. -/
def modBpm (s : State) (f : Bpm → Bpm) : State := { s with bpm := f s.bpm }
/-- The account of polder `p`. -/
def acct (s : State) (p : Nat) : Acct := tget s.nrg.acct {} p
/-- Changes an account. -/
def modAcct (s : State) (p : Nat) (f : Acct → Acct) : State :=
  { s with nrg := { s.nrg with acct := tmod s.nrg.acct {} p f } }

/-- Takes a free value's number: no two takings in one run share one (assumption 3). -/
def takeFree (s : State) : Nat × State := (s.freeCtr, { s with freeCtr := s.freeCtr + 1 })

/-- The polder of a function: 0 for both PFs, k for VF k (R28, R56). -/
def fnPolder (fn : Nat) : Nat := if fn = 64 then 0 else fn

/-- Records what a register read answers. -/
def answer (s : State) (v : W32) : State := { s with out := { s.out with reg := v } }

/-! ## Register pages (chapter "Register page convention and index") -/

/-- Pages per instance, P of R426, by block code. -/
def pagesPer (b : Nat) : Nat :=
  match b with
  | 2 => 65
  | 3 => 2
  | 4 => 2
  | 9 => 2
  | _ => 1

/-- Instances of a block (R428). -/
def instances (b : Nat) : Nat :=
  match b with
  | 1 => 2
  | 3 => 32
  | 9 => 32
  | _ => 1

/-- The frame of page `i` of instance `j` of block `b` (R426). -/
def frameOf (b j i : Nat) : Nat := b * 128 + j * pagesPer b + i

/-- The page that a frame holds: block, instance, page index; none where the frame holds no page (R428). -/
def pageAt (f : Nat) : Option (Nat × Nat × Nat) :=
  let b := f / 128
  let r := f % 128
  if 1 ≤ b ∧ b ≤ 0x15 ∧ r < instances b * pagesPer b then some (b, r / pagesPer b, r % pagesPer b) else none

/-- The clock domain of a page (R428). -/
def domainOf (b j : Nat) : Nat :=
  match b with
  | 1 => 1 + j
  | 2 => 4
  | 3 => 3
  | 4 => 4
  | 5 => 4
  | 6 => 4
  | 7 => 4
  | 8 => 4
  | 9 => 6 + j
  | 0x0A => 3
  | 0x0B => 5
  | 0x11 => 40
  | 0x14 => 4
  | _ => 38

/-- Does a domain run: locked, and for domain 2 only in dual-port mode (R16, R20). -/
def domainRuns (s : State) (d : Nat) : Bool := s.clkLock.getLsbD (d - 1)

/-- The header of a page. -/
def hdr (s : State) (f : Nat) : Hdr := tget s.hdrs {} f
/-- Changes a header. -/
def modHdr (s : State) (f : Nat) (g : Hdr → Hdr) : State := { s with hdrs := tmod s.hdrs {} f g }

/-- Sets a bit of PG_INT_RAW. -/
def setRaw (s : State) (f n : Nat) : State := modHdr s f (fun h => { h with raw := h.raw ||| putB true n })

/-- An initiator's block code (R461). -/
def iniCode : Ini → Nat
  | .core _ => 3
  | .host _ => 1
  | .block b _ => b

/-- An initiator's instance (R461). -/
def iniInst : Ini → Nat
  | .core n => n
  | .host fn => fn
  | .block _ i => i

/-- The stamp of an initiator's requests (R13, R155, R438). -/
def iniStamp (s : State) : Ini → Nat
  | .core n => (core s n).polder
  | .host fn => fnPolder fn
  | .block _ _ => 0

/-- The page where an initiator's own errors are recorded (R430). -/
def iniPage : Ini → Nat
  | .core n => frameOf 3 n 0
  | .host _ => frameOf 1 0 0
  | .block b _ => frameOf b 0 0

/-- PG_ERR_INFO as laid out for code 0x01 (R432). -/
def iniInfo (ini : Ini) (off : Nat) : W32 :=
  put (iniCode ini) 31 24 ||| put (iniInst ini) 23 16 ||| put (off % 4096) 11 0

/-- Writes an error record to a page (R431). -/
def errRec (s : State) (f stamp code : Nat) (info : W32) : State :=
  modHdr s f (fun h =>
    { h with errValid := true, errStamp := BitVec.ofNat 6 stamp, errCode := BitVec.ofNat 8 code, errInfo := info,
             evt := satInc h.evt, raw := if h.errInt then h.raw ||| putB true 31 else h.raw })

/-- An error record that names the initiator, as code 0x01 does. -/
def errAt (s : State) (ini : Ini) (f code off : Nat) : State :=
  errRec s f (iniStamp s ini) code (iniInfo ini off)

/-- The lowest service core ID; core 0 before the boot names one (assumption 20). -/
def lowService (s : State) : Nat := s.rst.service.headD 0

/-- PG_CTRL.target of a page. -/
def hdrTarget (s : State) (h : Hdr) : Nat :=
  match h.target with
  | some t => t.toNat
  | none => lowService s

/-! ## Completions -/

/-- The DNR bit of a status (R456); Command Sequence Error and Command Interrupted where no rule says otherwise. -/
def statDnr : NStat → Bool
  | .success => false
  | .interrupted => false
  | .queueFrozen => false
  | .deferredEnergy => false
  | .abortedByRequest => false
  | .abortLimit => false
  | .writeProtected => false
  | _ => true

/-- Status code type and status code of a status, as SCT × 256 + SC, by the NVM Express specifications (PRESUMED, assumption 5); the
vendor codes are the spec's (R75, R78, R96, R116). -/
def statCode : NStat → Nat
  | .success => 0
  | .invalidOpcode => 1
  | .invalidField => 2
  | .internalError => 6
  | .abortedByRequest => 7
  | .abortedSq => 8
  | .invalidNs => 0x0B
  | .sequenceError => 0x0C
  | .writeProtected => 0x20
  | .interrupted => 0x21
  | .lbaRange => 0x80
  | .invalidCq => 0x100
  | .invalidQueue => 0x101
  | .invalidQueueSize => 0x102
  | .abortLimit => 0x103
  | .aerLimit => 0x105
  | .invalidFirmware => 0x107
  | .invalidVector => 0x108
  | .invalidLogPage => 0x109
  | .invalidFormat => 0x10A
  | .queueDeletion => 0x10C
  | .notSaveable => 0x10D
  | .notChangeable => 0x10E
  | .activationProhibited => 0x113
  | .insufficientCapacity => 0x115
  | .nsidUnavailable => 0x116
  | .alreadyAttached => 0x118
  | .notAttached => 0x11A
  | .controllerList => 0x11C
  | .invalidController => 0x11F
  | .secondaryState => 0x120
  | .invalidResources => 0x121
  | .unrecoveredRead => 0x281
  | .guardCheck => 0x282
  | .refCheck => 0x284
  | .compareFailure => 0x285
  | .accessDenied => 0x286
  | .unwritten => 0x287
  | .queueFrozen => 0x780
  | .deferredEnergy => 0x781
  | .tornDown => 0x782
  | .imageRejected => 0x783

/-- The status field of a completion entry: status code, status code type, and DNR in bit 14 (R456). -/
def statField (st : NStat) : Nat := statCode st + (if statDnr st then 16384 else 0)

/-- Puts a completion entry into its completion queue, or holds it while the queue is full. -/
def post (s : State) (k : Compl) : State :=
  match sqOf s k.fn k.sq with
  | none => s
  | some q =>
    match cqOf s k.fn q.cq with
    | none => s
    | some c =>
      setCq s k.fn q.cq (some (if c.posted.length + 1 < c.size ∧ c.held = [] then { c with posted := c.posted ++ [k] }
        else { c with held := c.held ++ [k] }))

/-- PMON counter `n` counts an event of a stamp (R440). -/
def pmonCount (s : State) (n stamp k : Nat) : State :=
  if s.pmon.filt = false ∨ s.pmon.polder.toNat = stamp then
    { s with pmon := { s.pmon with cnt := tmod s.pmon.cnt 0 n (fun v => v + BitVec.ofNat 72 k) } }
  else s

/-- A PMON counter as it stands: counter 11 counts the 1,250 engine-fabric cycles of each microsecond, whatever the filter (R440). -/
def pmonNow (s : State) (n : Nat) : BitVec 72 :=
  tget s.pmon.cnt 0 n + if n = 11 then BitVec.ofNat 72 (1250 * (s.now - s.pmon.cycT)) else 0

/-- Statuses whose completion does not freeze the queue (R77). -/
def freezes (st : NStat) (dnr : Bool) : Bool :=
  match st with
  | .success => false
  | .queueFrozen => false
  | .deferredEnergy => false
  | .abortedByRequest => false
  | .interrupted => dnr
  | _ => true

/-- Adds to an Error Information list of 256 entries, newest first. -/
def logError (s : State) (k : Compl) : State :=
  if k.stat = .success then s
  else modCtrl s k.fn (fun c => { c with errLog := ((k.sq, k.cid, k.stat) :: c.errLog).take 256 })

/-- The function and queue of a command are those given. -/
def cmdOn (c : Cmd) (fn sq : Nat) : Bool := c.fn == fn && c.sq == sq

/-- A job moves into ENDING with a result (none: no completion is posted): its cores stop, and its descriptors are cancelled (R103, R138,
R162, R194). -/
def endJob (s : State) (j : Nat) (r : Option (NStat × W32)) : State :=
  match job s j with
  | none => s
  | some v =>
    if v.st = .ending then s
    else
      let s := setJob s j (some { v with st := .ending, result := r })
      let s := modBpm s (fun b => { b with rings := b.rings.map (fun e =>
        if e.2.holder = .job j then (e.1, { e.2 with flight := e.2.flight.map (fun f => { f with cancelled := true }) }) else e) })
      v.cores.foldl (fun s c => modCore s c (fun k =>
        if k.st = .free ∨ k.st = .halted then k else { k with st := .stopping, wfe := none, stopT := some s.now })) s

/-- Removes an outstanding command with the flash reads that it waits for; the idle time of R89 starts again. -/
def dropCmd (s : State) (fn sq cid : Nat) : State :=
  modFtla (modHost s (fun h => { h with
    cmds := h.cmds.filter (fun c => !(cmdOn c fn sq && c.cid == cid)), idleSince := s.now })) (fun f =>
    { f with reads := f.reads.filter (fun q => match q.who with
      | .cmd a b i _ => !(a == fn && b == sq && i == cid)
      | _ => true) })

/-- A job fetched after the command that froze its queue ends with 0x80 (R78), also one in ENDING whose completion is not committed;
a completion that an Abort has decided stays (R86). -/
def freezeJob (s : State) (j : Nat) (dw0 : W32) : State :=
  modJob (endJob s j (some (.queueFrozen, dw0))) j (fun v =>
    if v.result.isSome && v.aborted.isNone then { v with result := some (.queueFrozen, dw0) } else v)

/-- Ends with 0x80 what a frozen queue had fetched after the failing command (R78). -/
def freezeRest (s : State) (fn sq ord : Nat) (cid : Nat) : State :=
  let dw0 := put sq 15 0 ||| put cid 31 16
  let late := s.host.cmds.filter (fun c => cmdOn c fn sq && decide (ord < c.ord))
  late.foldl (fun s c =>
    match c.op with
    | .exec j => freezeJob s j dw0
    | _ =>
      post (dropCmd s fn sq c.cid) { fn := fn, sq := sq, cid := c.cid, stat := .queueFrozen, dw0 := dw0 }) s

/-- The order of a command of a queue: that of the outstanding command, else the newest. -/
def ordOf (s : State) (fn sq cid : Nat) : Nat :=
  match s.host.cmds.find? (fun c => cmdOn c fn sq && c.cid == cid) with
  | some c => c.ord
  | none => s.host.ord

/-- Commits a completion once: error log, counters, freezing (R77, R78, R86, R456). -/
def commit (s : State) (k : Compl) : State :=
  let ord := ordOf s k.fn k.sq k.cid
  let s := dropCmd s k.fn k.sq k.cid
  let s := logError (post s k) k
  if k.sq = 0 then s
  else
    let s := modHost (pmonCount s 0 (fnPolder k.fn) 1) (fun h => { h with lastIo := some s.now })
    match sqOf s k.fn k.sq with
    | none => s
    | some q =>
      if freezes k.stat k.dnr && (q.compute || (ctrl s k.fn).freeze) && q.frozen.isNone then
        freezeRest (setSq s k.fn k.sq (some { q with frozen := some (k.sq, k.cid) })) k.fn k.sq ord k.cid
      else s

/-- Completes a command with a status and its usual DNR. -/
def complete (s : State) (fn sq cid : Nat) (st : NStat) (dw0 : W32 := 0) (dw1 : W32 := 0) (data : Bytes := []) : State :=
  commit s { fn := fn, sq := sq, cid := cid, stat := st, dnr := statDnr st, dw0 := dw0, dw1 := dw1, data := data }

/-- Completes a command with a status and the DNR bit given. -/
def completeDnr (s : State) (fn sq cid : Nat) (st : NStat) (dnr : Bool) (dw0 : W32 := 0) : State :=
  commit s { fn := fn, sq := sq, cid := cid, stat := st, dnr := dnr, dw0 := dw0 }

/-! ## Asynchronous events -/

/-- CDW0 of the completion of an Asynchronous Event Request. -/
def aenDw0 (e : Aen) : W32 := put e.typ 2 0 ||| put e.info 15 8 ||| put e.log 23 16

/-- Gives an event to a controller: it completes a waiting request, or waits for one. -/
def deliver (s : State) (fn : Nat) (e : Aen) : State :=
  match (ctrl s fn).aers with
  | cid :: r => post (modCtrl s fn (fun c => { c with aers := r })) { fn := fn, sq := 0, cid := cid, dw0 := aenDw0 e }
  | [] => modCtrl s fn (fun c => { c with events := c.events ++ [e] })

/-- The log page of a vendor event (R76). -/
def vendorLog (info : Nat) : Nat := match info with
  | 2 => 0xC1
  | 3 => 0xC2
  | _ => 0xC4

/-- Posts a vendor event to the port A PF unless one of its code is outstanding (R76). -/
def postVendor (s : State) (info : Nat) : State :=
  if s.host.evOut.getLsbD info then s
  else deliver (modHost s (fun h => { h with evOut := h.evOut ||| BitVec.ofNat 4 (2 ^ info) })) 0
    { typ := 7, info := info, log := vendorLog info }

/-! ## Fault reports and log page 0xC1 -/

/-- The calendar value that a record takes (R379). -/
def calNow (s : State) : Nat := s.time.cal

/-- Adds an entry to log page 0xC1, sets FLT's interrupt source and posts event 0x02 (R70, R410, R458). -/
def logFault (s : State) (kind cls inst blk binst cause count extra t : Nat) : State :=
  let e : FEnt := { seq := s.nv.faultSeq + 1, t := t, kind := kind, cls := cls, inst := inst, blk := blk, binst := binst,
                    cause := cause, count := count, extra := extra }
  let s := modNv s (fun v => { v with faultSeq := v.faultSeq + 1, faults := (e :: v.faults).take 255 })
  postVendor (setRaw s (frameOf 0x10 0 0) 0) 2

/-- An entry of kinds 1 to 3, written directly by RST or MEMI (R458). -/
def logDirect (s : State) (kind cls inst blk count extra : Nat) : State :=
  logFault s kind cls inst blk 0 0 count extra (calNow s)

/-- Does the first tag cover the second (R408)? -/
def covers (c1 i1 c2 i2 : Nat) : Bool :=
  if c1 = 1 then
    match i1 with
    | 0 => !(c2 == 1 && (i2 == 1 || i2 == 0))
    | 1 => c2 == 2 && decide (38 ≤ i2) && decide (i2 ≤ 40)
    | 3 => (c2 == 2 && (i2 == 3 || i2 == 4)) || c2 == 6 || c2 == 8 || c2 == 9
    | 4 => c2 == 3 || c2 == 4
    | 5 => c2 == 3 || c2 == 4
    | 6 => (c2 == 2 && i2 == 5) || c2 == 5
    | 7 => c2 == 2 && (i2 == 1 || i2 == 2)
    | _ => false
  else if c1 = 2 then
    if 6 ≤ i1 ∧ i1 ≤ 37 then (c2 == 3 && i2 == i1 - 6) || (c2 == 4 && i2 / 16 == i1 - 6)
    else if i1 = 3 then c2 == 8
    else if i1 = 4 then c2 == 9
    else if i1 = 5 then c2 == 5
    else false
  else if c1 = 3 then c2 == 4 && i2 / 16 == i1
  else false

/-- Is a report of a tag absorbed by a latched tag (R409)? -/
def absorbs (l : Nat × Nat × Nat) (cls inst : Nat) : Bool :=
  (l.1 == cls && l.2.1 == inst) || covers l.1 l.2.1 cls inst

/-- A report to FLT: absorbed by latched tags, or joined to the window, which it opens if none is open (R408, R409). -/
def report (s : State) (cls inst blk binst cause action : Nat) : State :=
  if s.flt.latched.any (fun l => absorbs l cls inst) then
    { s with flt := { s.flt with
        abs := satInc s.flt.abs,
        latched := s.flt.latched.map (fun l => if absorbs l cls inst then (l.1, l.2.1, s.now) else l) } }
  else
    let r : FRep := { cls := cls, inst := inst, blk := blk, binst := binst, cause := cause, action := action }
    match s.flt.window with
    | some (t, rs) => { s with flt := { s.flt with window := some (t, rs ++ [(r, calNow s)]) } }
    | none => { s with flt := { s.flt with window := some (s.now, [(r, calNow s)]) } }

/-! ## Dike breaches -/

/-- A dike breach (R40-R44, R461): counted and recorded, with the interrupt and the event of the armed FIFO; nothing for
a polder in TEARDOWN (R41). -/
def breach (s : State) (stamp owner blk inst : Nat) (write : Bool) (index : Nat) (ini : Ini) : State :=
  if (polder s stamp).st = .teardown then s
  else
    let s := modPolder s stamp (fun p => { p with breaches := satInc p.breaches })
    let s := pmonCount s 10 stamp 1
    if 256 ≤ s.pol.fifo.length then { s with pol := { s.pol with lost := satInc s.pol.lost } }
    else
      let r : Breach := { w0 := put stamp 31 26 ||| put owner 25 20 ||| put blk 19 12 ||| put inst 11 4 ||| putB write 3 ||| 1,
                          w1 := BitVec.ofNat 32 index,
                          w2 := put (iniCode ini) 31 24 ||| put (iniInst ini) 23 16,
                          w3 := BitVec.ofNat 32 s.now }
      let fire := s.pol.armed && s.pol.fifo.isEmpty
      let s := { s with pol := { s.pol with fifo := s.pol.fifo ++ [r], armed := s.pol.armed && !fire } }
      if fire then
        let s := setRaw s (frameOf 2 0 0) 0
        if s.pol.aen then postVendor s 0 else s
      else s

/-! ## Energy -/

/-- `n` records from byte `o`, none past `fin`: type, first byte, value. -/
def recsFrom (b : Bytes) (o fin : Nat) : Nat → Option (List (Nat × Nat × Bytes))
  | 0 => some []
  | n + 1 =>
    let len := leAt b (o + 2) 2
    let nx := o + 4 + roundUp len 4
    if fin < nx then none else (recsFrom b nx fin n).map (fun r => (leAt b o 2, o, span b (o + 4) len) :: r)

/-- The value of the first record of a type. -/
def recVal (rs : List (Nat × Nat × Bytes)) (t : Nat) : Option Bytes := (rs.find? (fun r => r.1 == t)).map (fun r => r.2.2)

/-- The records of a calibration set. -/
def calRecs (b : Bytes) : Option (List (Nat × Nat × Bytes)) := recsFrom b 64 (leAt b 8 4 - 4) (leAt b 12 4)

/-- A 4-byte value of the set in force; the built-in value where the set holds none (R384). -/
def calNum (s : State) (t o dflt : Nat) : Nat :=
  match (calRecs s.nrg.calCoef).bind (fun rs => recVal rs t) with
  | some v => leAt v o 4
  | none => dflt

/-- The energy of an event by the calibration set in force, fJ (R361): the entry of record type 3 for a block and an event, else the
factory value. The spec numbers no events: the model takes them in the order of the coefficient table, from 0 in each block
(DESIGN CHOICE, assumption 67). -/
def coef (s : State) (blk ev dflt : Nat) : Nat :=
  match (calRecs s.nrg.calCoef).bind (fun rs => recVal rs 3) with
  | none => dflt
  | some v =>
    match (List.range (v.length / 8)).find? (fun i => leAt v (8 * i) 1 == blk && leAt v (8 * i + 1) 1 == ev) with
    | some i => leAt v (8 * i + 4) 4
    | none => dflt

/-- A granule sensed, by mode. -/
def senseFj (s : State) (mode : Nat) : Nat := if mode = 1 then coef s 9 1 360000000 else coef s 9 0 832000000
/-- A granule transferred on the channel and hard-decoded. -/
def xferFj (s : State) : Nat := coef s 9 2 416000000 + coef s 9 3 160000000
/-- A granule soft-decoded. -/
def softFj (s : State) : Nat := coef s 9 4 2400000000
/-- A granule programmed, transfer included, by mode. -/
def progFj (s : State) (mode : Nat) : Nat := if mode = 1 then coef s 9 6 1200000000 else coef s 9 5 7400000000
/-- A block erased on one plane. -/
def eraseFj (s : State) : Nat := coef s 9 7 180000000000
/-- The cipher's AES blocks over `n` bytes. -/
def aesFj (s : State) (n : Nat) : Nat := (n + 15) / 16 * coef s 5 0 500000
/-- A digest compression. -/
def comprFnFj (s : State) : Nat := coef s 6 0 3000000
/-- Compressor input of `n` bytes. -/
def comprFj (s : State) (n : Nat) : Nat := (n + 4095) / 4096 * coef s 7 0 400000000
/-- Decompressor output of `n` bytes. -/
def decompFj (s : State) (n : Nat) : Nat := (n + 4095) / 4096 * coef s 7 1 200000000
/-- A lookup that compares `n` rows (R270). -/
def lookupFj (s : State) (n : Nat) : Nat := coef s 8 0 4000 + n * coef s 8 1 3200
/-- SRCH entry work (R270), per entry. -/
def entryFj (s : State) : Nat := coef s 8 2 2000
/-- `n` core cycles with a context RUNNING. -/
def coreFj (s : State) (n : Nat) : Nat := n * coef s 3 0 195000
/-- DRAM accesses to `n` bytes. -/
def dramFj (s : State) (n : Nat) : Nat := (n + 63) / 64 * coef s 0x0B 0 1500000
/-- Counts the DRAM accesses of a stamp to `n` bytes (R440). -/
def dramCount (s : State) (p n : Nat) : State := pmonCount s 9 p ((n + 63) / 64)
/-- `n` bytes over the host link. -/
def hostLinkFj (s : State) (n : Nat) : Nat := (n + 4095) / 4096 * coef s 1 0 96000000
/-- The media cipher over one block: 256 AES blocks. -/
def mediaFj (s : State) : Nat := aesFj s 4096


/-- Charges energy in fJ to a polder's own balance; `host` for work of classes 1 and 2 (R361, R364, R365). -/
def charge (s : State) (p fj : Nat) (host : Bool := false) : State :=
  modAcct s p (fun a => { a with pend := a.pend + fj, est := a.est + fj, est12 := if host then a.est12 + fj else a.est12 })

/-- Charges energy to the job that caused it, else to the polder (R365). -/
def chargeJob (s : State) (p : Nat) (j : Option Nat) (fj : Nat) : State :=
  match j with
  | none => charge s p fj
  | some i =>
    match job s i with
    | none => charge s p fj
    | some _ =>
      modAcct (modJob s i (fun v => { v with pend := v.pend + fj })) p (fun a => { a with est := a.est + fj })

/-- Charges energy to polder 0's service account (R364). -/
def chargeSvc (s : State) (fj : Nat) : State :=
  modAcct (modNrg s (fun n => { n with svcPend := n.svcPend + fj })) 0
    (fun a => { a with est := a.est + fj, est12 := a.est12 + fj })

/-! ## Resource ranges of a polder -/

/-- Tenant cores granted to a polder. -/
def ownsCore (p : Polder) (c : Nat) : Bool := p.own.cores.getLsbD c
/-- First ring and number of rings granted. -/
def ringFirst (p : Polder) : Nat := fld p.own.rings 7 0
/-- Number of rings granted. -/
def ringCount (p : Polder) : Nat := fld p.own.rings 23 16
/-- First cipher key slot granted. -/
def keyFirst (p : Polder) : Nat := fld p.own.keys 7 0
/-- Number of cipher key slots granted. -/
def keyCount (p : Polder) : Nat := fld p.own.keys 24 16
/-- First HMAC slot granted. -/
def hmacFirst (p : Polder) : Nat := fld p.own.hmac 5 0
/-- Number of HMAC slots granted. -/
def hmacCount (p : Polder) : Nat := fld p.own.hmac 22 16
/-- First search entry granted. -/
def srchFirst (p : Polder) : Nat := fld p.own.srch 7 0 * 256
/-- Number of search entries granted. -/
def srchCount (p : Polder) : Nat := fld p.own.srch 24 16 * 256
/-- SLM range: first byte counted from the start of the SLM region. -/
def slmFirst (p : Polder) : Nat := fld p.own.slm 12 0 * 1048576
/-- SLM range: bytes. -/
def slmSize (p : Polder) : Nat := fld p.own.slm 28 16 * 1048576
/-- Image range: first byte counted from the start of the images region. -/
def imgFirst (p : Polder) : Nat := fld p.own.img 11 0 * 1048576
/-- Image range: bytes. -/
def imgSize (p : Polder) : Nat := fld p.own.img 27 16 * 1048576

/-- The polder that owns something of number `n`, by a test on each record: the first non-EMPTY polder 1 to 63 that
passes, else polder 0 (R31). -/
def ownerBy (s : State) (f : Polder → Bool) : Nat :=
  match s.pol.tab.find? (fun e => e.1 != 0 && decide (e.2.st ≠ .empty) && f e.2) with
  | some e => e.1
  | none => 0

/-- The owner of an absolute ring. -/
def ringOwner (s : State) (r : Nat) : Nat :=
  ownerBy s (fun p => decide (ringFirst p ≤ r) && decide (r < ringFirst p + ringCount p))
/-- The owner of a cipher key slot. -/
def keyOwner (s : State) (k : Nat) : Nat :=
  ownerBy s (fun p => decide (keyFirst p ≤ k) && decide (k < keyFirst p + keyCount p))
/-- The owner of an HMAC slot. -/
def hmacOwner (s : State) (k : Nat) : Nat :=
  ownerBy s (fun p => decide (hmacFirst p ≤ k) && decide (k < hmacFirst p + hmacCount p))
/-- The owner of a search entry. -/
def srchOwner (s : State) (e : Nat) : Nat :=
  ownerBy s (fun p => decide (srchFirst p ≤ e) && decide (e < srchFirst p + srchCount p))

/-- Byte offset of the SLM region in DRAM (R150): 20 GiB. -/
def slmBase : Nat := 21474836480
/-- Byte offset of the program images and firmware data region (R150): 26 GiB. -/
def imgBase : Nat := 27917287424
/-- Byte offset of protected staging in DRAM (R150): 16 GiB. -/
def stagingBase : Nat := 17179869184
/-- Bytes of the DRAM window: 28 GiB. -/
def dramSize : Nat := 30064771072

/-- The owner of a byte of DRAM at the DRC dike (R150, R151). -/
def dramOwner (s : State) (a : Nat) : Nat :=
  if slmBase ≤ a ∧ a < imgBase then
    ownerBy s (fun p => decide (slmBase + slmFirst p ≤ a) && decide (a < slmBase + slmFirst p + slmSize p))
  else if imgBase ≤ a then
    ownerBy s (fun p => decide (imgBase + imgFirst p ≤ a) && decide (a < imgBase + imgFirst p + imgSize p))
  else 0

/-! ## Memory integrity (R341, R346, R356) -/

/-- The key of a memory line in MEMI's tables. -/
def lineKey (inst line : Nat) : Nat := inst * 4294967296 + line
/-- What is wrong with a line: 0 nothing, 1 poisoned, 2 uncorrectable, 3 one codeword of it has been uncorrectable. -/
def lineState (s : State) (inst line : Nat) : Nat := tget s.memi.bad 0 (lineKey inst line)
/-- Does a line of a memory instance read as poison? -/
def lineBad (s : State) (inst line : Nat) : Bool := lineState s inst line == 1 || lineState s inst line == 2
/-- Changes MEMI. -/
def modMemi (s : State) (f : Memi → Memi) : State := { s with memi := f s.memi }
/-- Sets what is wrong with a line. -/
def setLine (s : State) (inst line v : Nat) : State :=
  modMemi s (fun m => { m with bad := tset m.bad 0 (lineKey inst line) v })
/-- The local data memory of a core is zeroed: nothing in it is wrong any more. -/
def clearLdm (s : State) (c : Nat) : State :=
  modMemi s (fun m => { m with
    bad := tdrop m.bad (fun k _ => decide (k / 4294967296 = c)), flips := tdrop m.flips (fun k _ => decide (k / 4294967296 = c)) })
/-- The memory instance of a DRAM data offset: 162 + channel (R338, R351). -/
def dramInst (x : Nat) : Nat := 162 + x % 14336 / 1792
/-- Does the 64-byte block of a DRAM data offset read as poison? -/
def dramBad (s : State) (x : Nat) : Bool := lineBad s (dramInst x) (x / 64)
/-- The memory instance of a byte of the shared buffer SRAM: bank 0 to 15. -/
def sramInst (o : Nat) : Nat := 96 + o / 3145728
/-- The line of a byte of the shared buffer SRAM in its bank. -/
def sramLine (o : Nat) : Nat := o % 3145728 / 64

/-- An uncorrectable or poisoned read by a reader of a class (MEMI_UE_W0): counted and recorded; reported to FLT unless it is
the poison of R341. A DRAM device that the codes do not name is free (assumption 3). -/
def ueRead (s : State) (inst line reader stamp : Nat) : State :=
  let w0 := put inst 31 24 ||| put reader 23 20 ||| put stamp 19 14 ||| 1
  let s := modMemi s (fun m => { m with
    insts := tmod m.insts {} inst (fun v => { v with ue := satInc v.ue }),
    ueW0 := w0, ueW1 := BitVec.ofNat 32 line, ueW2 := BitVec.ofNat 32 s.now })
  if lineState s inst line = 1 then s
  else
    let cause := (hdr s (frameOf 0x0C 0 0)).errCode.toNat
    if 162 ≤ inst then
      let (n, s) := takeFree s
      report s 5 ((inst - 162) % 4 + 4 * (Config.freeNat n % 2)) 0x0C 0 cause 0
    else report s 6 inst 0x0C 0 cause 0

/-- The 64-byte blocks wholly inside `n` bytes from `o`. -/
def wholeBlocks (o n : Nat) : List Nat :=
  let a := (o + 63) / 64
  (List.range ((o + n) / 64 - a)).map (fun i => a + i)

/-- The 64-byte blocks that `n` bytes from `o` touch. -/
def touchBlocks (o n : Nat) : List Nat :=
  if n = 0 then [] else (List.range ((o + n - 1) / 64 + 1 - o / 64)).map (fun i => o / 64 + i)

/-- A write of a whole block clears what was wrong with it (R341). -/
def clearLines (s : State) (inst : Nat → Nat) (line : Nat → Nat) (blks : List Nat) : State :=
  if s.memi.bad.isEmpty ∧ s.memi.flips.isEmpty then s
  else modMemi s (fun m => blks.foldl (fun m b =>
    let i := inst (64 * b)
    let l := line (64 * b)
    let hit := fun (k : Nat) (_ : Nat) => decide (k / 4294967296 = i) && decide (k % 4294967296 / (if i < 162 then 8 else 1) = l)
    { m with bad := tset m.bad 0 (lineKey i l) 0, flips := tdrop m.flips hit }) m)

/-- A block joins its channel's write queue, which drains at 48 entries ("Order of requests"). -/
def drcQueue (q : List Nat) (b : Nat) : List Nat :=
  if q.contains b then q
  else
    let ch := fun (x : Nat) => dramInst (64 * x)
    let q := q ++ [b]
    if 48 ≤ (q.filter (fun x => ch x == ch b)).length then q.filter (fun x => ch x != ch b) else q

/-- A write to DRAM at a data offset. -/
def dramWrite (s : State) (x : Nat) (bs : Bytes) : State :=
  let s := clearLines s dramInst (fun o => o / 64) (wholeBlocks x bs.length)
  { s with dram := writeBytes s.dram x bs, drc := { s.drc with wq := (touchBlocks x bs.length).foldl drcQueue s.drc.wq } }

/-- A DRAM read is answered from a queued write of its block where one still waits, which the spec leaves to timing: a free
choice (R346, assumption 3). -/
def dramRead (s : State) (x n : Nat) : State :=
  let hit := ((touchBlocks x n).filter (fun b => s.drc.wq.contains b)).length
  if hit = 0 then s
  else
    let (i, s) := takeFree s
    let k := Config.freeNat i % (hit + 1)
    { s with drc := { s.drc with fwd := BitVec.ofNat 32 (satN 32 (s.drc.fwd.toNat + k)) } }

/-- A write to the shared buffer SRAM at a byte offset. -/
def sramWrite (s : State) (o : Nat) (bs : Bytes) : State :=
  let s := clearLines s sramInst sramLine (wholeBlocks o bs.length)
  { s with bpm := { s.bpm with sram := writeBytes s.bpm.sram o bs } }

/-- Does a span of DRAM reach into self-refresh segments 1 to 3 (R338)? -/
def inDropped (x n : Nat) : Bool := decide (x < 15032385536) && decide (3758096384 < x + n)

/-- `n` bytes of DRAM from a data offset; segments 1 to 3 hold undefined data from the exit from PS4 or PS5 until they are
initialised (R349): free bytes (assumption 3). -/
def dramBytes (s : State) (x n : Nat) : Bytes :=
  if s.drc.init && inDropped x n then (List.range n).map (fun i => byteAt (Config.freeBytes s.freeCtr) i) else readBytes s.dram x n

/-- Bytes of a polder's memory namespace: POL_SLM; for polder 0, which owns what no other polder does, the SLM region. -/
def memSize (s : State) (p : Nat) : Nat := if p = 0 then 6442450944 else slmSize (polder s p)

/-- Do two spans (first, length) share an element? -/
def spansMeet (a b : Nat × Nat) : Bool := decide (a.1 < b.1 + b.2) && decide (b.1 < a.1 + a.2) && a.2 != 0 && b.2 != 0

/-- Does a byte span of a memory namespace touch a range that a job of the polder holds (R106)? -/
def rangeHeld (s : State) (p o n : Nat) : Bool := s.jobs.any (fun e => match e.2 with
  | some v => v.polder == p && v.ranges.any (fun r => spansMeet r (o, n))
  | none => false)

/-! ## SLM contents -/

/-- Is the 64 KiB block that holds an SLM byte void (R105)? The offset counts from the start of the SLM region. -/
def isVoid (s : State) (o : Nat) : Bool := s.void.contains (o / 65536)

/-- Marks blocks void. -/
def markVoid (s : State) (bs : List Nat) : State := { s with void := s.void ++ bs.filter (fun b => !s.void.contains b) }

/-- A byte of SLM: zero in a void block (R105). -/
def slmByte (s : State) (o : Nat) : Byte := if isVoid s o then 0 else readByte s.dram (slmBase + o)

/-- `n` bytes of SLM from an offset. -/
def slmBytes (s : State) (o n : Nat) : Bytes := (List.range n).map (fun i => slmByte s (o + i))

/-- A write into SLM: a void block it touches is zeroed first, so that the rest of it reads as zero (R105). -/
def slmWrite (s : State) (o : Nat) (bs : Bytes) : State :=
  let blks := (List.range ((o + bs.length + 65535) / 65536 - o / 65536)).map (fun i => o / 65536 + i)
  let hit := if bs.isEmpty then [] else blks.filter (fun b => s.void.contains b)
  let m := hit.foldl (fun m b => zeroBytes m (slmBase + b * 65536) 65536) s.dram
  dramWrite { s with void := s.void.filter (fun b => !hit.contains b), dram := m } (slmBase + o) bs

/-- The 64 KiB blocks that a span of SLM touches. -/
def slmBlocks (o n : Nat) : List Nat :=
  if n = 0 then [] else (List.range ((o + n - 1) / 65536 + 1 - o / 65536)).map (fun i => o / 65536 + i)

/-- A write of a job into SLM: the blocks join the job's list and record the quarantines open (R105, R219). -/
def jobSlmWrite (s : State) (j : Option Nat) (o : Nat) (bs : Bytes) : State :=
  let s := slmWrite s o bs
  match j with
  | none => s
  | some i =>
    let blks := slmBlocks o bs.length
    let s := modJob s i (fun v => { v with wrote := v.wrote ++ blks.filter (fun b => !v.wrote.contains b) })
    let qs := (s.isl.quars.filter (fun q => q.2 == some i)).map Prod.fst
    if qs.isEmpty then s
    else modIsl s (fun l => { l with fence := blks.foldl (fun f b =>
      tmod f [] b (fun old => old ++ qs.filter (fun q => !old.contains q))) l.fence })

end Sys2Proof.Machine
end

