-- ==== Sys2Proof/Machine/Operands.lean ====
section
/-! DEFINITION. The operand forms of Adral-2 instructions: registers, immediates, nonets, word fields. -/

namespace Sys2Proof.Machine

open Sys2Proof

/-- A register as a source: w0 reads as zero (R118). -/
def rget (k : Core) (r : BitVec 5) : W36 := if r = 0 then 0 else tget k.regs 0 r.toNat

/-- A register as a destination: a write to w0 is discarded (R118). -/
def rset (k : Core) (r : BitVec 5) (v : W36) : Core :=
  if r = 0 then k else { k with regs := tset k.regs 0 r.toNat v }

/-- imm18, off18 sign-extended (R126). -/
def sext18 (i : BitVec 18) : W36 := i.signExtend 36
/-- imm18 zero-extended (R126). -/
def zext18 (i : BitVec 18) : W36 := i.setWidth 36
/-- off13 sign-extended (R132). -/
def sext13 (i : BitVec 13) : W36 := i.signExtend 36
/-- off23 sign-extended (R127). -/
def sext23 (i : BitVec 23) : W36 := i.signExtend 36
/-- imm7 sign-extended (R126). -/
def sext7 (i : BitVec 7) : W36 := i.signExtend 36

/-- The mask of the data bytes, 0o037_777_777_777 (R120). -/
def dataMask : W36 := 0xFFFFFFFF#36
/-- The mask of the tags, 0o740_000_000_000 (R120). -/
def tagMask : W36 := 0xF00000000#36

/-- Byte n of a word (R117). -/
def byteN (w : W36) (n : Nat) : Byte := (w >>> (8 * n)).setWidth 8
/-- The four tags (R117). -/
def tags (w : W36) : BitVec 4 := (w >>> 32).setWidth 4
/-- Tag of byte n. -/
def tagN (w : W36) (n : Nat) : Bool := w.getLsbD (32 + n)
/-- A word of four tags and 32 data bits. -/
def mkWord (t : BitVec 4) (d : W32) : W36 := t ++ d
/-- The data bits of a word. -/
def dataOf (w : W36) : W32 := w.setWidth 32
/-- Four bytes, lane 0 first, as data bits. -/
def bytes4 (b0 b1 b2 b3 : Byte) : W32 := b3 ++ b2 ++ b1 ++ b0
/-- Four tags, lane 0 first. -/
def tags4 (t0 t1 t2 t3 : Bool) : BitVec 4 := BitVec.ofNat 4 (b2n t0 + 2 * b2n t1 + 4 * b2n t2 + 8 * b2n t3)
/-- A word from four nonets given as functions of the lane. -/
def ofLanes (b : Nat → Byte) (t : Nat → Bool) : W36 :=
  mkWord (tags4 (t 0) (t 1) (t 2) (t 3)) (bytes4 (b 0) (b 1) (b 2) (b 3))
/-- Number of tags set. -/
def tagCount (w : W36) : Nat := b2n (tagN w 0) + b2n (tagN w 1) + b2n (tagN w 2) + b2n (tagN w 3)
/-- Replaces byte n of 32 data bits. -/
def setByte (d : W32) (n : Nat) (b : Byte) : W32 :=
  bytes4 (if n = 0 then b else d.setWidth 8) (if n = 1 then b else (d >>> 8).setWidth 8)
    (if n = 2 then b else (d >>> 16).setWidth 8) (if n = 3 then b else (d >>> 24).setWidth 8)

end Sys2Proof.Machine
end

