-- ==== Sys2Proof/Machine/Flags.lean ====
section
/-! DEFINITION. The flags c, v, t, m (R118) and the arithmetic that sets them. -/

namespace Sys2Proof.Machine

open Sys2Proof

/-- Flag c. -/
def flagC (f : BitVec 4) : Bool := f.getLsbD 0
/-- Flag v. -/
def flagV (f : BitVec 4) : Bool := f.getLsbD 1
/-- Flag t. -/
def flagT (f : BitVec 4) : Bool := f.getLsbD 2
/-- Flag m. -/
def flagM (f : BitVec 4) : Bool := f.getLsbD 3
/-- The flags from their four bits. -/
def mkFlags (c v t m : Bool) : BitVec 4 := BitVec.ofNat 4 (b2n c + 2 * b2n v + 4 * b2n t + 8 * b2n m)
/-- Replaces c and v. -/
def setCV (f : BitVec 4) (c v : Bool) : BitVec 4 := mkFlags c v (flagT f) (flagM f)
/-- Replaces t. -/
def setT (f : BitVec 4) (t : Bool) : BitVec 4 := mkFlags (flagC f) (flagV f) t (flagM f)
/-- Replaces t and m. -/
def setTM (f : BitVec 4) (t m : Bool) : BitVec 4 := mkFlags (flagC f) (flagV f) t m

/-- Does an exact signed result differ from its 36-bit value? -/
def ovf36 (x : Int) : Bool := decide (x < -(2 ^ 35)) || decide (2 ^ 35 ≤ x)

/-- a + b + carry in, with c the carry out and v the signed overflow (R118, R128). -/
def addC (a b : W36) (cin : Nat) (f : BitVec 4) : W36 × BitVec 4 :=
  let n := a.toNat + b.toNat + cin
  (BitVec.ofNat 36 n, setCV f (decide (2 ^ 36 ≤ n)) (ovf36 (a.toInt + b.toInt + cin)))

/-- a − b − borrow in, with c the borrow and v the signed overflow (R118, R128). -/
def subB (a b : W36) (bin : Nat) (f : BitVec 4) : W36 × BitVec 4 :=
  (a - b - BitVec.ofNat 36 bin, setCV f (decide (a.toNat < b.toNat + bin)) (ovf36 (a.toInt - b.toInt - bin)))

/-- A flag condition of BF: 0 c, 1 not c, 2 v, 3 not v, 4 t, 5 not t, 6 m, 7 not m (R127). -/
def flagCond (f : BitVec 4) (n : Nat) : Bool :=
  match n with
  | 0 => flagC f
  | 1 => !flagC f
  | 2 => flagV f
  | 3 => !flagV f
  | 4 => flagT f
  | 5 => !flagT f
  | 6 => flagM f
  | _ => !flagM f

end Sys2Proof.Machine
end

