-- ==== Sys2Proof/Machine/CoreStep.lean ====
section
/-! DEFINITION. What is common to every instruction word of an Adral-2 core: the fetch check, traps (R157-R161), the
counters that its retirement advances (R166), and the image window. -/

namespace Sys2Proof.Machine

open Sys2Proof

/-- A trap: cause, info, slot, the value for UTVAL (R156, R157), and the events that count although the word traps: a dike breach. -/
structure Trap where
  cause : Nat
  info : Nat := 0
  slot : Nat := 0
  val : W36 := 0
  evs : List Nat := []
  deriving DecidableEq, Repr

/-- How a word ends: it retires, with the counter events that happened and the address of its memory access; or it traps (the
state then holds only what stands in spite of the trap: a counted breach, a spent free value); or it stalls at a doorbell while its
job is HELD ("Job states"), with what it has issued until then. `parts` retires a word whose slots count apart: events, slot, data
address of each part. -/
inductive Ran where
  | ok (s : State) (evs : List Nat) (addr : Option Nat)
  | parts (s : State) (parts : List (List Nat × Nat × Option Nat))
  | trap (t : Trap) (s : State)
  | held (s : State)

/-- The illegal-instruction trap (R126). -/
def illegal (s : State) : Ran := .trap { cause := 1 } s

/-! ## Regions of the address map (R148) -/

/-- The regions of the word address space. -/
inductive Region where
  | ldm | sram | image | control | dram | hole
  deriving DecidableEq, Repr

/-- First word of the image window. -/
def imageWin : Nat := 0x80000000
/-- First word of the control window. -/
def controlWin : Nat := 0x100000000
/-- First word of the DRAM window. -/
def dramWin : Nat := 0x200000000
/-- First word of the shared buffer SRAM. -/
def sramWin : Nat := 0x1000000

/-- The region of a word address. -/
def regionOf (a : Nat) : Region :=
  if a < 131072 then .ldm
  else if sramWin ≤ a ∧ a < sramWin + 12582912 then .sram
  else if imageWin ≤ a ∧ a < imageWin + 33554432 then .image
  else if controlWin ≤ a ∧ a < controlWin + 4194304 then .control
  else if dramWin ≤ a ∧ a < dramWin + 7516192768 then .dram
  else .hole

/-! ## Images -/

/-- A section table entry. -/
structure Sect where
  typ : Nat
  attr : Nat
  rsvd : Nat
  words : Nat
  load : Nat
  off : Nat
  len : Nat
  rsvd2 : Nat
  deriving DecidableEq, Repr

/-- The sections of an image, in table order ("Section table entry"). -/
def sections (im : Bytes) : List Sect :=
  (List.range (leAt im 6 2)).map (fun i =>
    let e := 128 + 32 * i
    { typ := leAt im e 1, attr := leAt im (e + 1) 1, rsvd := leAt im (e + 2) 2, words := leAt im (e + 4) 4,
      load := leAt im (e + 8) 8, off := leAt im (e + 16) 4, len := leAt im (e + 20) 4, rsvd2 := leAt im (e + 24) 8 })

/-- Where the word `n` of an image's image-relative space stands: the image byte at which the nine bytes of its pair start, and
whether it is the second of the pair; none outside every code and read-only section. -/
def imagePair (im : Bytes) (n : Nat) : Option (Nat × Nat) :=
  ((sections im).find? (fun e => (e.typ == 1 || e.typ == 2) && decide (e.load ≤ n) && decide (n < e.load + e.words))).map
    (fun e => (e.off + 9 * ((n - e.load) / 2), (n - e.load) % 2))

/-- Is the word `n` of an image inside an execute-only section? -/
def imageXo (im : Bytes) (n : Nat) : Bool :=
  (sections im).any (fun e => e.typ == 1 && e.attr % 2 == 1 && decide (e.load ≤ n) && decide (n < e.load + e.words))

/-- The key of a program index. -/
def progKey (p i : Nat) : Nat := p * 16 + i
/-- A program index of a polder. -/
def prog (s : State) (p i : Nat) : Prog := tget s.progs {} (progKey p i)

/-- The image that a core's image window shows (R149): the job's image, or the running firmware image. -/
def coreImage (s : State) (k : Core) : Bytes :=
  if k.user then (prog s k.polder k.prog).image.getD [] else s.rst.image

/-- First byte of the firmware data area (R151). -/
def fwBase : Nat := imgBase + 320 * 1048576

/-- The DRAM data offset of byte `o` of the image that a core's image window shows: an image stands in the 64 KiB blocks of its index,
the firmware image from the start of the firmware data area (assumption 21). -/
def imageDram (s : State) (k : Core) (o : Nat) : Nat :=
  if k.user then imgBase + (prog s k.polder k.prog).blks.getD (o / 65536) 0 * 65536 + o % 65536 else fwBase + o

/-- The DRAM data offsets of the first and the last of the five bytes that hold a word of the image window. -/
def imageBytes (s : State) (k : Core) (a : Nat) : Option (Nat × Nat) :=
  (imagePair (coreImage s k) (a - imageWin)).map (fun g => (imageDram s k (g.1 + 4 * g.2), imageDram s k (g.1 + 4 * g.2 + 4)))

/-- A word of the image window as DRAM holds it. -/
def imageWord (s : State) (k : Core) (a : Nat) : Option W36 :=
  (imagePair (coreImage s k) (a - imageWin)).map (fun g =>
    packedWord ((List.range 9).map (fun i => readByte s.dram (imageDram s k (g.1 + i)))) g.2)

/-- How the fill of a word of the image window ends: the data; a breach of the image-region dike, with the owner (R38, R149); poison
(R157); each with the DRAM data offset met. -/
inductive Fill where
  | good
  | breach (x owner : Nat)
  | bad (x : Nat)
  deriving DecidableEq, Repr

/-- The fill of one of the bytes. -/
def fillByte (s : State) (k : Core) (x : Nat) : Fill :=
  if k.polder ≠ 0 ∧ dramOwner s x ≠ k.polder then .breach x (dramOwner s x) else if dramBad s x then .bad x else .good

/-- The fill of a word of the image window. The instruction cache is not modelled: every fetch is a fill. -/
def imageFill (s : State) (k : Core) (a : Nat) : Fill :=
  match imageBytes s k a with
  | none => .good
  | some (x, y) =>
    match fillByte s k x with
    | .good => fillByte s k y
    | f => f

/-! ## The end of a context (R162) -/

/-- What a core keeps when its context ends: its service state, the last trap, the control-store address. -/
def emptyCore (k : Core) : Core :=
  { out := k.out, absent := k.absent, ldmErrs := k.ldmErrs, trap := k.trap, trapPc := k.trapPc, csAddr := k.csAddr, csX := k.csX }

/-- A core after step 3 of the job end, its local data memory not yet zeroed: SCRUBBING. -/
def scrubCore (k : Core) : Core :=
  { emptyCore k with st := .scrubbing, polder := k.polder, job := k.job, ldm := k.ldm, stopT := k.stopT }

/-- Core `c` as it stands now in the job end (R162): SCRUBBING 3 µs after the stop request, FREE after 14 µs. -/
def coreNow (s : State) (c : Nat) : Core :=
  let k := core s c
  match k.stopT with
  | none => k
  | some t => if t + 14 ≤ s.now then emptyCore k else if t + 3 ≤ s.now then scrubCore k else k

/-- The state with core `c` as it stands now in the job end. -/
def coreAged (s : State) (c : Nat) : State := if (core s c).stopT.isSome then setCore s c (coreNow s c) else s

/-! ## The protection unit (R152, R154) -/

/-- The region entry that applies to a word: the lowest-numbered valid entry containing it. -/
def rgnOf (k : Core) (a : Nat) : Option Rgn :=
  match k.rgn.find? (fun e => match e.2 with
      | some r => decide (r.base ≤ a) && decide (a ≤ r.limit)
      | none => false) with
  | some e => e.2
  | none => none

/-- A word in the context's own SLM range. -/
def inOwnSlm (s : State) (k : Core) (a : Nat) : Bool :=
  let o := (a - dramWin) * 4
  let p := polder s k.polder
  regionOf a == .dram && decide (slmBase + slmFirst p ≤ o) && decide (o < slmBase + slmFirst p + memSize s k.polder)

/-- The protection unit on a load or store of one word: none to issue, else the trap cause. -/
def protect (s : State) (k : Core) (a : Nat) (write : Bool) : Option Nat :=
  if k.user then
    match rgnOf k a with
    | some r =>
      if write then (if r.w then none else some 3)
      else if r.r then none else if r.xo then some 4 else some 3
    | none =>
      if regionOf a = .dram ∧ inOwnSlm s k a = false then none
      else if regionOf a = .sram then none
      else some 3
  else
    match regionOf a with
    | .hole => some 3
    | .image => if write then some 3 else if imageXo (coreImage s k) (a - imageWin) then some 4 else none
    | _ => none

/-- Has the word at `a` a fetch grant (R152, R154)? -/
def fetchGrant (k : Core) (a : Nat) : Bool :=
  if k.user then
    match rgnOf k a with
    | some r => r.x
    | none => false
  else regionOf a == .image

/-- The fetch check of a word: grant (R154), then the fill through the image-region dike (R38, R149, R157). -/
def fetchTrap (s : State) (k : Core) : Option Trap :=
  if fetchGrant k k.pc.toNat then
    match imageFill s k k.pc.toNat with
    | .good => none
    | .breach _ _ => some { cause := 7, val := k.pc, evs := [0x14] }
    | .bad _ => some { cause := 7, val := k.pc }
  else some { cause := 3, val := k.pc }

/-- A dike breach by core `c` at the word `a` (R40, R461). -/
def coreBreach (s : State) (c a owner blk : Nat) (write : Bool) : State :=
  breach s (core s c).polder owner blk 0 write (4 * a) (.core c)

/-- What a fetch that traps leaves: the record of a breach, or of the uncorrectable line. -/
def fetchNotes (s : State) (c : Nat) : State :=
  let k := core s c
  if fetchGrant k k.pc.toNat then
    match imageFill s k k.pc.toNat with
    | .good => s
    | .breach x o => coreBreach s c (dramWin + x / 4) o 0x0B false
    | .bad x => ueRead s (dramInst x) (x / 64) 1 k.polder
  else s

/-! ## Counters (R166) -/

/-- Configuration fields of a counter. -/
def cfgEn (g : BitVec 16) : Bool := g.getLsbD 15
/-- chain -/
def cfgChain (g : BitVec 16) : Bool := g.getLsbD 14
/-- edge -/
def cfgEdge (g : BitVec 16) : Bool := g.getLsbD 13
/-- int -/
def cfgInt (g : BitVec 16) : Bool := g.getLsbD 12
/-- sample -/
def cfgSample (g : BitVec 16) : Bool := g.getLsbD 11
/-- event -/
def cfgEvent (g : BitVec 16) : Nat := (g.setWidth 8).toNat

/-- Counter `n` of a core. -/
def counter (k : Core) (n : Nat) : Counter := tget k.cnt {} n
/-- Changes counter `n`. -/
def modCounter (k : Core) (n : Nat) (f : Counter → Counter) : Core := { k with cnt := tmod k.cnt {} n f }

/-- Adds occurrences to one counter: a sampling counter goes on from the value last written to it at each wrap (R170). Wraps note the
word and the address for COUNTER_WRAP. -/
def bump (v : Counter) (by_ : Nat) (pc : W36) (slot addr lat : Nat) : Counter :=
  let n := v.val.toNat + by_
  if n < 2 ^ 36 then { v with val := BitVec.ofNat 36 n }
  else
    let start := if cfgSample v.cfg then v.reload.toNat else 0
    let past := n - 2 ^ 36
    let period := 2 ^ 36 - start
    { v with val := BitVec.ofNat 36 (start + past % period),
             wraps := v.wraps ++ [{ pc := pc, slot := slot, addr := addr, lat := lat, n := 1 + past / period }] }

/-- How often an event holds or happens in one word: cycles and load waits hold for a number of cycles, of which an edge
counter counts the start, and the cycles of a running context never start anew; occurrences count as often as listed. -/
def evCount (evs : List Nat) (cycles stall : Nat) (ev : Nat) (edge : Bool) : Nat :=
  if ev = 1 then (if edge then 0 else cycles)
  else if ev = 5 then (if edge then (if stall = 0 then 0 else 1) else stall)
  else evs.count ev

/-- Advances the eight counters for one word (R166, R167: an odd chained counter ignores its own event). -/
def countWord (k : Core) (evs : List Nat) (cycles stall : Nat) (slot addr lat : Nat) : Core :=
  (List.range 8).foldl (fun k n =>
    let v := counter k n
    if cfgEn v.cfg && !(n % 2 == 1 && cfgChain v.cfg) then
      let d := evCount evs cycles stall (cfgEvent v.cfg) (cfgEdge v.cfg)
      if d = 0 then k else modCounter k n (fun v => bump v d k.pc slot addr lat)
    else k) k

/-- Adds `n` cycles of a level event: an edge counter counts its start, where it starts here. -/
def countLevel (k : Core) (ev n : Nat) (starts : Bool) : Core :=
  (List.range 8).foldl (fun k i =>
    let v := counter k i
    if cfgEn v.cfg && !(i % 2 == 1 && cfgChain v.cfg) && cfgEvent v.cfg == ev && n != 0 then
      modCounter k i (fun v => bump v (if cfgEdge v.cfg then (if starts then 1 else 0) else n) k.pc 0 0 0)
    else k) k

/-- The data address of a word as a counter notes it: one more than the word address, 0 for none. -/
def addrNote : Option Nat → Nat
  | some a => a + 1
  | none => 0

/-- Retires a word that was at `pc0`: counters and the cycle counter advance by one cycle and the free stall, and the core's cycles
are charged (R145, R166, R361; stall cycles, load waits, latencies and cache misses are free values, assumption 12; a word waits for
loads in no more cycles than it takes). `parts` gives the events of the word and of its slots, with the slot and the address of its
memory access. -/
def retireParts (s : State) (c : Nat) (pc0 : W36) (parts : List (List Nat × Nat × Option Nat)) : State :=
  let (n0, s) := takeFree s
  let (n1, s) := takeFree s
  let (n2, s) := takeFree s
  let stall := Config.freeNat n0
  let lat := Config.freeNat n1
  let wait := lat % (2 + stall)
  let miss := if Config.freeNat n2 % 2 = 1 then [0x0B] else []
  let k := core s c
  let k1 := countWord { k with pc := pc0 } miss (1 + stall) wait 0 0 lat
  let k1 := parts.foldl (fun k p => countWord k p.1 0 0 p.2.1 (addrNote p.2.2) lat) k1
  let s := setCore s c { k1 with pc := k.pc, cyc := k.cyc + BitVec.ofNat 72 (1 + stall), stalled := false, routine := none }
  chargeJob s k.polder k.job (coreFj s (1 + stall))

/-- Retires a long word. -/
def retire (s : State) (c : Nat) (pc0 : W36) (evs : List Nat) (addr : Option Nat) : State := retireParts s c pc0 [(evs, 0, addr)]

/-- Accounts for a free number of cycles that a core spends in a level event: `ev` beside the cycles themselves (R145, R166). -/
def levelCycles (s : State) (c ev : Nat) (starts : Bool) : State :=
  let (n, s) := takeFree s
  let d := Config.freeNat n
  let k := core s c
  let s := setCore s c { countLevel (countLevel k 1 d false) ev d starts with cyc := k.cyc + BitVec.ofNat 72 d }
  chargeJob s k.polder k.job (coreFj s d)

/-- Accounts for the cycles that a core has waited in WFE, a free number (R145, R166). -/
def waited (s : State) (c : Nat) : State := levelCycles s c 0x0C true

/-- Accounts for the cycles that a core has stalled at a doorbell: a stall that goes on from an earlier try starts no new one. -/
def heldCycles (s : State) (c : Nat) : State :=
  modCore (levelCycles s c 0x13 (!(core s c).stalled)) c (fun k => { k with stalled := true })

/-! ## Traps -/

/-- UCAUSE and SCAUSE at entry. -/
def causeWord (flags : BitVec 4) (t : Trap) : W36 :=
  flags ++ (putB true 31 ||| put t.slot 30 29 ||| put t.info 19 8 ||| put t.cause 7 0)

/-- May the cause go to a user handler as a synchronous trap (R157)? -/
def userCause (n : Nat) : Bool := (decide (1 ≤ n) && decide (n ≤ 6)) || n == 8

/-- A report to FLT by a block about a unit, with the cause code of the block's page (R407). -/
def reportBy (s : State) (blk inst cls tinst action : Nat) : State :=
  report s cls tinst blk inst (hdr s (frameOf blk inst 0)).errCode.toNat action

/-- A core is taken out of service until the next boot (R396). -/
def coreOut (s : State) (c : Nat) : State :=
  reportBy (modCore s c (fun k => { k with out := true })) 3 c 8 c 1

/-- Has the run of a job reached its end (R104)? -/
def limitReached (s : State) (v : Job) : Bool :=
  v.limitMs != 0 && decide (v.startT + v.pausedUs + v.limitMs * 1000 ≤ s.now + 1000)

/-- The job of a context whose time limit has expired: a stop request that wins against a trap on the same word (R161). -/
def expiredJob (s : State) (k : Core) : Option Nat :=
  match k.job with
  | none => none
  | some j => match job s j with
    | none => none
    | some v => if k.user && limitReached s v then some j else none

/-- Takes a trap on core `c` at the word its pc names (R158, R160). -/
def enterTrap (s : State) (c : Nat) (t : Trap) : State :=
  let k := { countWord (core s c) (0x12 :: t.evs) 0 0 t.slot 0 0 with stalled := false, routine := none }
  let s := setCore s c k
  if k.user then
    if userCause t.cause && decide (k.utvec ≠ 0) && !k.ucause.getLsbD 31 then
      setCore s c { k with uepc := k.pc, ucause := causeWord k.flags t, utval := t.val,
                           pc := k.utvec + BitVec.ofNat 36 t.cause }
    else
      let s := setCore s c { k with trap := put t.info 31 20 ||| put t.slot 17 16 ||| put t.cause 7 0, trapPc := k.pc }
      match k.job with
      | some j => endJob s j (some (.internalError, put t.cause 7 0 ||| put c 12 8))
      | none => s
  else if k.sstatus.getLsbD 1 then
    coreOut (setCore s c { k with st := .halted, trap := put t.info 31 20 ||| put t.slot 17 16 ||| put t.cause 7 0,
                                  trapPc := k.pc }) c
  else
    setCore s c { k with sepc := k.pc, scause := causeWord k.flags t, stval := t.val, sstatus := k.sstatus ||| 2,
                         pc := k.stvec + BitVec.ofNat 36 t.cause }

/-- A word of core `c` traps: the trap is taken, unless the job's time limit has expired, which ends the job and leaves the trap
unrecorded (R161). -/
def takeTrap (s : State) (c : Nat) (t : Trap) : State :=
  match expiredJob s (core s c) with
  | some j => endJob s j (some (.interrupted, putB true 31))
  | none => enterTrap s c t

/-- Can core `c` execute a word: in service and RUNNING? -/
def coreRuns (s : State) (c : Nat) : Bool :=
  let k := core s c
  decide (c < 32) && k.st == .running && !k.out && !k.absent

/-- One instruction word of core `c`: nothing happens unless the core runs; the word is fetched, it executes, and it
retires or traps. -/
def runWord (c : Nat) (s : State) (f : State → Ran) : State :=
  if coreRuns s c then
    match fetchTrap s (core s c) with
    | some t => takeTrap (fetchNotes s c) c t
    | none =>
      match f s with
      | .ok s' evs addr => retire s' c (core s c).pc evs addr
      | .parts s' ps => retireParts s' c (core s c).pc ps
      | .trap t s' => takeTrap s' c t
      | .held s' => heldCycles s' c
  else s

/-- A word that writes the core's own context only and goes on to the next word. -/
def nextWord (s : State) (c : Nat) (k : Core) : Ran := .ok (setCore s c { k with pc := k.pc + 1 }) [2, 3] none

end Sys2Proof.Machine
end

