-- ==== Sys2Proof/Machine/Alu.lean ====
section
/-! DEFINITION. The ALU group and the immediate operations of the Adral-2 (R119, R126-R128). -/

namespace Sys2Proof.Machine

open Sys2Proof

/-- What an ALU function computes from ra, rb and the flags. -/
abbrev AluFn := W36 → W36 → BitVec 4 → W36 × BitVec 4

/-- A function that leaves the flags alone. -/
def pureAlu (f : W36 → W36 → W36) : AluFn := fun a b g => (f a b, g)

/-- The shift amount: rb 5:0. -/
def amt (b : W36) : Nat := b.toNat % 64
/-- Shift left; an amount of 36 or more gives 0. -/
def sll36 (a : W36) (n : Nat) : W36 := if 36 ≤ n then 0 else a <<< n
/-- Shift right; an amount of 36 or more gives 0. -/
def srl36 (a : W36) (n : Nat) : W36 := if 36 ≤ n then 0 else a >>> n
/-- Arithmetic shift right; an amount of 36 or more gives the sign fill. -/
def sra36 (a : W36) (n : Nat) : W36 := if 36 ≤ n then (if a.msb then BitVec.allOnes 36 else 0) else a.sshiftRight n
/-- Rotate left. -/
def rot36 (a : W36) (n : Nat) : W36 := a.rotateLeft (n % 36)
/-- The low 18-bit half (R119). -/
def loHalf (a : W36) : BitVec 18 := a.setWidth 18
/-- The high 18-bit half (R119). -/
def hiHalf (a : W36) : BitVec 18 := (a >>> 18).setWidth 18
/-- A word of two halves. -/
def halves (h l : BitVec 18) : W36 := h ++ l
/-- Unsigned sum of halves, saturating at 0o777_777. -/
def satHalf (a b : BitVec 18) : BitVec 18 := if 2 ^ 18 ≤ a.toNat + b.toNat then BitVec.allOnes 18 else a + b
/-- Leading zeros of a word, 0 to 36. -/
def clzNat (a : W36) : Nat := if a.toNat = 0 then 36 else 35 - Nat.log2 a.toNat
/-- Number of 1 bits. -/
def popNat (a : W36) : Nat := ((List.range 36).filter (fun i => a.getLsbD i)).length
/-- 1 or 0. -/
def bool36 (b : Bool) : W36 := if b then 1 else 0

/-- A word of the ALU group: fn 12:6 must be zero (R128). -/
def aluWord (c : Nat) (rd ra rb : BitVec 5) (m : BitVec 7) (f : AluFn) (s : State) : State :=
  runWord c s (fun s =>
    if m ≠ 0 then illegal s
    else
      let k := core s c
      let r := f (rget k ra) (rget k rb) k.flags
      nextWord s c { rset k rd r.1 with flags := r.2 })

/-- A word with an 18-bit immediate: `ok` tells whether the fields the operation marks as zero are zero. -/
def immWord (c : Nat) (rd ra : BitVec 5) (ok : Bool) (f : W36 → BitVec 4 → W36 × BitVec 4) (s : State) : State :=
  runWord c s (fun s =>
    if ok then
      let k := core s c
      let r := f (rget k ra) k.flags
      nextWord s c { rset k rd r.1 with flags := r.2 }
    else illegal s)

/-- ADD (R128): rd = ra + rb; sets c, v. -/
def aluAdd : AluFn := fun a b g => addC a b 0 g

/-- SUB (R128): rd = ra − rb; sets c (borrow), v. -/
def aluSub : AluFn := fun a b g => subB a b 0 g

/-- ADDC (R128): rd = ra + rb + c; sets c, v. -/
def aluAddc : AluFn := fun a b g => addC a b (b2n (flagC g)) g

/-- SUBC (R128): rd = ra − rb − c; sets c (borrow), v. -/
def aluSubc : AluFn := fun a b g => subB a b (b2n (flagC g)) g

/-- AND (R128): rd = ra & rb. -/
def aluAnd : AluFn := pureAlu (fun a b => a &&& b)

/-- OR (R128): rd = ra | rb. -/
def aluOr : AluFn := pureAlu (fun a b => a ||| b)

/-- XOR (R128): rd = ra ^ rb. -/
def aluXor : AluFn := pureAlu (fun a b => a ^^^ b)

/-- ANDN (R128): rd = ra & ~rb. -/
def aluAndn : AluFn := pureAlu (fun a b => a &&& ~~~b)

/-- SLL (R128): shift left by rb 5:0. -/
def aluSll : AluFn := pureAlu (fun a b => sll36 a (amt b))

/-- SRL (R128): shift right by rb 5:0. -/
def aluSrl : AluFn := pureAlu (fun a b => srl36 a (amt b))

/-- SRA (R128): arithmetic shift right by rb 5:0. -/
def aluSra : AluFn := pureAlu (fun a b => sra36 a (amt b))

/-- ROT (R128): rotate left by (rb 5:0) mod 36. -/
def aluRot : AluFn := pureAlu (fun a b => rot36 a (amt b))

/-- SLT (R128): 1 if ra < rb, signed. -/
def aluSlt : AluFn := pureAlu (fun a b => bool36 (decide (a.toInt < b.toInt)))

/-- SLTU (R128): 1 if ra < rb, unsigned. -/
def aluSltu : AluFn := pureAlu (fun a b => bool36 (decide (a.toNat < b.toNat)))

/-- MINU (R128): unsigned minimum. -/
def aluMinu : AluFn := pureAlu (fun a b => if a.toNat < b.toNat then a else b)

/-- MAXU (R128): unsigned maximum. -/
def aluMaxu : AluFn := pureAlu (fun a b => if a.toNat < b.toNat then b else a)

/-- MUL (R128): low 36 bits of the product. -/
def aluMul : AluFn := pureAlu (fun a b => a * b)

/-- MULHU (R128): high 36 bits of the unsigned product. -/
def aluMulhu : AluFn := pureAlu (fun a b => BitVec.ofNat 36 (a.toNat * b.toNat / 2 ^ 36))

/-- MULH (R128): high 36 bits of the signed product. -/
def aluMulh : AluFn := pureAlu (fun a b => BitVec.ofInt 36 ((a.toInt * b.toInt) / 2 ^ 36))

/-- ADDH (R128): per 18-bit half, wrapping. -/
def aluAddh : AluFn := pureAlu (fun a b => halves (hiHalf a + hiHalf b) (loHalf a + loHalf b))

/-- SUBH (R128): per 18-bit half, wrapping. -/
def aluSubh : AluFn := pureAlu (fun a b => halves (hiHalf a - hiHalf b) (loHalf a - loHalf b))

/-- ADDHS (R128): per 18-bit half, unsigned, saturating. -/
def aluAddhs : AluFn := pureAlu (fun a b => halves (satHalf (hiHalf a) (hiHalf b)) (satHalf (loHalf a) (loHalf b)))

/-- CLZ (R128): leading zeros of ra. -/
def aluClz : AluFn := pureAlu (fun a _ => BitVec.ofNat 36 (clzNat a))

/-- POPC (R128): number of 1 bits of ra. -/
def aluPopc : AluFn := pureAlu (fun a _ => BitVec.ofNat 36 (popNat a))

/-- The ALU group by fn 5:0 (R128). -/
def aluOp (f : Nat) : Option AluFn :=
  match f with
  | 0 => some aluAdd
  | 1 => some aluSub
  | 2 => some aluAddc
  | 3 => some aluSubc
  | 4 => some aluAnd
  | 5 => some aluOr
  | 6 => some aluXor
  | 7 => some aluAndn
  | 8 => some aluSll
  | 9 => some aluSrl
  | 10 => some aluSra
  | 11 => some aluRot
  | 12 => some aluSlt
  | 13 => some aluSltu
  | 14 => some aluMinu
  | 15 => some aluMaxu
  | 16 => some aluMul
  | 17 => some aluMulhu
  | 18 => some aluMulh
  | 20 => some aluAddh
  | 21 => some aluSubh
  | 22 => some aluAddhs
  | 23 => some aluClz
  | 24 => some aluPopc
  | _ => none

/-- ADD (R128). -/
def execIAdd (c : Nat) (rd ra rb : BitVec 5) (m : BitVec 7) (s : State) : Res := .next (aluWord c rd ra rb m aluAdd s)

/-- SUB (R128). -/
def execISub (c : Nat) (rd ra rb : BitVec 5) (m : BitVec 7) (s : State) : Res := .next (aluWord c rd ra rb m aluSub s)

/-- ADDC (R128). -/
def execIAddc (c : Nat) (rd ra rb : BitVec 5) (m : BitVec 7) (s : State) : Res := .next (aluWord c rd ra rb m aluAddc s)

/-- SUBC (R128). -/
def execISubc (c : Nat) (rd ra rb : BitVec 5) (m : BitVec 7) (s : State) : Res := .next (aluWord c rd ra rb m aluSubc s)

/-- AND (R128). -/
def execIAnd (c : Nat) (rd ra rb : BitVec 5) (m : BitVec 7) (s : State) : Res := .next (aluWord c rd ra rb m aluAnd s)

/-- OR (R128). -/
def execIOr (c : Nat) (rd ra rb : BitVec 5) (m : BitVec 7) (s : State) : Res := .next (aluWord c rd ra rb m aluOr s)

/-- XOR (R128). -/
def execIXor (c : Nat) (rd ra rb : BitVec 5) (m : BitVec 7) (s : State) : Res := .next (aluWord c rd ra rb m aluXor s)

/-- ANDN (R128). -/
def execIAndn (c : Nat) (rd ra rb : BitVec 5) (m : BitVec 7) (s : State) : Res := .next (aluWord c rd ra rb m aluAndn s)

/-- SLL (R128). -/
def execISll (c : Nat) (rd ra rb : BitVec 5) (m : BitVec 7) (s : State) : Res := .next (aluWord c rd ra rb m aluSll s)

/-- SRL (R128). -/
def execISrl (c : Nat) (rd ra rb : BitVec 5) (m : BitVec 7) (s : State) : Res := .next (aluWord c rd ra rb m aluSrl s)

/-- SRA (R128). -/
def execISra (c : Nat) (rd ra rb : BitVec 5) (m : BitVec 7) (s : State) : Res := .next (aluWord c rd ra rb m aluSra s)

/-- ROT (R128). -/
def execIRot (c : Nat) (rd ra rb : BitVec 5) (m : BitVec 7) (s : State) : Res := .next (aluWord c rd ra rb m aluRot s)

/-- SLT (R128). -/
def execISlt (c : Nat) (rd ra rb : BitVec 5) (m : BitVec 7) (s : State) : Res := .next (aluWord c rd ra rb m aluSlt s)

/-- SLTU (R128). -/
def execISltu (c : Nat) (rd ra rb : BitVec 5) (m : BitVec 7) (s : State) : Res := .next (aluWord c rd ra rb m aluSltu s)

/-- MINU (R128). -/
def execIMinu (c : Nat) (rd ra rb : BitVec 5) (m : BitVec 7) (s : State) : Res := .next (aluWord c rd ra rb m aluMinu s)

/-- MAXU (R128). -/
def execIMaxu (c : Nat) (rd ra rb : BitVec 5) (m : BitVec 7) (s : State) : Res := .next (aluWord c rd ra rb m aluMaxu s)

/-- MUL (R128). -/
def execIMul (c : Nat) (rd ra rb : BitVec 5) (m : BitVec 7) (s : State) : Res := .next (aluWord c rd ra rb m aluMul s)

/-- MULHU (R128). -/
def execIMulhu (c : Nat) (rd ra rb : BitVec 5) (m : BitVec 7) (s : State) : Res := .next (aluWord c rd ra rb m aluMulhu s)

/-- MULH (R128). -/
def execIMulh (c : Nat) (rd ra rb : BitVec 5) (m : BitVec 7) (s : State) : Res := .next (aluWord c rd ra rb m aluMulh s)

/-- ADDH (R128). -/
def execIAddh (c : Nat) (rd ra rb : BitVec 5) (m : BitVec 7) (s : State) : Res := .next (aluWord c rd ra rb m aluAddh s)

/-- SUBH (R128). -/
def execISubh (c : Nat) (rd ra rb : BitVec 5) (m : BitVec 7) (s : State) : Res := .next (aluWord c rd ra rb m aluSubh s)

/-- ADDHS (R128, R147: a version 1 image takes the illegal-instruction trap). -/
def execIAddhs (c : Nat) (rd ra rb : BitVec 5) (m : BitVec 7) (s : State) : Res :=
  .next (if (core s c).v1 then runWord c s illegal else aluWord c rd ra rb m aluAddhs s)

/-- CLZ (R128). -/
def execIClz (c : Nat) (rd ra rb : BitVec 5) (m : BitVec 7) (s : State) : Res := .next (aluWord c rd ra rb m aluClz s)

/-- POPC (R128). -/
def execIPopc (c : Nat) (rd ra rb : BitVec 5) (m : BitVec 7) (s : State) : Res := .next (aluWord c rd ra rb m aluPopc s)

/-- ADDI (R127): rd = ra + sext(imm); sets c, v. -/
def immAddi (imm : BitVec 18) (a : W36) (g : BitVec 4) : W36 × BitVec 4 := addC a (sext18 imm) 0 g
/-- ANDI (R127): rd = ra & zext(imm). -/
def immAndi (imm : BitVec 18) (a : W36) (g : BitVec 4) : W36 × BitVec 4 := (a &&& zext18 imm, g)
/-- ORI (R127): rd = ra | zext(imm). -/
def immOri (imm : BitVec 18) (a : W36) (g : BitVec 4) : W36 × BitVec 4 := (a ||| zext18 imm, g)
/-- XORI (R127): rd = ra ^ zext(imm). -/
def immXori (imm : BitVec 18) (a : W36) (g : BitVec 4) : W36 × BitVec 4 := (a ^^^ zext18 imm, g)
/-- LUI (R127): rd = imm << 18. -/
def immLui (imm : BitVec 18) (_a : W36) (g : BitVec 4) : W36 × BitVec 4 := (zext18 imm <<< 18, g)
/-- The shift of SHI: kind imm 17:16, amount imm 5:0 (R127). -/
def shiKind (a : W36) (kind n : Nat) : W36 :=
  match kind with
  | 0 => sll36 a n
  | 1 => srl36 a n
  | 2 => sra36 a n
  | _ => rot36 a n
/-- SHI (R127). -/
def immShi (imm : BitVec 18) (a : W36) (g : BitVec 4) : W36 × BitVec 4 := (shiKind a (imm.toNat / 65536) (imm.toNat % 64), g)
/-- The immediate of SHI: imm 15:6 zero, amount 0 to 35. -/
def shiOk (imm : BitVec 18) : Bool := decide (imm.toNat / 64 % 1024 = 0) && decide (imm.toNat % 64 ≤ 35)

/-- ADDI (R127). -/
def execIAddi (c : Nat) (rd ra : BitVec 5) (imm : BitVec 18) (s : State) : Res := .next (immWord c rd ra true (immAddi imm) s)

/-- ANDI (R127). -/
def execIAndi (c : Nat) (rd ra : BitVec 5) (imm : BitVec 18) (s : State) : Res := .next (immWord c rd ra true (immAndi imm) s)

/-- ORI (R127). -/
def execIOri (c : Nat) (rd ra : BitVec 5) (imm : BitVec 18) (s : State) : Res := .next (immWord c rd ra true (immOri imm) s)

/-- XORI (R127). -/
def execIXori (c : Nat) (rd ra : BitVec 5) (imm : BitVec 18) (s : State) : Res := .next (immWord c rd ra true (immXori imm) s)

/-- LUI (R127): ra zero. -/
def execILui (c : Nat) (rd ra : BitVec 5) (imm : BitVec 18) (s : State) : Res :=
  .next (immWord c rd ra (decide (ra = 0)) (immLui imm) s)

/-- SHI (R127). -/
def execIShi (c : Nat) (rd ra : BitVec 5) (imm : BitVec 18) (s : State) : Res := .next (immWord c rd ra (shiOk imm) (immShi imm) s)

end Sys2Proof.Machine
end

