-- ==== Sys2Proof/Machine/PageOps.lean ====
section
/-! DEFINITION. What an access to a register page meets before it reaches a register: the frame, the domain, the dike
(R20, R40, R430, R437), the key window (R11, R433). -/

namespace Sys2Proof.Machine

open Sys2Proof

/-- How an access ends at the gate: it reaches the register; it reads zero and writes nothing; it reads ones (R20); it
reads poison (R40); it does not reach the window at all. -/
inductive Gate where
  | pass | zero | ones | poison | absent
  deriving DecidableEq, Repr

/-- PG_OWNER of a page: the loaded context's polder for CORE page index 1, else 0 (R173, R437). -/
def pageOwner (s : State) (b j i : Nat) : Nat := if b = 3 ∧ i = 1 then (coreNow s j).polder else 0

/-- A register access ends after 2 µs because its domain is stopped; domain 2 of a single-port module makes no report (R20). -/
def bridgeEnd (s : State) (ini : Ini) (frame off : Nat) : State :=
  let d := match pageAt frame with
    | some (b, j, _) => domainOf b j
    | none => 0
  let s := errRec s (iniPage ini) (iniStamp s ini) 5 (put frame 23 12 ||| put off 11 0)
  if d = 2 ∧ s.rst.dual = false then s else report s 2 d (iniCode ini) (iniInst ini) 5 0

/-- Adds an initiator to those whose window another has closed. -/
def addIni (l : List Ini) (w : Ini) : List Ini := if l.contains w then l else l ++ [w]

/-- Closes the key window that another initiator holds (R433). -/
def closeWindow (s : State) (ini : Ini) (frame : Nat) : State :=
  match (hdr s frame).win with
  | some w => if w = ini then s else modHdr s frame (fun h => { h with win := none, closed := addIni h.closed w })
  | none => s

/-- Can the initiator reach the control window: BAR2 is the port A PF's and enabled; a user-mode context reaches CORE page
index 1 alone (R57, R437, R438)? -/
def reaches (s : State) (ini : Ini) (frame : Nat) : Bool :=
  match ini with
  | .host fn => fn == 0 && s.rst.bar2
  | .core n => !(core s n).user || (match pageAt frame with
    | some (b, _, i) => b == 3 && i == 1
    | none => false)
  | .block _ _ => true

/-- The gate of a page access. -/
def gate (s : State) (ini : Ini) (frame off : Nat) (write : Bool) : Gate × State :=
  if !reaches s ini frame then (.absent, s)
  else
    match pageAt frame with
    | none => (.zero, errRec s (iniPage ini) (iniStamp s ini) 6 (put frame 23 12 ||| put off 11 0))
    | some (b, j, i) =>
      if b = 3 ∧ (core s j).absent then (.zero, s)
      else if !domainRuns s (domainOf b j) then (.ones, bridgeEnd s ini frame off)
      else
        let o := pageOwner s b j i
        let p := match ini with
          | .host _ => 0
          | _ => iniStamp s ini
        if p = 0 ∨ p = o then (.pass, if write then closeWindow s ini frame else s)
        else (.poison, breach s p o b j write off ini)

/-- A 32-bit write of a register: `f` applies it where the gate passes. The mutual order of one initiator's accesses to different
pages is open (R19): commands take effect in the order of the queue, which is one of the orders allowed (DESIGN CHOICE,
assumption 63). -/
def pageWrite (s : State) (ini : Ini) (frame off : Nat) (f : State → State) : State :=
  match gate s ini frame off true with
  | (.pass, s) => f s
  | (_, s) => s

/-- A 32-bit read of a register: `f` gives the value and the side effects where the gate passes. -/
def pageRead (s : State) (ini : Ini) (frame off : Nat) (f : State → W32 × State) : W32 × State :=
  match gate s ini frame off false with
  | (.pass, s) => f s
  | (.ones, s) => (BitVec.allOnes 32, s)
  | (_, s) => (0, s)

/-- A read whose value is the command's answer. -/
def readAnswer (r : W32 × State) : State := answer r.2 r.1

/-- A write to a KG field: true and the key sequence advances when the initiator's window is open; else the lock failure is
recorded (R11, R433). How long after a window was closed by another initiator a KG write still records 0x04 and not 0x03 the
spec does not say: until that initiator's next key write or KG write (DESIGN CHOICE, assumption 63). -/
def kgOpen (s : State) (ini : Ini) (frame off : Nat) : Bool × State :=
  let h := hdr s frame
  if h.win = some ini then (true, modHdr s frame (fun h => { h with win := none, seq := h.seq + 1 }))
  else if h.closed.contains ini then
    (false, errAt (modHdr s frame (fun h => { h with closed := h.closed.filter (fun x => x != ini) })) ini frame 4 off)
  else (false, errAt s ini frame 3 off)

/-- A write of PG_LOCK (R433). A window that another initiator held is closed before, at the gate. -/
def keyLock (s : State) (ini : Ini) (frame : Nat) (v : W32) : State :=
  let h := hdr s frame
  if fld v 31 16 = 0x4B47 ∧ fld v 15 0 = h.seq.toNat then
    modHdr s frame (fun h => { h with win := some ini, closed := h.closed.filter (fun x => x != ini) })
  else errAt (modHdr s frame (fun h => { h with win := none })) ini frame 2 0x1C

/-- Records code 0x41, wrong state or busy (R432). -/
def wrongState (s : State) (ini : Ini) (frame off : Nat) : State := errAt s ini frame 0x41 off

end Sys2Proof.Machine
end

