-- ==== Sys2Proof/Machine/Inflate.lean ====
section
/-! DEFINITION. Decompression of one member or frame (R231, R245-R247): the DEFLATE bit stream and its zlib and gzip wrappers whole,
the frames and blocks of Zstandard with the inside of a compressed block left to `Config.zstdBlock`. -/

namespace Sys2Proof.Machine

open Sys2Proof

/-- How the decoding of one member or frame ends (R246). -/
inductive Member where
  /-- The member ends: output, input bytes used. -/
  | done (out : Bytes) (used : Nat)
  /-- The input ends inside the member: output so far. -/
  | more (out : Bytes)
  /-- An error status of R246: output before the error. -/
  | fail (st : Nat) (out : Bytes)
  /-- A Zstandard skippable frame: input bytes used. -/
  | skip (used : Nat)
  deriving DecidableEq, Repr

/-! ## Bit streams -/

/-- The bits of a string, the low bit of each byte first (RFC 1951). -/
def bitsLe (bs : Bytes) : List Bool := bs.flatMap (fun (b : Byte) => (List.range 8).map (fun i => b.getLsbD i))
/-- The number that bits spell, the first lowest. -/
def bitsNat : List Bool → Nat
  | [] => 0
  | b :: r => b2n b + 2 * bitsNat r
/-- The first `n` bits as a number, and the rest; none where fewer are left. -/
def takeBits (n : Nat) (b : List Bool) : Option (Nat × List Bool) :=
  if (b.take n).length < n then none else some (bitsNat (b.take n), b.drop n)

/-! ## Huffman codes -/

/-- The number of codes of each length 1 to 15. -/
def huffCounts (lens : List Nat) : List Nat := (List.range 15).map (fun l => (lens.filter (fun x => x == l + 1)).length)
/-- The symbols in code order: by length, then by value. -/
def huffSyms (lens : List Nat) : List Nat :=
  (List.range 15).flatMap (fun l => ((List.range lens.length).filter (fun i => lens.getD i 0 == l + 1)))
/-- Code space left at 15 bits: negative for an over-subscribed code, positive for an incomplete one. -/
def huffLeft (lens : List Nat) : Int := (huffCounts lens).foldl (fun (l : Int) c => l * 2 - c) 1

/-- What the next code of a bit stream is. -/
inductive Sym where
  | sym (s : Nat) (rest : List Bool)
  | more
  | bad

/-- Reads one code: the counts of the lengths still to try, the code so far, the first code and symbol index of this length. -/
def readSym (syms : List Nat) : List Nat → Nat → Nat → Nat → List Bool → Sym
  | [], _, _, _, _ => .bad
  | _ :: _, _, _, _, [] => .more
  | c :: cs, code, first, index, b :: bits =>
    let code := code * 2 + b2n b
    if code < first + c then .sym (syms.getD (index + (code - first)) 0) bits
    else readSym syms cs code ((first + c) * 2) (index + c) bits

/-- A code: its counts and its symbols. -/
structure Huff where
  counts : List Nat
  syms : List Nat

/-- The code of a list of lengths. -/
def huffOf (lens : List Nat) : Huff := { counts := huffCounts lens, syms := huffSyms lens }
/-- The next symbol under a code. -/
def nextSym (h : Huff) (b : List Bool) : Sym := readSym h.syms h.counts 0 0 0 b

/-! ## DEFLATE blocks -/

/-- Extra bits of length symbol 257 + n. -/
def lenExtra (n : Nat) : Nat := if n < 8 ∨ 28 ≤ n then 0 else n / 4 - 1
/-- Base of length symbol 257 + n. -/
def lenBase (n : Nat) : Nat := if n < 8 then n + 3 else if 28 ≤ n then 258 else (4 + n % 4) * 2 ^ (n / 4 - 1) + 3
/-- Extra bits of a distance symbol. -/
def distExtra (d : Nat) : Nat := if d < 4 then 0 else d / 2 - 1
/-- Base of a distance symbol. -/
def distBase (d : Nat) : Nat := if d < 4 then d + 1 else (2 + d % 2) * 2 ^ (d / 2 - 1) + 1

/-- Copies `n` bytes from a distance back, the output held last byte first. -/
def copyBack (dist : Nat) : Nat → Bytes → Bytes
  | 0, o => o
  | n + 1, o => copyBack dist n (o.getD (dist - 1) 0 :: o)

/-- What a decoder's part leaves: the status 0 for input that ends, else an error, with the output so far; or the rest of the input and
the output. Outputs are held last byte first. -/
abbrev Inflated (α : Type) := Except (Nat × Bytes) (α × Bytes)

/-- The codes of a Huffman block up to symbol 256. -/
def inflCodes (lit dist : Huff) (win : Nat) : Nat → List Bool → Bytes → Inflated (List Bool)
  | 0, _, o => .error (0, o)
  | n + 1, b, o =>
    match nextSym lit b with
    | .more => .error (0, o)
    | .bad => .error (0x0A, o)
    | .sym s b =>
      if s < 256 then inflCodes lit dist win n b (BitVec.ofNat 8 s :: o)
      else if s = 256 then .ok (b, o)
      else if 285 < s then .error (0x0A, o)
      else
        match takeBits (lenExtra (s - 257)) b with
        | none => .error (0, o)
        | some (x, b) =>
          match nextSym dist b with
          | .more => .error (0, o)
          | .bad => .error (0x0A, o)
          | .sym d b =>
            if 29 < d then .error (0x0A, o)
            else
              match takeBits (distExtra d) b with
              | none => .error (0, o)
              | some (y, b) =>
                if win < distBase d + y ∨ o.length < distBase d + y then .error (0x0B, o)
                else inflCodes lit dist win n b (copyBack (distBase d + y) (lenBase (s - 257) + x) o)

/-- The order of the code length code's lengths (RFC 1951, 3.2.7). -/
def clOrder : List Nat := [16, 17, 18, 0, 8, 7, 9, 6, 10, 5, 11, 4, 12, 3, 13, 2, 14, 1, 15]

/-- Reads `n` lengths of three bits. -/
def read3 : Nat → List Bool → List Nat → Option (List Nat × List Bool)
  | 0, b, a => some (a, b)
  | n + 1, b, a =>
    match takeBits 3 b with
    | none => none
    | some (v, b) => read3 n b (a ++ [v])

/-- Reads the literal and distance code lengths, last first: none of them past `total`; status 0 where the input ends. -/
def readLens (h : Huff) (total : Nat) : Nat → List Bool → List Nat → Except Nat (List Nat × List Bool)
  | 0, _, _ => .error 0
  | n + 1, b, a =>
    if total ≤ a.length then .ok (a, b)
    else
      match nextSym h b with
      | .more => .error 0
      | .bad => .error 0x0A
      | .sym s b =>
        if s < 16 then readLens h total n b (s :: a)
        else
          match takeBits (if s = 16 then 2 else if s = 17 then 3 else 7) b with
          | none => .error 0
          | some (x, b) =>
            let k := x + (if s = 18 then 11 else 3)
            if (s = 16 ∧ a = []) ∨ total < a.length + k then .error 0x0A
            else readLens h total n b (List.replicate k (if s = 16 then a.headD 0 else 0) ++ a)

/-- Is a distance code's set of lengths one that R246 lets stand: complete, or at most one symbol, of one bit? -/
def distOk (lens : List Nat) : Bool :=
  huffLeft lens == 0 || (decide (0 < huffLeft lens) && (lens.filter (fun l => l != 0) == [1] || lens.all (fun l => l == 0)))

/-- A block of dynamic codes after its type bits. -/
def inflDynamic (win : Nat) (b : List Bool) (o : Bytes) : Inflated (List Bool) :=
  match takeBits 14 b with
  | none => .error (0, o)
  | some (v, b) =>
    let hl := v % 32 + 257
    let hd := v / 32 % 32 + 1
    match read3 (v / 1024 + 4) b [] with
    | none => .error (0, o)
    | some (cl, b) =>
      let ls := (List.range 19).map (fun i => cl.getD (clOrder.idxOf i) 0)
      if huffLeft ls ≠ 0 then .error (0x0A, o)
      else
        match readLens (huffOf ls) (hl + hd) (hl + hd + 1) b [] with
        | .error st => .error (st, o)
        | .ok (a, b) =>
          let lens := a.reverse
          if huffLeft (lens.take hl) ≠ 0 ∨ distOk (lens.drop hl) = false then .error (0x0A, o)
          else inflCodes (huffOf (lens.take hl)) (huffOf (lens.drop hl)) win (b.length + 1) b o

/-- The lengths of the fixed literal code. -/
def fixedLens : List Nat := List.replicate 144 8 ++ List.replicate 112 9 ++ List.replicate 24 7 ++ List.replicate 8 8

/-- A stored block after its type bits; of a block that the input does not hold whole, the bytes that are there. -/
def inflStored (b : List Bool) (o : Bytes) : Inflated (List Bool) :=
  let b := b.drop (b.length % 8)
  match takeBits 32 b with
  | none => .error (0, o)
  | some (v, b) =>
    let n := v % 65536
    if n + v / 65536 ≠ 65535 then .error (0x0A, o)
    else
      let d := (List.range (min n (b.length / 8))).map (fun i => BitVec.ofNat 8 (bitsNat ((b.drop (8 * i)).take 8)))
      if b.length / 8 < n then .error (0, d.reverse ++ o) else .ok (b.drop (8 * n), d.reverse ++ o)

/-- The blocks of a DEFLATE stream up to the final one. -/
def inflBlocks (win : Nat) : Nat → List Bool → Bytes → Inflated (List Bool)
  | 0, _, o => .error (0, o)
  | n + 1, b, o =>
    match takeBits 3 b with
    | none => .error (0, o)
    | some (v, b) =>
      let r := if v / 2 = 0 then inflStored b o
               else if v / 2 = 1 then inflCodes (huffOf fixedLens) (huffOf (List.replicate 32 5)) win (b.length + 1) b o
               else if v / 2 = 2 then inflDynamic win b o
               else .error (0x0A, o)
      match r with
      | .error e => .error e
      | .ok (b, o) => if v % 2 = 1 then .ok (b, o) else inflBlocks win n b o

/-- A DEFLATE stream at the head of the input: what is left of the input, and the output. -/
def inflStream (win : Nat) (inp : Bytes) : Inflated Bytes :=
  match inflBlocks win (8 * inp.length + 1) (bitsLe inp) [] with
  | .error (st, o) => .error (st, o.reverse)
  | .ok (b, o) => .ok (inp.drop (inp.length - b.length / 8), o.reverse)

/-- The end of a decoder's part with no result. -/
def stopped (e : Nat × Bytes) : Member := if e.1 = 0 then .more e.2 else .fail e.1 e.2

/-! ## Checksums -/

/-- One bit of CRC-32 (RFC 1952). -/
def crc32Bit (c : W32) : W32 := if c.getLsbD 0 then (c >>> 1) ^^^ 0xEDB88320#32 else c >>> 1
/-- CRC-32 over one byte, from the running value before the final complement. -/
def crc32Byte (c : W32) (b : Byte) : W32 := (List.range 8).foldl (fun c _ => crc32Bit c) (c ^^^ b.setWidth 32)
/-- CRC-32 of a string. -/
def crc32 (bs : Bytes) : Nat := (~~~(bs.foldl crc32Byte (BitVec.allOnes 32))).toNat
/-- Adler-32 (RFC 1950) of a string, continued from a value. -/
def adlerFrom (v : Nat) (bs : Bytes) : Nat :=
  let r := bs.foldl (fun (p : Nat × Nat) b => ((p.1 + b.toNat) % 65521, (p.2 + p.1 + b.toNat) % 65521)) (v % 65536, v / 65536)
  r.2 * 65536 + r.1

/-- A 64-bit rotation. -/
def rot64 (v : BitVec 64) (n : Nat) : BitVec 64 := v.rotateLeft n
/-- Prime 1 of XXH64. -/
def xp1 : BitVec 64 := 0x9E3779B185EBCA87#64
/-- Prime 2. -/
def xp2 : BitVec 64 := 0xC2B2AE3D27D4EB4F#64
/-- Prime 3. -/
def xp3 : BitVec 64 := 0x165667B19E3779F9#64
/-- Prime 4. -/
def xp4 : BitVec 64 := 0x85EBCA77C2B2AE63#64
/-- Prime 5. -/
def xp5 : BitVec 64 := 0x27D4EB2F165667C5#64
/-- A round of XXH64. -/
def xRound (a v : BitVec 64) : BitVec 64 := rot64 (a + v * xp2) 31 * xp1
/-- The four lanes over stripes of 32 bytes. -/
def xLanes : Nat → Bytes → List (BitVec 64) → List (BitVec 64)
  | 0, _, a => a
  | n + 1, b, a =>
    xLanes n (b.drop 32) ((List.range 4).map (fun i => xRound (a.getD i 0) (BitVec.ofNat 64 (leAt b (8 * i) 8))))
/-- The last bytes of XXH64. -/
def xTail (h : BitVec 64) : Nat → Bytes → BitVec 64
  | 0, _ => h
  | n + 1, b =>
    if 8 ≤ b.length then xTail (rot64 (h ^^^ xRound 0 (BitVec.ofNat 64 (leAt b 0 8))) 27 * xp1 + xp4) n (b.drop 8)
    else if 4 ≤ b.length then xTail (rot64 (h ^^^ (BitVec.ofNat 64 (leAt b 0 4) * xp1)) 23 * xp2 + xp3) n (b.drop 4)
    else
      match b with
      | [] => h
      | x :: b => xTail (rot64 (h ^^^ (x.setWidth 64 * xp5)) 11 * xp1) n b
/-- XXH64 with seed 0, whose low 32 bits are the content checksum of a Zstandard frame. -/
def xxh64 (bs : Bytes) : BitVec 64 :=
  let n := bs.length
  let h := if n < 32 then xp5
           else
             let a := xLanes (n / 32) bs [xp1 + xp2, xp2, 0, 0 - xp1]
             let m := rot64 (a.getD 0 0) 1 + rot64 (a.getD 1 0) 7 + rot64 (a.getD 2 0) 12 + rot64 (a.getD 3 0) 18
             a.foldl (fun m v => (m ^^^ xRound 0 v) * xp1 + xp4) m
  let h := xTail (h + BitVec.ofNat 64 n) (n + 1) (if n < 32 then bs else bs.drop (n / 32 * 32))
  let h := (h ^^^ (h >>> 33)) * xp2
  let h := (h ^^^ (h >>> 29)) * xp3
  h ^^^ (h >>> 32)

/-! ## Members and frames -/

/-- A raw DEFLATE stream. -/
def rawMember (inp : Bytes) : Member :=
  match inflStream 32768 inp with
  | .error e => stopped e
  | .ok (rest, o) => .done o (inp.length - rest.length)

/-- A zlib stream: CM, CINFO, FCHECK, FDICT, the data, Adler-32. -/
def zlibMember (inp : Bytes) : Member :=
  let cmf := (byteAt inp 0).toNat
  let flg := (byteAt inp 1).toNat
  if inp = [] then .more []
  else if cmf % 16 ≠ 8 ∨ 7 < cmf / 16 then .fail 0x0A []
  else if inp.length < 2 then .more []
  else if (cmf * 256 + flg) % 31 ≠ 0 ∨ flg / 32 % 2 = 1 then .fail 0x0A []
  else
    match inflStream (2 ^ (cmf / 16 + 8)) (inp.drop 2) with
    | .error e => stopped e
    | .ok (rest, o) =>
      if rest.length < 4 then .more o
      else if ofBe (rest.take 4) ≠ adlerFrom 1 o then .fail 0x0D o
      else .done o (inp.length - rest.length + 4)

/-- A zero-terminated field: what follows it. -/
def pastZero : Bytes → Option Bytes
  | [] => none
  | b :: r => if b = 0 then some r else pastZero r

/-- The fields of a gzip header after its ten bytes: what follows them, none where the input ends. -/
def gzipFields (flg : Nat) (b : Bytes) : Option Bytes :=
  let b := if flg / 4 % 2 = 1 then (if b.length < 2 ∨ b.length < 2 + leAt b 0 2 then none else some (b.drop (2 + leAt b 0 2))) else some b
  let b := if flg / 8 % 2 = 1 then b.bind pastZero else b
  if flg / 16 % 2 = 1 then b.bind pastZero else b

/-- A gzip member: ID, CM, FLG, the optional fields and their CRC, the data, CRC-32, ISIZE. -/
def gzipMember (inp : Bytes) : Member :=
  let flg := (byteAt inp 3).toNat
  if (inp.take 3).isPrefixOf [0x1F, 0x8B, 0x08] = false then .fail 0x0A []
  else if inp.length < 4 then .more []
  else if 32 ≤ flg then .fail 0x0A []
  else if inp.length < 10 then .more []
  else
    match gzipFields flg (inp.drop 10) with
    | none => .more []
    | some b =>
      let head := inp.take (inp.length - b.length)
      if flg / 2 % 2 = 1 ∧ b.length < 2 then .more []
      else if flg / 2 % 2 = 1 ∧ leAt b 0 2 ≠ crc32 head % 65536 then .fail 0x0D []
      else
        match inflStream 32768 (if flg / 2 % 2 = 1 then b.drop 2 else b) with
        | .error e => stopped e
        | .ok (rest, o) =>
          if rest.length < 4 then .more o
          else if leAt rest 0 4 ≠ crc32 o then .fail 0x0D o
          else if rest.length < 8 then .more o
          else if leAt rest 4 4 ≠ o.length % 2 ^ 32 then .fail 0x0C o
          else .done o (inp.length - rest.length + 8)

/-- The blocks of a Zstandard frame up to the last, which may not give more than the frame's content size; the output is held first byte
first. -/
def zstdBlocks (win : Nat) (fcs : Option Nat) (prev : List Bytes) (o : Bytes) : Nat → Bytes → Inflated Bytes
  | 0, _ => .error (0, o)
  | n + 1, b =>
    if b.length < 3 then .error (0, o)
    else
      let h := leAt b 0 3
      let typ := h / 2 % 4
      let size := h / 8
      let b := b.drop 3
      if typ = 3 ∨ 131072 < size then .error (0x0A, o)
      else
        let need := if typ = 1 then 1 else size
        let r : Nat × Bytes :=
          if typ = 0 then (0, b.take size)
          else if typ = 1 then (0, if b = [] then [] else List.replicate size (byteAt b 0))
          else if b.length < size then (0, [])
          else Config.zstdBlock prev o win (b.take size)
        let o := o ++ r.2
        if (match fcs with
            | some k => decide (k < o.length)
            | none => false) then .error (0x0C, o.take (fcs.getD 0))
        else if b.length < need then .error (0, o)
        else if r.1 ≠ 0 then .error (if r.1 = 0x0B then 0x0B else 0x0A, o)
        else if h % 2 = 1 then .ok (b.drop need, o)
        else zstdBlocks win fcs (if typ = 2 then prev ++ [b.take size] else prev) o n (b.drop need)

/-- Window_Size of a window descriptor. -/
def zstdWindow (d : Nat) : Nat := 2 ^ (10 + d / 8) + 2 ^ (10 + d / 8) / 8 * (d % 8)

/-- Window_Size and the offset of the first block of a frame whose header is there; none while it is not. -/
structure ZHead where
  win : Nat
  dict : Nat
  fcs : Option Nat
  at_ : Nat

/-- The header of a Zstandard frame after its magic number. -/
def zstdHead (inp : Bytes) : Option ZHead :=
  let d := (byteAt inp 4).toNat
  let single := d / 32 % 2
  let dn := if d % 4 = 3 then 4 else d % 4
  let fn := if d / 64 = 0 then single else 2 ^ (d / 64)
  let a := 5 + (1 - single)
  if inp.length < a + dn + fn then none
  else
    let f := leAt inp (a + dn) fn + (if d / 64 = 1 then 256 else 0)
    some { win := if single = 1 then f else zstdWindow (byteAt inp 5).toNat, dict := leAt inp a dn,
           fcs := if fn = 0 then none else some f, at_ := a + dn + fn }

/-- A Zstandard frame, or a skippable frame. -/
def zstdMember (inp : Bytes) : Member :=
  if inp.length < 4 then .more []
  else if leAt inp 0 4 / 16 = 0x184D2A5 then
    if inp.length < 8 ∨ inp.length < 8 + leAt inp 4 4 then .more [] else .skip (8 + leAt inp 4 4)
  else if leAt inp 0 4 ≠ 0xFD2FB528 then .fail 0x0A []
  else if inp.length < 5 then .more []
  else if (byteAt inp 4).getLsbD 3 then .fail 0x0A []
  else
    match zstdHead inp with
    | none => .more []
    | some h =>
      if h.dict ≠ 0 ∨ 8388608 < h.win then .fail 0x0A []
      else
        match zstdBlocks h.win h.fcs [] [] (inp.length + 1) (inp.drop h.at_) with
        | .error e => stopped e
        | .ok (rest, o) =>
          if (match h.fcs with
              | some k => k != o.length
              | none => false) then .fail 0x0C o
          else if !(byteAt inp 4).getLsbD 2 then .done o (inp.length - rest.length)
          else if rest.length < 4 then .more o
          else if leAt rest 0 4 ≠ (xxh64 o).toNat % 2 ^ 32 then .fail 0x0D o
          else .done o (inp.length - rest.length + 4)

/-- Decodes one member or frame of a format from the head of the input. -/
def decodeMember (format : Nat) (inp : Bytes) : Member := match format with
  | 1 => rawMember inp
  | 2 => zlibMember inp
  | 3 => gzipMember inp
  | _ => zstdMember inp

/-- The Window_Size of the Zstandard frame at the head of the input, 0 where its header is not there. -/
def frameWindow (inp : Bytes) : Nat :=
  if leAt inp 0 4 ≠ 0xFD2FB528 ∨ inp.length < 5 then 0 else ((zstdHead inp).map ZHead.win).getD 0

/-! ## Fragments of a decompression stream -/

/-- What the decoding of a fragment leaves: output, status, input of the member in progress and its output so far, members ended in the
fragment, whether any member of the stream has ended. -/
structure DecOut where
  out : Bytes := []
  status : Nat := 0
  rest : Bytes := []
  frame : Bytes := []
  ends : Nat := 0
  ended : Bool := false

/-- Decodes members while input is there (R245): between members zero bytes are consumed, a nonzero byte begins a new gzip member or
Zstandard frame and is BAD_CODE in the other formats; `given` bytes of the first member's output were delivered before. -/
def decodeFrag (format : Nat) (last : Bool) : Nat → Bytes → Nat → Bytes → Nat → Bool → DecOut
  | 0, inp, _, out, ends, ended => { out := out, rest := inp, ends := ends, ended := ended }
  | n + 1, inp, given, out, ends, ended =>
    let inp := if ended then inp.dropWhile (fun b => b == 0) else inp
    if inp.isEmpty then { out := out, status := if last && !ended then 2 else 0, ends := ends, ended := ended }
    else if ended && decide (format ≤ 2) then { out := out, status := 0x0A, ends := ends, ended := ended }
    else
      match decodeMember format inp with
      | .done o used => decodeFrag format last n (inp.drop (max used 1)) 0 (out ++ o.drop given) (ends + 1) true
      | .skip used => decodeFrag format last n (inp.drop (max used 1)) 0 out (ends + 1) true
      | .more o => { out := out ++ o.drop given, status := if last then 2 else 0, rest := inp, frame := o, ends := ends, ended := ended }
      | .fail st o => { out := out ++ o.drop given, status := st, ends := ends, ended := ended }

end Sys2Proof.Machine
end

