-- ==== Sys2Proof/Machine/Deflate.lean ====
section
/-! DEFINITION. What a compressor writes (R231-R233, R239-R241): the levels, the smallest of the three block types, sync flush, the
headers and trailers of the formats. The bits of a Huffman block are left to `Config.fixedBlock` and `Config.dynamicBlock`. -/

namespace Sys2Proof.Machine

open Sys2Proof

/-- Hash-chain depth of a level (R232). -/
def levelDepth (l : Nat) : Nat := [8, 32, 128, 1024].getD l 0
/-- Lazy matching of a level. -/
def levelLazy (l : Nat) : Bool := l != 0
/-- zlib FLEVEL of a level. -/
def levelFlevel (l : Nat) : Nat := l % 4
/-- gzip XFL of a level. -/
def levelXfl (l : Nat) : Nat := [4, 0, 0, 2].getD l 0

/-- The low `n` bits of a number, the lowest first. -/
def natBits (n v : Nat) : List Bool := (List.range n).map (fun i => v.testBit i)
/-- Zero bits up to the next byte boundary after `pos` bits. -/
def padBits (pos : Nat) : List Bool := List.replicate ((8 - pos % 8) % 8) false
/-- The bytes of a bit stream whose length is a multiple of 8. -/
def bytesOf (b : List Bool) : Bytes := (List.range (b.length / 8)).map (fun i => BitVec.ofNat 8 (bitsNat ((b.drop (8 * i)).take 8)))

/-- Stored blocks of at most 65,535 bytes, after `pos` bits of the stream; the last carries BFINAL where it is asked for. -/
def storedBits (final : Bool) : Nat → Nat → Bytes → List Bool
  | 0, _, _ => []
  | n + 1, pos, d =>
    let c := d.take 65535
    let r := d.drop 65535
    let head := [final && r.isEmpty, false, false]
    let b := head ++ padBits (pos + 3) ++ natBits 16 c.length ++ natBits 16 (65535 - c.length) ++ bitsLe c
    if r.isEmpty then b else b ++ storedBits final n (pos + b.length) r

/-- A block of input after `pos` bits of the stream: the smallest of the stored, fixed and dynamic forms (R231). -/
def blockBits (level : Nat) (hist d : Bytes) (final : Bool) (pos : Nat) : List Bool :=
  let f := Config.fixedBlock (levelDepth level) (levelLazy level) hist d final
  let y := Config.dynamicBlock (levelDepth level) (levelLazy level) hist d final
  let h := if y.length < f.length then y else f
  let st := storedBits final (d.length / 65535 + 1) pos d
  if h.length < st.length then h else st

/-- The header of a format at a level (R233): FCHECK makes CMF and FLG a multiple of 31. -/
def wrapHead (format level : Nat) : Bytes := match format with
  | 2 => let flg := levelFlevel level * 64
         [0x78, BitVec.ofNat 8 (flg + (31 - (0x78 * 256 + flg) % 31) % 31)]
  | 3 => [0x1F, 0x8B, 0x08, 0x00, 0, 0, 0, 0, BitVec.ofNat 8 (levelXfl level), 0xFF]
  | _ => []
/-- The checksum of a format before any input. -/
def sumStart (format : Nat) : Nat := if format = 2 then 1 else 0xFFFFFFFF
/-- The checksum continued over input: Adler-32, or CRC-32 before its final complement. -/
def sumOver (format sum : Nat) (d : Bytes) : Nat :=
  if format = 2 then adlerFrom sum d else (d.foldl crc32Byte (BitVec.ofNat 32 sum)).toNat
/-- The trailer of a format: Adler-32 big-endian, or CRC-32 and ISIZE little-endian. -/
def wrapTail (format sum count : Nat) : Bytes := match format with
  | 2 => (leBytes 4 sum).reverse
  | 3 => leBytes 4 (0xFFFFFFFF - sum) ++ leBytes 4 (count % 2 ^ 32)
  | _ => []

end Sys2Proof.Machine
end

