-- ==== Sys2Proof/Machine/Buffers.lean ====
section
/-! DEFINITION. The buffer pools (R186-R190): handles, allocation against the quota, references, freeing, poison,
quarantine marks, leak records. -/

namespace Sys2Proof.Machine

open Sys2Proof

/-- Pool of a handle. -/
def hPool (h : W32) : Nat := fld h 31 30
/-- Owner of a handle. -/
def hOwner (h : W32) : Nat := fld h 29 24
/-- Index of a handle. -/
def hIdx (h : W32) : Nat := fld h 23 11
/-- Generation of a handle. -/
def hGen (h : W32) : Nat := fld h 10 3
/-- The handle of a buffer. -/
def mkHandle (pool owner idx gen : Nat) : W32 := put pool 31 30 ||| put owner 29 24 ||| put idx 23 11 ||| put gen 10 3

/-- Buffer size of a pool, bytes. -/
def poolBytes (p : Nat) : Nat := match p with
  | 0 => 512
  | 1 => 4096
  | 2 => 32768
  | _ => 262144
/-- Buffers of a pool. -/
def poolCount (p : Nat) : Nat := match p with
  | 0 => 2048
  | 1 => 4608
  | 2 => 384
  | _ => 64
/-- Byte offset of a pool in the shared buffer SRAM. -/
def poolBase (p : Nat) : Nat := match p with
  | 0 => 48234496
  | 1 => 29360128
  | 2 => 16777216
  | _ => 0
/-- Key of a buffer record. -/
def bufKey (pool idx : Nat) : Nat := pool * 8192 + idx
/-- Key of the buffer that a handle names. -/
def hKey (h : W32) : Nat := bufKey (hPool h) (hIdx h)
/-- First byte of a buffer in the SRAM. -/
def bufBase (pool idx : Nat) : Nat := poolBase pool + idx * poolBytes pool
/-- The buffer that holds a byte of the SRAM: pool and index; none in the ring areas' MiB. -/
def bufAt (o : Nat) : Option (Nat × Nat) :=
  if o < 16777216 then some (3, o / 262144)
  else if o < 29360128 then some (2, (o - 16777216) / 32768)
  else if o < 48234496 then some (1, (o - 29360128) / 4096)
  else if o < 49283072 then some (0, (o - 48234496) / 512)
  else none

/-- A buffer record. -/
def buf (s : State) (k : Nat) : Buf := tget s.bpm.bufs {} k
/-- Does a byte of the shared buffer SRAM lie in a free buffer? It reads as zero, and a write to it is discarded (R186). -/
def freeAt (s : State) (o : Nat) : Bool :=
  match bufAt o with
  | some (p, i) => (buf s (bufKey p i)).ref == 0
  | none => false

/-- Changes a buffer record. -/
def modBuf (s : State) (k : Nat) (f : Buf → Buf) : State := modBpm s (fun b => { b with bufs := tmod b.bufs {} k f })
/-- Is a buffer out of its pool: referenced, or freed and still being zeroed? -/
def bufOut (b : Buf) : Bool := b.ref != 0 || b.zeroing
/-- Pool number of a buffer key. -/
def keyPool (k : Nat) : Nat := k / 8192
/-- Free buffers of a pool (BPM_FREE_n). -/
def poolFree (s : State) (p : Nat) : Nat :=
  poolCount p - (s.bpm.bufs.filter (fun e => keyPool e.1 == p && bufOut e.2)).length
/-- Units of 512 bytes charged to a polder (BPM_USE_p). -/
def unitsUsed (s : State) (p : Nat) : Nat :=
  ((s.bpm.bufs.filter (fun e => e.2.owner == p && e.2.ref != 0)).map (fun e => poolBytes (keyPool e.1) / 512)).sum
/-- Units that a polder may hold (R187). -/
def quotaUnits (s : State) (p : Nat) : Nat :=
  if p = 0 then
    96256 - ((s.pol.tab.filter (fun e => e.1 != 0 && decide (e.2.st ≠ .empty))).map (fun e => fld e.2.own.bufq 13 0 * 8)).sum
  else fld (polder s p).own.bufq 13 0 * 8

/-- The free indices of a pool, ascending from `i`. -/
def freeIdx (bufs : Tbl Buf) (pool i : Nat) : Nat → List Nat
  | 0 => []
  | n + 1 => if bufOut (tget bufs {} (bufKey pool i)) then freeIdx bufs pool (i + 1) n
             else i :: freeIdx bufs pool (i + 1) n

/-- One of a list's elements, which one the spec does not say (assumption 3). -/
def pickOne (s : State) (l : List Nat) : Nat := l.getD (Config.freeNat s.freeCtr % l.length) (l.headD 0)

/-- The pool that an allocation takes: the smallest that is large enough and not empty (R187). -/
def poolFor (s : State) (size : Nat) : Option Nat :=
  [0, 1, 2, 3].find? (fun p => decide (size ≤ poolBytes p) && decide (0 < poolFree s p))

/-- Allocates a buffer for a polder (R187): none when no buffer can be taken within the quota now. -/
def allocBuf (s : State) (p size : Nat) (j : Option Nat) : Option (W32 × State) :=
  match poolFor s size with
  | none => none
  | some pool =>
    if unitsUsed s p + poolBytes pool / 512 ≤ quotaUnits s p then
      let i := pickOne s (freeIdx s.bpm.bufs pool 0 (poolCount pool))
      let s := (takeFree s).2
      let k := bufKey pool i
      let g := (buf s k).gen
      some (mkHandle pool p i g.toNat,
        modBuf s k (fun _ => { owner := p, gen := g, ref := 1, job := j, t := s.now }))
    else none

/-- Does a handle reference pass the BPM dike for a stamp (R186)? -/
def bufOk (s : State) (stamp : Nat) (h : W32) : Bool :=
  let b := buf s (hKey h)
  decide (hIdx h < poolCount (hPool h)) && (stamp == 0 || stamp == b.owner) && hOwner h == b.owner
    && hGen h == b.gen.toNat && b.ref != 0

/-- The whole content of a buffer. -/
def bufData (s : State) (h : W32) : Bytes := readBytes s.bpm.sram (bufBase (hPool h) (hIdx h)) (poolBytes (hPool h))
/-- Writes bytes to the start of a buffer and sets its fill. -/
def bufFill (s : State) (h : W32) (bs : Bytes) : State :=
  modBuf (sramWrite s (bufBase (hPool h) (hIdx h)) bs) (hKey h)
    (fun b => { b with fill := bs.length })
/-- The filled bytes of a buffer. -/
def bufFilled (s : State) (h : W32) : Bytes := (bufData s h).take (buf s (hKey h)).fill

/-- Frees a buffer (R188): the generation increments, the bytes are zeroed, and BUFFER_FREE_DONE returns it. -/
def freeBuf (s : State) (k : Nat) : State :=
  let s := modBuf s k (fun b => { gen := b.gen + 1, poison := b.poison, zeroing := true })
  let s := clearLines s sramInst sramLine (wholeBlocks (bufBase (keyPool k) (k % 8192)) (poolBytes (keyPool k)))
  modBpm s (fun b => { b with sram := zeroBytes b.sram (bufBase (keyPool k) (k % 8192)) (poolBytes (keyPool k)) })

/-- Drops one reference; at zero the buffer is freed (R188). A quarantined buffer keeps it until the verdict (R218). -/
def releaseRef (s : State) (h : W32) : State :=
  let k := hKey h
  let b := buf s k
  if b.ref = 0 then s
  else if b.quar ≠ [] then modBuf s k (fun b => { b with relWait := b.relWait + 1 })
  else if b.ref = 1 then freeBuf s k
  else modBuf s k (fun b => { b with ref := b.ref - 1 })

/-- Releases outputs that were not delivered as poisoned buffers (R192): marked poisoned, zeroed and freed. -/
def poisonFree (s : State) (hs : List W32) : State :=
  hs.foldl (fun s h => freeBuf (modBuf s (hKey h) (fun b => { b with poison := true, quar := [] })) (hKey h)) s

/-- Poisons a buffer that its reader may hold: zeroed, marked, kept (R220, R277). -/
def poisonKeep (s : State) (k : Nat) : State :=
  modBuf (modBpm s (fun b => { b with sram := zeroBytes b.sram (bufBase (keyPool k) (k % 8192)) (poolBytes (keyPool k)) })) k
    (fun b => { b with poison := true })

/-- Fills a fresh buffer with output (R218): it inherits the open quarantines of its input, and is scrubbed where one has failed. -/
def fillOut (s : State) (h : W32) (o : OutBuf) : State :=
  let s := modBuf (bufFill s h o.data) (hKey h) (fun b => { b with quar := o.quar.filter (fun q => s.isl.quars.any (fun e => e.1 == q)) })
  if o.quar.any (fun q => s.isl.failedQ.contains q) then poisonKeep s (hKey h) else s

/-- Cuts data into pieces of `n` bytes. -/
def chunks (n : Nat) (bs : Bytes) : Nat → List Bytes
  | 0 => []
  | f + 1 => if bs.isEmpty then [] else bs.take n :: chunks n (bs.drop n) f

/-- The output of a descriptor beyond the `sent` bytes that are cut already (R111, R181): up to 4 KiB in one buffer of the smallest
pool that holds it, more in 32 KiB buffers, the last partly filled; while the output still goes on, filled buffers only. -/
def cutOut (quar : List Nat) (lba sent : Nat) (out : Bytes) (last : Bool) : List OutBuf :=
  if last ∧ sent = 0 ∧ out.length ≤ 4096 then
    (if out.isEmpty then [] else [{ size := out.length, data := out, quar := quar, lba := lba }])
  else
    let rest := out.drop sent
    ((chunks 32768 rest (rest.length / 32768 + 1)).filter (fun d => last || d.length == 32768)).map
      (fun d => { size := 32768, data := d, quar := quar, lba := lba })

/-- One output buffer of at least `size` bytes. -/
def oneOut (size : Nat) (quar : List Nat) (out : Bytes) : List OutBuf := [{ size := size, data := out, quar := quar }]
/-- Bytes of output. -/
def outLen (os : List OutBuf) : Nat := (os.map (fun o => o.data.length)).sum

/-- Writes a leak record, keeping 64, and posts event 0x03 (R190). -/
def addLeak (s : State) (l : Leak) : State :=
  postVendor (modBpm s (fun b => { b with leaks := (if b.leaks.length < 64 then b.leaks else b.leaks.drop 1) ++ [l] })) 3

/-- The audit of R190 over the buffers that a test picks, owned by a polder: each is freed, and each pool in which one was
found gives a leak record. -/
def auditFree (s : State) (p : Nat) (pick : Buf → Bool) : State :=
  let hit := s.bpm.bufs.filter (fun e => e.2.ref != 0 && pick e.2)
  let s' := hit.foldl (fun s e => freeBuf s e.1) s
  [0, 1, 2, 3].foldl (fun s' pool =>
    let here := hit.filter (fun e => keyPool e.1 == pool)
    match here with
    | [] => s'
    | _ => addLeak s' { owner := p, pool := pool, out := here.length,
                        age := (here.map (fun e => s.now - e.2.t)).foldl max 0 }) s'

end Sys2Proof.Machine
end

