-- ==== Sys2Proof/Machine/FlashOps.lean ====
section
/-! DEFINITION. Flash channels, what their commands share: descriptor fields and checks (R273, R274), granule numbers
(R305), memory by byte cursor, completion records (R276, R277), block and die state (R283-R290). -/

namespace Sys2Proof.Machine

open Sys2Proof

/-! ## Granule numbers (R305) -/

/-- The granule number of a flash address. -/
def granNo (ch die plane block page slot : Nat) : Nat :=
  ((((ch * 16 + die) * 4 + plane) * 2730 + block) * 3072 + page) * 4 + slot
/-- Channel of a granule. -/
def gChan (g : Nat) : Nat := g / 2146959360
/-- Die of a granule. -/
def gDie (g : Nat) : Nat := g / 134184960 % 16
/-- Plane of a granule. -/
def gPlane (g : Nat) : Nat := g / 33546240 % 4
/-- Block of a granule. -/
def gBlock (g : Nat) : Nat := g / 12288 % 2730
/-- Page of a granule. -/
def gPage (g : Nat) : Nat := g / 4 % 3072
/-- Slot of a granule. -/
def gSlot (g : Nat) : Nat := g % 4
/-- Number of granules, the first reserved map value (R306). -/
def granEnd : Nat := 68702699520

/-- What a granule's cells hold, as an FLC delivers it: erased cells read 0xFF (R286). -/
def granRaw (s : State) (g : Nat) : Bytes :=
  let v := tget s.ftla.media {} g
  if v = {} then List.replicate 4096 255
  else if v.raw then v.data
  else Config.xtsEnc v.key v.lba (v.data.take 4096)

/-- The tweak of a block's second data unit, its 64 metadata bytes (R199). -/
def metaTweak (lba : Nat) : Nat := lba + 2 ^ 127

/-- The 64 metadata bytes of a granule's codeword: zeros under LBAF 0, else the block's second data unit (R199, R307). -/
def granMeta (s : State) (g : Nat) : Bytes :=
  let v := tget s.ftla.media {} g
  if v = {} then List.replicate 64 255
  else if v.raw then Config.rawMeta g v.data
  else if v.data.length ≤ 4096 then List.replicate 64 0
  else Config.xtsEnc v.key (metaTweak v.lba) (v.data.drop 4096)

/-! ## Descriptors -/

/-- A word of a descriptor. -/
def dw (d : FDesc) (n : Nat) : W32 := d.words.getD n 0
/-- Op. -/
def dOp (d : FDesc) : Nat := fld (dw d 0) 31 28
/-- Die. -/
def dDie (d : FDesc) : Nat := fld (dw d 0) 27 24
/-- Plane mask. -/
def dPlanes (d : FDesc) : Nat := fld (dw d 0) 23 20
/-- Mode: 0 QLC, 1 pSLC. -/
def dMode (d : FDesc) : Nat := fld (dw d 0) 19 18
/-- HOLDUP. -/
def dHoldup (d : FDesc) : Bool := bitOf (dw d 0) 17
/-- Tag. -/
def dTag (d : FDesc) : Nat := fld (dw d 0) 15 0
/-- Block. -/
def dBlock (d : FDesc) : Nat := fld (dw d 1) 31 20
/-- Page. -/
def dPage (d : FDesc) : Nat := fld (dw d 1) 19 8
/-- Polder. -/
def dPolder (d : FDesc) : Nat := fld (dw d 2) 31 26
/-- Busy limit. -/
def dLimit (d : FDesc) : Nat := fld (dw d 2) 23 12
/-- Destination kind 1: a cursor list. -/
def dList (d : FDesc) : Bool := bitOf (dw d 2) 0
/-- Granule mask. -/
def dGrans (d : FDesc) : Nat := fld (dw d 3) 31 16
/-- Page count of READ_CACHE. -/
def dCount (d : FDesc) : Nat := fld (dw d 3) 15 12 + 1
/-- Byte cursor of the list. -/
def dCursor (d : FDesc) : Nat := (dw d 4).toNat + 2 ^ 32 * fld (dw d 5) 3 0
/-- Is the op a read? -/
def dIsRead (d : FDesc) : Bool := decide (dOp d ≤ 2)

/-- Bit `n` of a number. -/
def nbit (v n : Nat) : Bool := v / 2 ^ n % 2 == 1
/-- The planes in a mask. -/
def planesOf (m : Nat) : List Nat := (List.range 4).filter (nbit m)

/-- Last page of a mode plus one. -/
def pagesOf (mode : Nat) : Nat := if mode = 1 then 768 else 3072

/-- Is a descriptor invalid at commit (R274)? -/
def dInvalid (d : FDesc) : Bool :=
  let op := dOp d
  let data := decide (op ≤ 3)
  let planes := dPlanes d
  decide (0xB ≤ op) || decide (2 ≤ dMode d)
  || decide (2729 < dBlock d) || decide (pagesOf (dMode d) ≤ dPage d)
  || (data && (decide (planes = 0) || (List.range 16).any (fun b => nbit (dGrans d) b && !nbit planes (b / 4))))
  || (op == 3 && (List.range 16).any (fun b => nbit planes (b / 4) && !nbit (dGrans d) b))
  || (op == 1 && (decide ((planesOf planes).length ≠ 1)
        || (List.range 16).any (fun b => nbit planes (b / 4) && !nbit (dGrans d) b)
        || dCount d == 1 || decide (pagesOf (dMode d) < dPage d + dCount d)))
  || (dHoldup d && !(op == 3 && dMode d == 1))
  || (op == 9 && decide (fld (dw d 6) 7 0 < 0x20))
  || bitOf (dw d 0) 16 || decide (fld (dw d 1) 7 0 ≠ 0) || decide (fld (dw d 2) 25 24 ≠ 0) || decide (fld (dw d 2) 11 1 ≠ 0)
  || decide (fld (dw d 3) 11 4 ≠ 0) || decide (fld (dw d 5) 31 4 ≠ 0) || decide (fld (dw d 6) 31 8 ≠ 0)

/-- The granules that a data descriptor names, with the completion mask bit of each, in mask or page order. -/
def dGranules (ch : Nat) (d : FDesc) : List (Nat × Nat) :=
  if dOp d = 1 then
    (List.range (dCount d)).flatMap (fun k => (planesOf (dPlanes d)).flatMap (fun p =>
      (List.range 4).map (fun sl => (k, granNo ch (dDie d) p (dBlock d) (dPage d + k) sl))))
  else ((List.range 16).filter (nbit (dGrans d))).map (fun b =>
    (b, granNo ch (dDie d) (b / 4) (dBlock d) (dPage d) (b % 4)))

/-! ## Memory by byte cursor (R122) -/

/-- First byte cursor of the shared buffer SRAM. -/
def sramCur : Nat := 0x4000000
/-- First byte cursor of the DRAM window. -/
def dramCur : Nat := 0x800000000

/-- First byte of the ring areas in the shared buffer SRAM. -/
def ringAreas : Nat := 49283072

/-- May a stamp access the byte at a cursor, at the BPM or DRC dike: the owner it meets, none where it passes. A ring's area is its
owning polder's. -/
def curBreach (s : State) (stamp cur : Nat) : Option (Nat × Nat) :=
  if sramCur ≤ cur ∧ cur < sramCur + 50331648 then
    match bufAt (cur - sramCur) with
    | some (p, i) => let o := (buf s (bufKey p i)).owner
                     if stamp = 0 ∨ (stamp = o ∧ (buf s (bufKey p i)).ref ≠ 0) then none else some (4, o)
    | none => let o := ringOwner s ((cur - sramCur - ringAreas) / 4096)
              if stamp = 0 ∨ stamp = o then none else some (4, o)
  else if dramCur ≤ cur ∧ cur < dramCur + dramSize then
    let o := dramOwner s (cur - dramCur)
    if stamp = 0 ∨ stamp = o then none else some (0x0B, o)
  else none

/-- The first bytes of a span of `n` bytes in each 512-byte block that it touches: no buffer and no owner changes inside a block. -/
def spanPoints (cur n : Nat) : List Nat :=
  cur :: ((List.range ((cur + n + 511) / 512 - (cur / 512 + 1))).map (fun i => (cur / 512 + 1 + i) * 512))

/-- The first point of a span that a stamp may not access, with the block and the owner it meets (R38, R275). -/
def spanBreach (s : State) (stamp cur n : Nat) : Option (Nat × Nat × Nat) :=
  (spanPoints cur n).findSome? (fun c => (curBreach s stamp c).map (fun o => (c, o)))

/-- Bytes at a cursor: of the SRAM or the DRAM window (SLM with its void blocks); zero elsewhere. -/
def curRead (s : State) (cur n : Nat) : Bytes :=
  if sramCur ≤ cur ∧ cur < sramCur + 50331648 then readBytes s.bpm.sram (cur - sramCur) n
  else if dramCur + slmBase ≤ cur ∧ cur < dramCur + imgBase then slmBytes s (cur - dramCur - slmBase) n
  else if dramCur ≤ cur ∧ cur < dramCur + dramSize then dramBytes s (cur - dramCur) n
  else List.replicate n 0

/-- Is a byte at a cursor poisoned or uncorrectable? -/
def curPoison (s : State) (cur : Nat) : Bool :=
  if sramCur ≤ cur ∧ cur < sramCur + 50331648 then
    lineBad s (sramInst (cur - sramCur)) (sramLine (cur - sramCur)) ||
    (match bufAt (cur - sramCur) with
     | some (p, i) => (buf s (bufKey p i)).poison
     | none => false)
  else if dramCur ≤ cur ∧ cur < dramCur + dramSize then
    dramBad s (cur - dramCur)
  else false

/-- Is any of `n` bytes at a cursor poisoned or uncorrectable? -/
def spanPoison (s : State) (cur n : Nat) : Bool := (touchBlocks cur n).any (fun b => curPoison s (64 * b))

/-- Accounts for a read by cursor that meets an uncorrectable or poisoned line: the first such line of the span (R356). -/
def ueCur (s : State) (cur n reader stamp : Nat) : State :=
  match (touchBlocks cur n).find? (fun b =>
    if sramCur ≤ 64 * b ∧ 64 * b < sramCur + 50331648 then lineBad s (sramInst (64 * b - sramCur)) (sramLine (64 * b - sramCur))
    else decide (dramCur ≤ 64 * b) && dramBad s (64 * b - dramCur)) with
  | none => s
  | some b =>
    if 64 * b < dramCur then ueRead s (sramInst (64 * b - sramCur)) (sramLine (64 * b - sramCur)) reader stamp
    else ueRead s (dramInst (64 * b - dramCur)) ((64 * b - dramCur) / 64) reader stamp

/-- Writes bytes to the shared buffer SRAM but for those in a free buffer, which discards them (R186). -/
def sramStore (s : State) (o : Nat) (bs : Bytes) : State :=
  (spanPoints o bs.length).foldl (fun s p =>
    if freeAt s p then s
    else sramWrite s p ((bs.drop (p - o)).take (min ((p / 512 + 1) * 512) (o + bs.length) - p))) s

/-- Writes bytes at a cursor. -/
def curWrite (s : State) (cur : Nat) (bs : Bytes) : State :=
  if sramCur ≤ cur ∧ cur < sramCur + 50331648 then sramStore s (cur - sramCur) bs
  else if dramCur + slmBase ≤ cur ∧ cur < dramCur + imgBase then slmWrite s (cur - dramCur - slmBase) bs
  else if dramCur ≤ cur ∧ cur < dramCur + dramSize then dramWrite s (cur - dramCur) bs
  else s

/-- The cursors of a list: one 8-byte entry each. -/
def curList (s : State) (d : FDesc) (n : Nat) : List Nat :=
  (List.range n).map (fun i => ofLe (curRead s (dCursor d + 8 * i) 8) % 2 ^ 36)

/-! ## Dies and blocks -/

/-- A die. -/
def die (s : State) (ch d : Nat) : Die := tget (flc s ch).dies {} d
/-- Changes a die. -/
def modDie (s : State) (ch d : Nat) (f : Die → Die) : State := modFlc s ch (fun c => { c with dies := tmod c.dies {} d f })
/-- Key of a block. -/
def blkKey (d plane block : Nat) : Nat := (d * 4 + plane) * 2730 + block
/-- State of a block. -/
def blk (s : State) (ch d plane block : Nat) : Blk := tget (flc s ch).blks {} (blkKey d plane block)
/-- Changes a block. -/
def modBlk (s : State) (ch d plane block : Nat) (f : Blk → Blk) : State :=
  modFlc s ch (fun c => { c with blks := tmod c.blks {} (blkKey d plane block) f })
/-- Changes the blocks of a descriptor on every plane of its mask. -/
def modBlks (s : State) (ch : Nat) (d : FDesc) (f : Blk → Blk) : State :=
  (planesOf (dPlanes d)).foldl (fun s p => modBlk s ch (dDie d) p (dBlock d) f) s

/-- OPEN blocks on one plane of a die. -/
def openBlks (s : State) (ch d plane : Nat) : List Blk :=
  ((flc s ch).blks.filter (fun e => decide (e.1 / 2730 = d * 4 + plane) && e.2.st == .opened)).map Prod.snd

/-- tPROG max of a mode, µs (R301). -/
def tprogMax (mode : Nat) : Nat := if mode = 1 then 200 else 2400
/-- Remaining time of the program on a die (R290, R291). -/
def progRemaining (s : State) (ch d : Nat) : Nat :=
  let v := die s ch d
  match v.run with
  | some r => if dOp r = 3 then tprogMax (dMode r) - (s.now - v.t) else 0
  | none => 0

/-! ## Shares of a die's time (R280) -/

/-- Typical die time of a command in tenths of a µs, the cost of the round-robin (R280, R301). -/
def dieCost (d : FDesc) : Nat :=
  let tR := if dMode d = 1 then 300 else 700
  match dOp d with
  | 0 => tR
  | 1 => dCount d * tR
  | 2 => tR
  | 3 => if dMode d = 1 then 1500 else 22000
  | 4 => 120000
  | 5 => 250
  | 6 => 50
  | 7 => 100
  | 8 => 10
  | 9 => 10
  | _ => 1

/-- The weighted deficit round-robin among polders in cyclic order, each with the cost of its oldest descriptor: a visit adds
100 µs for each unit of weight, and the first polder whose deficit covers its cost is served (R46, R280). -/
def drrGo (key : Nat → Nat) (weight : Nat → Nat) : Nat → List (Nat × Nat) → Tbl Nat → Option (Nat × Nat × Tbl Nat)
  | 0, _, _ => none
  | _, [], _ => none
  | n + 1, (p, cost) :: r, t =>
    let have_ := tget t 0 (key p) + 1000 * weight p
    if cost ≤ have_ then some (p, cost, tset t 0 (key p) have_)
    else drrGo key weight n (r ++ [(p, cost)]) (tset t 0 (key p) have_)

/-- The polder that queue `q` serves next among descriptors waiting for a die, the cost, and the deficits before it is charged. The
polder served last goes on while its deficit covers its next descriptor; the visits go upward by polder number. A polder of weight
0 is served while none of another weight waits (R47). -/
def drrPick (s : State) (ch dd q : Nat) (ws : List FDesc) : Option (Nat × Nat × Tbl Nat) :=
  let v := die s ch dd
  let mine := ws.filter (fun d => d.q == q)
  let w := fun (p : Nat) => (polder s p).weight.toNat
  let all := (List.range 64).filterMap (fun p => (mine.find? (fun d => dPolder d == p)).map (fun d => (p, dieCost d)))
  let heavy := all.filter (fun e => decide (w e.1 ≠ 0))
  let cs := if heavy.isEmpty then all else heavy
  let weight := fun (p : Nat) => if heavy.isEmpty then 1 else w p
  let last := tget v.turn 0 q
  match cs.find? (fun e => e.1 == last && decide (e.2 ≤ tget v.deficit 0 (q * 64 + e.1))) with
  | some e => some (e.1, e.2, v.deficit)
  | none => drrGo (fun p => q * 64 + p) weight 8192 (cs.filter (fun e => decide (last < e.1)) ++ cs.filter (fun e => decide (e.1 ≤ last)))
      v.deficit

/-! ## Completions -/

/-- What a completion record says beside status and tag. -/
structure FInfo where
  mask : Nat := 0
  withdrawn : Bool := false
  erased : Bool := false
  soft : Bool := false
  retry : Bool := false
  limit : Bool := false
  bits : Nat := 0
  w2 : W32 := 0
  set : Nat := 0

/-- Writes one record to the completion queue in DRAM (R276). -/
def flcRecord (s : State) (ch : Nat) (r : List W32) : State :=
  let c := flc s ch
  let a := c.cqBase.toNat * 8192 + c.cqProd.toNat % 512 * 16
  let s := dramWrite s a (r.flatMap (fun w => leBytes 4 w.toNat))
  setRaw (modFlc s ch (fun c => { c with cqProd := c.cqProd + 1 })) (frameOf 9 ch 0) 0

/-- Is the completion queue full (R276)? -/
def flcFull (c : Flc) : Bool := c.cqProd - c.cqCons == 512

/-- What FTLA does with a descriptor of its own port that ends without its data or its pulse: a read is marked withdrawn,
so that READ_AROUND serves it; staged writes lose their place (R26, R320). -/
def ftlaBack (s : State) (d : FDesc) : State :=
  modFtla s (fun f => { f with
    reads := f.reads.map (fun r => if d.reqs.any (fun q => q.1 == r.id) then { r with withdrawn := true } else r),
    staging := f.staging.map (fun e => if d.units.any (fun u => u.1 == e.seq) then { e with placed := none } else e) })

/-- Completes a descriptor: to FTLA when its port pushed it, else to the completion queue or to the held ones (R276). -/
def flcComplete (s : State) (ch : Nat) (d : FDesc) (status : Nat) (i : FInfo := {}) : State :=
  if d.ftla then (if status = 0 ∧ i.withdrawn = false then s else ftlaBack s d)
  else
    let iss := if d.issued = 0 then s.now else d.issued
    let r := [ put status 31 24 ||| put (dOp d) 23 20 ||| put (dDie d) 19 16 ||| put (dTag d) 15 0,
               put i.mask 31 16 ||| putB i.withdrawn 15 ||| putB i.erased 14 ||| putB i.soft 13 ||| putB i.retry 12
                 ||| putB i.limit 11 ||| put (satN 8 i.bits) 7 0,
               i.w2,
               put (satN 16 (if d.issued = 0 then 0 else s.now - iss)) 31 16 ||| put i.set 15 12 ||| put (satN 12 (iss - d.t)) 11 0 ]
    if flcFull (flc s ch) || !(flc s ch).held.isEmpty then modFlc s ch (fun c => { c with held := c.held ++ [r] })
    else flcRecord s ch r

/-- Base and size of queue `q`. -/
def dqBase (c : Flc) (q : Nat) : BitVec 8 × BitVec 9 :=
  match q with
  | 0 => c.base0
  | 1 => c.base1
  | 2 => c.base2
  | _ => c.base3

/-- Descriptors waiting in queue `q`. -/
def dqUsed (c : Flc) (q : Nat) : Nat := (c.queue.filter (fun d => d.q == q)).length

/-- Has queue `q` a free slot (R273)? -/
def dqRoom (c : Flc) (q : Nat) : Bool := decide (dqUsed c q < (dqBase c q).2.toNat)

/-- Does a suspended erase of a die hold the descriptor's block (R287)? -/
def onSuspended (v : Die) (d : FDesc) : Bool :=
  match v.susp with
  | some (e, _) => v.st != .suspending && dBlock e == dBlock d && (planesOf (dPlanes d)).any (nbit (dPlanes e))
  | none => false

/-- Commits a checked descriptor to the tail of its queue, in the next of its slots: a latched brown-out refuses it; a read of a suspended block ends at
once; a read over its busy limit is withdrawn (R273, R287, R290, R295). -/
def flcCommit (s : State) (ch : Nat) (d : FDesc) : State :=
  let slot := (dqBase (flc s ch) d.q).1.toNat + (tget (flc s ch).committed 0 d.q).toNat % max 1 (dqBase (flc s ch) d.q).2.toNat
  let d := { d with t := s.now, slot := slot }
  let s := setLine s (129 + ch) slot 0
  let s := modFlc s ch (fun c => { c with committed := tmod c.committed 0 d.q (· + 1) })
  if (flc s ch).brownout && !dHoldup d && dOp d != 0xA then flcComplete s ch d 0x25
  else if dIsRead d && onSuspended (die s ch (dDie d)) d then flcComplete s ch d 0x21
  else if dIsRead d && decide (dLimit d ≠ 0) && decide (dLimit d < progRemaining s ch (dDie d)) then
    flcComplete s ch d 0 { withdrawn := true }
  else modFlc s ch (fun c => { c with queue := c.queue ++ [d] })

/-- FTLA's waiting descriptors enter the queues that have room, each queue's in order (assumption 69). -/
def flcAdmit (s : State) (ch : Nat) : Nat → State
  | 0 => s
  | n + 1 =>
    match (flc s ch).backlog.find? (fun d => dqRoom (flc s ch) d.q) with
    | none => s
    | some d => flcAdmit (flcCommit (modFlc s ch (fun c => { c with backlog := c.backlog.erase d })) ch d) ch n

/-- A commit through FTLA's port: FTLA commits to no full queue, its descriptor waits for room (R273; DESIGN CHOICE,
assumption 69). -/
def ftlaCommit (s : State) (ch : Nat) (d : FDesc) : State :=
  if dqRoom (flc s ch) d.q && !(flc s ch).backlog.any (fun x => x.q == d.q) then flcCommit s ch d
  else modFlc s ch (fun c => { c with backlog := c.backlog ++ [d] })

/-- Removes a queued descriptor; what waited for its slot takes it. -/
def flcDequeue (s : State) (ch : Nat) (d : FDesc) : State :=
  flcAdmit (modFlc s ch (fun c => { c with queue := c.queue.erase d })) ch (flc s ch).backlog.length

/-- Withdraws the waiting reads of a die whose busy limit the program just started exceeds (R290). -/
def withdrawReads (s : State) (ch d : Nat) : State :=
  let rem := progRemaining s ch d
  let hit := (flc s ch).queue.filter (fun x => dIsRead x && dDie x == d && decide (dLimit x ≠ 0) && decide (dLimit x < rem))
  hit.foldl (fun s x => flcComplete (flcDequeue s ch x) ch x 0 { withdrawn := true }) s

/-- Ends the waiting reads of a block whose erase has just been suspended (R287). -/
def refuseSuspended (s : State) (ch d : Nat) : State :=
  let hit := (flc s ch).queue.filter (fun x => dIsRead x && dDie x == d && onSuspended (die s ch d) x)
  hit.foldl (fun s x => flcComplete (flcDequeue s ch x) ch x 0x21) s

/-- Does a queued or issued descriptor name a block, a suspended erase among them (R285)? -/
def blkTargeted (s : State) (ch d plane block : Nat) : Bool :=
  let names := fun (x : FDesc) => decide (dOp x ≤ 4) && dDie x == d && dBlock x == block && nbit (dPlanes x) plane
  let v := die s ch d
  (flc s ch).queue.any names || v.run.any names || (v.susp.map Prod.fst).any names

end Sys2Proof.Machine
end

