-- ==== Sys2Proof/Machine/MapOps.lean ====
section
/-! DEFINITION. Translation, what its commands share: the map and its special values (R303-R307), the journal
(R312-R314), lookups with lookaside, cache and map-page reads (R310), reads of logical blocks (R24, R112), protected
staging (R22, R376), the progress of fetched commands. -/

namespace Sys2Proof.Machine

open Sys2Proof

/-- Entries of the map (R303). -/
def mapEnd : Nat := 56152343750
/-- Map value unmapped. -/
def vUnmapped : Nat := 0xFFFFFFFFF
/-- Map value deallocated. -/
def vDealloc : Nat := 0xFFFFFFFFE
/-- Map value lost. -/
def vLost : Nat := 0xFFFFFFFFD
/-- Map value zeroed. -/
def vZeroed : Nat := 0xFFFFFFFFC

/-- A map entry. -/
def mapGet (s : State) (l : Nat) : Nat := tget s.ftla.map vUnmapped l
/-- A namespace. -/
def nsOf (s : State) (n : Nat) : Option Ns := tget s.ftla.nss none n

/-- Entry `n` of concatenated segments of map pages (R304). -/
def segIdx : List (Nat × Nat) → Nat → Option Nat
  | [], _ => none
  | (p, k) :: r, n => if n < k * 1024 then some (p * 1024 + n) else segIdx r (n - k * 1024)

/-- The entry that a logical index is of concatenated segments: the inverse of `segIdx` (R304). -/
def segLba : List (Nat × Nat) → Nat → Nat
  | [], _ => 0
  | (p, k) :: r, l => if p ≤ l / 1024 ∧ l / 1024 < p + k then l - p * 1024 else k * 1024 + segLba r l

/-- The logical index of a namespace's LBA. -/
def lidx (v : Ns) (lba : Nat) : Option Nat := if lba < v.blocks then segIdx v.segs lba else none

/-- The namespace whose segments hold a logical index. -/
def nsOfIdx (s : State) (l : Nat) : Option Nat :=
  match s.ftla.nss.find? (fun e => match e.2 with
      | some v => v.segs.any (fun g => decide (g.1 ≤ l / 1024) && decide (l / 1024 < g.1 + g.2))
      | none => false) with
  | some e => some e.1
  | none => none

/-! ## Journal -/

/-- Words 2 and 3 of a MAP or TRIM record: the logical index and the high parts of new and old. -/
def mapWords (l new old : Nat) : W32 × W32 :=
  (BitVec.ofNat 32 l, put (l / 2 ^ 32) 31 28 ||| put (new / 2 ^ 32) 27 24 ||| put (old / 2 ^ 32) 23 20)

/-- Has the effect of a record reached flash or its MRAM table (R314)? A HOLDUP record stays until its drain release. -/
def durable (s : State) (r : JRec) : Bool :=
  if r.typ ≤ 3 then
    let l := (r.w.getD 0 0).toNat + 2 ^ 32 * fld (r.w.getD 1 0) 31 28
    let n := if r.typ = 3 then (r.w.getD 2 0).toNat else 1
    (List.range ((l + n - 1) / 1024 + 1 - l / 1024)).all (fun i =>
      let p := tget s.ftla.pages {} (l / 1024 + i)
      !p.dirty || decide (r.seq < p.seqLo))
  else if r.typ = 7 ∧ (r.w.getD 1 0).toNat ≠ 0 then
    s.ftla.journal.any (fun x => x.typ == 7 && decide (r.seq < x.seq) && x.w.getD 1 0 == 0)
  else true

/-- The tail passes every record whose effect is durable, in order (R314). -/
def trimJournal (s : State) : State :=
  modFtla s (fun f => { f with journal := f.journal.dropWhile (durable s) })

/-- Is the journal full (R314)? -/
def jFull (s : State) : Bool := decide (393216 ≤ s.ftla.journal.length)

/-- Writes a journal record: the sequence number, and the write-back mark of R314. -/
def journalAdd (s : State) (typ : Nat) (w : List W32) : State :=
  modFtla s (fun f => { f with
    journal := f.journal ++ [{ typ := typ, seq := f.jseq, w := w }], jseq := f.jseq + 1,
    writeback := decide (196608 ≤ f.journal.length + 1) })

/-- Sets a map entry whose record has sequence `q`: the page becomes dirty (R310). -/
def mapPut (s : State) (l v q : Nat) : State :=
  modFtla s (fun f => { f with
    map := tset f.map vUnmapped l v,
    pages := tmod f.pages {} (l / 1024) (fun p => { p with dirty := true, seqLo := if p.dirty then p.seqLo else q }) })

/-- A MAP record of a staged write: journalled, applied unless an older staging sequence than one already applied since
the page's last write-back (R313); answers whether it applied. -/
def mapRecord (s : State) (l new stg : Nat) : Bool × State :=
  let old := mapGet s l
  let (w2, w3) := mapWords l new old
  let q := s.ftla.jseq
  if stg < tget s.ftla.applied 0 l then (false, s)
  else
    let s := journalAdd s 1 [w2, w3, BitVec.ofNat 32 new, BitVec.ofNat 32 old, BitVec.ofNat 32 stg]
    let s := mapPut s l new q
    (true, modFtla s (fun f => { f with applied := tset f.applied 0 l stg }))

/-- A TRIM record: `n` entries from `l` take a special value (R312). -/
def trimRecord (s : State) (l n v : Nat) : State :=
  let (w2, w3) := mapWords l 0 0
  let q := s.ftla.jseq
  let s := journalAdd s 3 [w2, w3, BitVec.ofNat 32 n, BitVec.ofNat 32 v, put (v / 2 ^ 32) 3 0]
  (List.range n).foldl (fun s i => mapPut s (l + i) v q) s

/-- The logical indices of LBA ranges, as runs of consecutive indices. -/
def runsOf (v : Ns) (ranges : List (Nat × Nat)) : List (Nat × Nat) :=
  (ranges.flatMap (fun r => (List.range r.2).filterMap (fun i => lidx v (r.1 + i)))).foldl (fun acc l =>
    match acc with
    | (b, n) :: t => if b + n = l then (b, n + 1) :: t else (l, 1) :: (b, n) :: t
    | [] => [(l, 1)]) [] |>.reverse

/-- A BLOCK record: superblock, member channel, plane mask, event (R312), with the erase counts. -/
def blockEvent (s : State) (sb ch planes ev : Nat) : State :=
  let b := tget s.ftla.sbs {} sb
  let s := journalAdd s 5 [put sb 15 0 ||| put ch 20 16 ||| put planes 24 21 ||| put ev 31 28,
                           BitVec.ofNat 32 b.qlc, BitVec.ofNat 32 b.pslc, 0, 0]
  modFtla s (fun f => { f with sbs := tmod f.sbs {} sb (fun b =>
    if ev = 6 then { b with absent := b.absent ||| BitVec.ofNat 32 (2 ^ ch) } else { b with ev := ev }) })

/-- Absent members of a superblock. -/
def absentCount (b : Sb) : Nat := ((List.range 32).filter (fun c => b.absent.getLsbD c)).length

/-- A BLOCK record; a superblock with more than 16 absent members is retired (R317). -/
def blockRecord (s : State) (sb ch planes ev : Nat) : State :=
  let s := blockEvent s sb ch planes ev
  let b := tget s.ftla.sbs {} sb
  if 16 < absentCount b ∧ b.ev ≠ 7 then blockEvent s sb ch planes 7 else s

/-! ## Staging -/

/-- The newer of two staged writes: the one with the higher sequence number (R24). -/
def newerStaged (b : Option Staged) (e : Staged) : Option Staged :=
  match b with
  | none => some e
  | some x => if x.seq ≤ e.seq then some e else some x
/-- The newest staged write of a logical index (R24). -/
def stagedOf (s : State) (l : Nat) : Option Staged := (s.ftla.staging.filter (fun e => e.lidx == l)).foldl newerStaged none
/-- Bytes of protected staging in use. -/
def occupancy (s : State) : Nat := (s.ftla.staging.map (fun e => e.data.length)).sum
/-- The DRAM offset of a staged write (assumption 22). -/
def stagedOff (e : Staged) : Nat := stagingBase + e.seq % 1048576 * 4096
/-- Is the staged copy lost to an uncorrectable DRAM read (R356)? -/
def stagedLost (s : State) (e : Staged) : Bool :=
  (List.range 64).any (fun i => dramBad s (stagedOff e + 64 * i))
/-- A staged copy reads as uncorrectable: its logical block becomes lost, which is journalled; the copy and older ones of the
block are gone (R306, R356). -/
def loseStaged (s : State) (e : Staged) (reader : Nat) : State :=
  let s := trimRecord (ueCur s (dramCur + stagedOff e) 4096 reader 0) e.lidx 1 vLost
  modFtla s (fun f => { f with
    applied := tset f.applied 0 e.lidx e.seq,
    staging := f.staging.filter (fun d => !(d.lidx == e.lidx && decide (d.seq ≤ e.seq))) })
/-- May `n` more bytes enter protected staging (R376)? -/
def fits (s : State) (n : Nat) : Bool := decide (occupancy s + n ≤ s.nrg.limit * 1048576)

/-- Step 2 of a host write: the block enters protected staging under the next sequence number. -/
def stage (s : State) (nsid lba l p ord : Nat) (d : Bytes) : State :=
  modFtla s (fun f => { f with
    stageSeq := f.stageSeq + 1,
    staging := f.staging ++ [{ seq := f.stageSeq + 1, nsid := nsid, lba := lba, lidx := l, polder := p, data := d, ord := ord,
                               t := s.now }] })

/-! ## Reads of logical blocks -/

/-- The plaintext of a granule under a key pair at an LBA, with the metadata unit where the block's format has one: what was written
under them, else what XTS decryption of the stored ciphertext gives (R199, R200). -/
def granOpen (s : State) (g key lba : Nat) (meta_ : Bool) : Bytes :=
  let v := tget s.ftla.media {} g
  if v ≠ {} ∧ v.raw = false ∧ v.key = key ∧ v.lba = lba then (if meta_ then v.data else v.data.take 4096)
  else Config.xtsDec key lba (granRaw s g) ++ (if meta_ then Config.xtsDec key (metaTweak lba) (granMeta s g) else [])

/-- The plaintext that the media path gives for a granule of a logical index: its namespace's key pair, its LBA (R199). -/
def granPlain (s : State) (l g : Nat) : Bytes :=
  match nsOfIdx s l with
  | none => granOpen s g 0 l false
  | some n =>
    match nsOf s n with
    | none => granOpen s g 0 l false
    | some v => granOpen s g (tget s.isl.media 0 n) (segLba v.segs l) (decide (v.lbaf ≠ 0))

/-- Pushes a READ_PAGE of one granule through FTLA's port (R320: queue 0 with the read-around threshold; queue 1 for map
pages). -/
def pushRead (s : State) (id g pol q limit : Nat) (mask : Nat) : State :=
  let ws := [ put (gDie g) 27 24 ||| put (2 ^ gPlane g) 23 20 ||| put id 15 0,
              put (gBlock g) 31 20 ||| put (gPage g) 19 8,
              put pol 31 26 ||| put limit 23 12,
              put mask 31 16, 0, 0, 0, 0 ]
  ftlaCommit s (gChan g) { words := ws, q := q, ftla := true, reqs := [(id, 4 * gPlane g + gSlot g)] }

/-- Has FTLA marked the die of a granule failed (R331)? -/
def failedMember (s : State) (g : Nat) : Bool :=
  (match s.ftla.fail with
   | some (k, ch, d, _) => decide (ch = gChan g) && (k == 2 || d == gDie g)
   | none => false)
  || (die s (gChan g) (gDie g)).failed || (flc s (gChan g)).rate == 3

/-- The busy limit of host and extent reads: the threshold of feature 0xC4, 0 while read-around is off (R320). -/
def readLimit (s : State) : Nat := if s.host.raEn then s.host.raThreshold else 0

/-- The channel that keeps P of the rows of a page index of a superblock: (s + p) mod 32, or the next present one upward (R316). -/
def parityChan (s : State) (sb page : Nat) : Nat :=
  let v := tget s.ftla.sbs {} sb
  let c0 := (sb + page) % 32
  (((List.range 32).map (fun i => (c0 + i) % 32)).find? (fun c => !v.absent.getLsbD c)).getD c0

/-- The granule of another channel in a granule's place. -/
def peerGran (g c : Nat) : Nat := granNo c (gDie g) (gPlane g) (gBlock g) (gPage g) (gSlot g)

/-- Is a granule's row in its superblock's Q window (R318)? -/
def inWindow (s : State) (g : Nat) : Bool :=
  (tget s.ftla.sbs {} (gDie g * 2730 + gBlock g)).window.contains (gPage g)

/-- Has a granule's row its P programmed, or is the granule itself P (R316, R319)? -/
def parityThere (s : State) (g : Nat) : Bool :=
  let c := parityChan s (gDie g * 2730 + gBlock g) (gPage g)
  c == gChan g || decide (tget s.ftla.media {} (peerGran g c) ≠ {})

/-- Members of a granule's row that cannot give their granule: undecodable or failed; for a P that is not programmed its accumulator
stands in (R320). -/
def rowMissing (s : State) (g : Nat) : Nat :=
  let sb := tget s.ftla.sbs {} (gDie g * 2730 + gBlock g)
  let p := parityChan s (gDie g * 2730 + gBlock g) (gPage g)
  ((List.range 32).filter (fun c =>
    let v := tget s.ftla.media {} (peerGran g c)
    c != gChan g && !sb.absent.getLsbD c && !(c == p && decide (v = {})) && (v.bad || failedMember s (peerGran g c)))).length

/-- Can stripe parity rebuild a granule: its peers all readable and P programmed or accumulated in the window, or one peer missing
inside the Q window (R319, R320, R321, R332)? -/
def canRebuild (s : State) (g : Nat) : Bool :=
  (decide (rowMissing s g = 0) && (parityThere s g || inWindow s g)) || (decide (rowMissing s g = 1) && inWindow s g)

/-- How a logical block is found. -/
inductive Got where
  /-- its data -/
  | data (b : Bytes)
  /-- reads as zeros: unmapped or deallocated -/
  | unwritten
  | zeroed
  | lost
  /-- on flash, at this granule -/
  | flash (g : Nat)
  /-- its map page must be read first -/
  | mapPage

/-- Notes a lookaside entry, keeping 262,144. -/
def laAdd (s : State) (l : Nat) : State := modFtla s (fun f => { f with la := (l :: f.la).take 262144 })

/-- First cache slot that touches self-refresh segments 1 to 3, and first after them (R309, R338). -/
def dropFirst : Nat := 699051
/-- First cache slot after them. -/
def dropEnd : Nat := 3145728
/-- Does a cache slot touch segments 1 to 3? -/
def slotDropped (n : Nat) : Bool := decide (dropFirst ≤ n) && decide (n < dropEnd)
/-- FTLA places no page in segments 1 to 3: in PS4 and PS5, and until they are initialised (R348, R349). -/
def avoidDropped (s : State) : Bool := s.drc.init || s.drc.selfref
/-- Slots that may take a page. -/
def cacheRoom (s : State) : Nat :=
  let n := s.ftla.cache.toNat
  if avoidDropped s then (if n ≤ dropFirst then n else if n ≤ dropEnd then dropFirst else n - (dropEnd - dropFirst)) else n

/-- Is every cache slot taken by a dirty page (R311)? -/
def cacheDirty (s : State) : Bool :=
  let used := s.ftla.pages.filter (fun e => e.2.cached)
  decide (cacheRoom s ≤ used.length) && used.all (fun e => e.2.dirty)

/-- Puts a map page into the cache: a clean page that was used longest ago leaves while the slots are full; while they all hold dirty
pages the page stays outside until one is written back (R311). -/
def cachePage (s : State) (pg : Nat) : State :=
  let used := s.ftla.pages.filter (fun e => e.2.cached)
  if cacheDirty s then s else
  let s :=
    if used.length < cacheRoom s then s
    else
      match (used.filter (fun e => !e.2.dirty)) with
      | [] => s
      | e :: r =>
        let old := r.foldl (fun m e => if e.2.use < m.2.use then e else m) e
        modFtla s (fun f => { f with pages := tmod f.pages {} old.1 (fun p => { p with cached := false }) })
  let slots := (s.ftla.pages.filter (fun e => e.2.cached)).map (fun e => e.2.slot)
  let nth := fun (i : Nat) => if avoidDropped s && decide (dropFirst ≤ i) then i + (dropEnd - dropFirst) else i
  let slot := (((List.range (slots.length + 1)).map nth).find? (fun i => !slots.contains i)).getD 0
  modFtla s (fun f => { f with
    uses := f.uses + 1,
    pages := tmod f.pages {} pg (fun p => { p with cached := true, slot := slot, use := f.uses + 1 }) })

/-- The value of a map entry as a find. -/
def gotOf (s : State) (l : Nat) : Got :=
  let v := mapGet s l
  if v < granEnd then .flash v
  else if v = vUnmapped ∨ v = vDealloc then .unwritten
  else if v = vZeroed then .zeroed
  else .lost

/-- The first 64-byte block of DRAM that holds a cached map entry and reads as uncorrectable: 1,024 entries of a slot packed two to
nine bytes (R308, R309). -/
def entryBad (s : State) (slot l : Nat) : Option Nat :=
  (touchBlocks (536870912 + slot * 4608 + l % 1024 / 2 * 9) 9).find? (fun b => dramBad s (64 * b))

/-- FTLA reads an uncorrectable block of DRAM: counted, and written anew (R356). -/
def ftlaUe (s : State) (b : Nat) : State := setLine (ueRead s (dramInst (64 * b)) b 6 0) (dramInst (64 * b)) b 0

/-- A directory entry that reads as uncorrectable is rebuilt from its directory page and the journal (R309, R356). -/
def dirRead (s : State) (pg : Nat) : State := if dramBad s (8 * pg) then ftlaUe s (8 * pg / 64) else s

/-- A cached page whose entry reads as uncorrectable leaves the cache: it is read from flash again, with its journal records replayed
(R356). -/
def slotRead (s : State) (l : Nat) : State :=
  let p := tget s.ftla.pages {} (l / 1024)
  if !p.cached then s
  else
    match entryBad s p.slot l with
    | none => s
    | some b => modFtla (ftlaUe s b) (fun f => { f with pages := tmod f.pages {} (l / 1024) (fun p => { p with cached := false }) })

/-- Looks a logical index up: staging first (R24), then lookaside, map cache, and else the page must be read (R310). A
reserved value reads as lost and is reported (R306). -/
def look (s : State) (l : Nat) : Got × State :=
  match stagedOf s l with
  | some e => if stagedLost s e then (.lost, loseStaged s e 5) else (.data e.data, s)
  | none =>
    let rep := fun (s : State) =>
      if granEnd ≤ mapGet s l ∧ mapGet s l < vZeroed then report s 6 128 0x0A 0 (hdr s (frameOf 0x0A 0 0)).errCode.toNat 0 else s
    if s.ftla.la.contains l then (gotOf s l, rep s)
    else
      let s := slotRead (dirRead (modFtla s (fun f => { f with laMiss := satInc f.laMiss })) (l / 1024)) l
      let p := tget s.ftla.pages {} (l / 1024)
      if p.cached then
        (gotOf s l, rep (modFtla (laAdd s l) (fun f => { f with
          uses := f.uses + 1,
          pages := tmod f.pages {} (l / 1024) (fun p => { p with use := f.uses + 1 }) })))
      else
        let s := modFtla s (fun f => { f with mcMiss := satInc f.mcMiss })
        match p.loc with
        | none => (gotOf s l, rep (laAdd (cachePage s (l / 1024)) l))
        | some _ => (.mapPage, s)

/-- The result of a block for its reader: data, or unreadable, or unwritten; none while it waits for flash. -/
structure Piece where
  data : Bytes := []
  bad : Bool := false
  unwritten : Bool := false

/-- A zero block. -/
def zeroBlock : Bytes := List.replicate 4096 0

/-- Reads a logical block for a waiter: at once from staging or a special entry, else through a flash read that the waiter waits
for; a read of a failed member goes straight to READ_AROUND, with no withdrawal (R331). -/
def readBlock (s : State) (who : Waiter) (pol l : Nat) : Option Piece × State :=
  let (g, s) := look s l
  match g with
  | .data b => (some { data := b }, s)
  | .unwritten => (some { data := zeroBlock, unwritten := true }, s)
  | .zeroed => (some { data := zeroBlock }, s)
  | .lost => (some { bad := true }, s)
  | .flash gr =>
    let id := s.ftla.nextRd
    let lost := failedMember s gr
    let s := modFtla s (fun f => { f with
      nextRd := f.nextRd + 1,
      reads := f.reads ++ [{ id := id, who := who, lidx := l, gran := gr, polder := pol, withdrawn := lost, again := lost }] })
    (none, if lost then s else pushRead s id gr pol 0 (readLimit s) (2 ^ (4 * gPlane gr + gSlot gr)))
  | .mapPage =>
    let pg := l / 1024
    let id := s.ftla.nextRd
    let s := modFtla s (fun f => { f with
      nextRd := f.nextRd + 1,
      reads := f.reads ++ [{ id := id, who := who, lidx := l, polder := pol, page := true }] })
    if s.ftla.reads.any (fun r => r.who == .page pg) then (none, s)
    else
      let loc := ((tget s.ftla.pages {} pg).loc).getD 0
      let pid := s.ftla.nextRd
      let gr := loc / 4 * 4
      let lost := failedMember s gr
      let s := modFtla s (fun f => { f with
        nextRd := f.nextRd + 1,
        reads := f.reads ++ [{ id := pid, who := .page pg, lidx := pg * 1024, gran := gr, withdrawn := lost, again := lost }] })
      (none, if lost then s else pushRead s pid gr 0 1 0 (15 * 2 ^ (4 * gPlane gr)))

/-! ## Progress of fetched commands -/

/-- Data bytes of a part. -/
def partData (p : Part) : Bytes := p.data.getD []
/-- Are all parts delivered? -/
def partsDone (c : Cmd) : Bool := c.parts.all (fun p => p.data.isSome || p.bad)
/-- Does the controller report deallocated blocks as errors (feature 0x05, DULBE)? -/
def dulbe (s : State) (fn : Nat) : Bool := (tget (ctrl s fn).feats 0 5).getLsbD 16

/-- Bytes of a logical block with its metadata (R67). -/
def blockLen (v : Ns) : Nat := if v.lbaf = 0 then 4096 else 4160

/-- Bytes of protection information at the end of the metadata: 8 with a 16-bit guard, 16 with a 64-bit one (R67). -/
def piLen (v : Ns) : Nat := if v.lbaf = 2 then 16 else 8
/-- The guard that a stored block holds, at the start of its protection information (assumption 5). -/
def piGuardOf (v : Ns) (b : Bytes) : Nat := ofBe (span b (4160 - piLen v) (if v.lbaf = 2 then 8 else 2))
/-- Bytes of a reference tag, at the end of the metadata (assumption 5). -/
def refLen (v : Ns) : Nat := if v.lbaf = 2 then 6 else 4
/-- The reference tag that a stored block holds. -/
def piRefOf (v : Ns) (b : Bytes) : Nat := ofBe (span b (4160 - refLen v) (refLen v))
/-- The reference tag that block `i` of a command must hold: its LBA with type 1, the expected initial tag plus `i` with type 2. -/
def piRef (v : Ns) (k : PiChk) (i lba : Nat) : Nat := (if v.pi = 1 then lba else k.tag + i) % 2 ^ (8 * refLen v)

/-- The end-to-end check of one block (R67): the status of a guard or reference tag mismatch; none without protection information,
and none for a block that no metadata was written with. Type 3 has no reference check (assumption 5). -/
def piBlock (v : Ns) (k : PiChk) (i lba : Nat) (b : Bytes) : Option NStat :=
  if v.pi = 0 ∨ v.lbaf = 0 ∨ b.length ≤ 4096 then none
  else if k.guard ∧ piGuardOf v b ≠ Config.piGuard v.lbaf (b.take (4160 - piLen v)) then some .guardCheck
  else if k.ref ∧ v.pi ≠ 3 ∧ piRefOf v b ≠ piRef v k i lba then some .refCheck
  else none

/-- The first mismatch among the blocks of a write, in order. -/
def piFail (v : Ns) (k : PiChk) (slba : Nat) (blocks : List Bytes) : Option NStat :=
  (List.range blocks.length).findSome? (fun i => piBlock v k i (slba + i) (padTo (blockLen v) (blocks.getD i [])))

/-- The first mismatch among the blocks that a command has read, each by the format of its own namespace. -/
def partsFail (s : State) (c : Cmd) : Option NStat :=
  (List.range c.parts.length).findSome? (fun i =>
    match c.parts[i]? with
    | none => none
    | some p =>
      let at_ := p.src.getD (c.nsid, p.lba)
      match nsOf s at_.1 with
      | some v => piBlock v c.pi i at_.2 (partData p)
      | none => none)

/-- A block that Copy writes: with type 1 its reference tag becomes that of the destination (assumption 5). -/
def piMoved (v : Ns) (lba : Nat) (b : Bytes) : Bytes :=
  if v.pi = 1 ∧ 4096 < b.length then b.take (4160 - refLen v) ++ (leBytes (refLen v) lba).reverse else b

/-- Ends a command whose blocks are all read. -/
def finishReads (s : State) (c : Cmd) : State :=
  let bad := c.parts.any (fun p => p.bad)
  let unw := c.parts.any (fun p => p.unwritten) && dulbe s c.fn
  let p := fnPolder c.fn
  let n := match nsOf s c.nsid with
    | some v => blockLen v
    | none => 4096
  let data := c.parts.flatMap (fun p => padTo n (partData p))
  if bad then complete s c.fn c.sq c.cid .unrecoveredRead
  else if unw then complete s c.fn c.sq c.cid .unwritten
  else if let some e := partsFail s c then complete s c.fn c.sq c.cid e
  else
    match c.op with
    | .read =>
      let s := pmonCount s 1 p c.parts.length
      let s := charge s p (hostLinkFj s (c.parts.length * 4096)) true
      complete s c.fn c.sq c.cid .success 0 0 data
    | .compare bs =>
      complete s c.fn c.sq c.cid (if data = bs.flatMap (padTo n) then .success else .compareFailure)
    | .copy dst =>
      if s.nrg.limit = 0 then complete s c.fn c.sq c.cid .writeProtected
      else
        let bs := match nsOf s c.nsid with
          | some v => (List.range c.parts.length).map (fun i => piMoved v (dst + i) ((c.parts.map partData).getD i []))
          | none => c.parts.map partData
        modHost s (fun h => { h with cmds := h.cmds.map (fun d =>
          if cmdOn d c.fn c.sq && d.cid == c.cid then { d with op := .write dst bs, parts := [] } else d) })
    | .memCopy dst =>
      if rangeHeld s p dst (c.parts.length * 4096) then completeDnr s c.fn c.sq c.cid .sequenceError false
      else
      let t := slmWrite s (slmFirst (polder s p) + dst) (c.parts.flatMap (fun q => padTo 4096 (partData q)))
      let n := c.parts.length * 4096
      complete (charge (dramCount t p n) p (dramFj s n)) c.fn c.sq c.cid .success
    | _ => complete s c.fn c.sq c.cid .success

/-- Gives a block to the command that waits for it; the command ends when it was the last. -/
def cmdPart (s : State) (fn sq cid lba : Nat) (v : Piece) : State :=
  let s := modHost s (fun h => { h with cmds := h.cmds.map (fun c =>
    if cmdOn c fn sq && c.cid == cid then { c with parts := c.parts.map (fun p =>
      if p.lba = lba then { p with data := if v.bad then none else some v.data, bad := v.bad, unwritten := v.unwritten } else p) }
    else c) })
  match s.host.cmds.find? (fun c => cmdOn c fn sq && c.cid == cid) with
  | some c => if partsDone c then finishReads s c else s
  | none => s

/-- Starts the reads of a command's blocks, in LBA order; `ls` gives each LBA with its logical index. -/
def readParts (s : State) (fn sq cid : Nat) : List (Nat × Nat) → State
  | [] => s
  | (lba, l) :: r =>
    match readBlock s (.cmd fn sq cid lba) (fnPolder fn) l with
    | (some v, s) => readParts (cmdPart s fn sq cid lba v) fn sq cid r
    | (none, s) => readParts s fn sq cid r

/-- Do two lists of LBA ranges of one namespace meet? -/
def rangesMeet (a b : List (Nat × Nat)) : Bool :=
  a.any (fun x => b.any (fun y => decide (x.1 < y.1 + y.2) && decide (y.1 < x.1 + x.2)))

/-- Must a map change wait behind an earlier command for one of its blocks: a staged write, a write that waits at step 1, a
Copy that still reads, an earlier map change (R463)? -/
def mapBlocked (s : State) (c : Cmd) (ranges : List (Nat × Nat)) : Bool :=
  s.ftla.staging.any (fun e => decide (e.ord < c.ord) && e.nsid == c.nsid && rangesMeet ranges [(e.lba, 1)]) ||
  s.host.cmds.any (fun d => decide (d.ord < c.ord) && d.nsid == c.nsid && (match d.op with
    | .write slba blocks => rangesMeet ranges [(slba, blocks.length)]
    | .copy dst => rangesMeet ranges [(dst, d.parts.length)]
    | .mapChange rs _ _ => rangesMeet ranges rs
    | _ => false))

/-- LBA ranges without one block. -/
def rangesCut (rs : List (Nat × Nat)) (lba : Nat) : List (Nat × Nat) :=
  (rs.flatMap (fun r => if r.1 ≤ lba ∧ lba < r.1 + r.2 then [(r.1, lba - r.1), (lba + 1, r.1 + r.2 - lba - 1)] else [r])).filter
    (fun r => decide (r.2 ≠ 0))

/-- A staged write that was fetched after a waiting map change has its MAP record: it stands over that change (R463). -/
def standsOver (s : State) (e : Staged) : State :=
  modHost s (fun h => { h with cmds := h.cmds.map (fun c =>
    match c.op with
    | .mapChange rs v z => if c.ord < e.ord ∧ c.nsid = e.nsid then { c with op := .mapChange (rangesCut rs e.lba) v z } else c
    | _ => c) })

/-- Does a flush still wait: a covered write is staged, or waits at step 1 (R80)? -/
def flushWaits (s : State) (seqs ords : List Nat) : Bool :=
  s.ftla.staging.any (fun e => seqs.contains e.seq || ords.contains e.ord) ||
  s.host.cmds.any (fun d => ords.contains d.ord)

/-- Ends the commands that waited for staged writes to reach the journal: flushes (R80) and map changes (R463). -/
def settle (s : State) : State :=
  s.host.cmds.foldl (fun s c =>
    match s.host.cmds.find? (fun d => d.ord == c.ord) with
    | none => s
    | some c =>
      match c.op with
      | .flush seqs ords => if flushWaits s seqs ords then s else complete s c.fn c.sq c.cid .success
      | .mapChange ranges v _ =>
        match nsOf s c.nsid with
        | none => s
        | some n =>
          if mapBlocked s c ranges || jFull s then s
          else complete ((runsOf n ranges).foldl (fun s r => trimRecord s r.1 r.2 v) s) c.fn c.sq c.cid .success
      | _ => s) s

end Sys2Proof.Machine
end

