-- ==== Sys2Proof/Machine/RingOps.lean ====
section
/-! DEFINITION. Engine rings, what their commands share: descriptor fields, completion records and events (R137, R183),
flows (R184, R185), input under the length rule (R193), quarantine (R218-R220). -/

namespace Sys2Proof.Machine

open Sys2Proof

/-! ## Descriptors in flight -/

/-- The job that holds a ring. -/
def ringJob (s : State) (r : Nat) : Option Nat :=
  match (ring s r).holder with
  | .job j => some j
  | _ => none

/-- The stamp of a ring's requests: the ring's owning polder, whoever holds the ring (R13). -/
def ringStamp (s : State) (r : Nat) : Nat := ringOwner s r

/-- Charges the work of a ring's descriptor (R364, R365). -/
def chargeRing (s : State) (r fj : Nat) : State :=
  match (ring s r).holder with
  | .service => chargeSvc s fj
  | _ => chargeJob s (ringStamp s r) (ringJob s r) fj

/-- A dispatched descriptor. -/
def flightOf (s : State) (r idx : Nat) : Option Flight := (ring s r).flight.find? (fun f => f.idx == idx)
/-- Changes a dispatched descriptor. -/
def modFlight (s : State) (r idx : Nat) (g : Flight → Flight) : State :=
  modRing s r (fun q => { q with flight := q.flight.map (fun f => if f.idx = idx then g f else f) })

/-- Word `n` of a descriptor. -/
def fw (f : Flight) (n : Nat) : W32 := f.words.getD n 0
/-- Class. -/
def fCls (f : Flight) : Nat := fld (fw f 0) 31 28
/-- Op. -/
def fOp (f : Flight) : Nat := fld (fw f 0) 27 20
/-- Input kind. -/
def fKind (f : Flight) : Nat := fld (fw f 0) 19 18
/-- NOCOMP. -/
def fNocomp (f : Flight) : Bool := bitOf (fw f 0) 7
/-- KEEP_IN. -/
def fKeep (f : Flight) : Bool := bitOf (fw f 0) 6
/-- FENCE. -/
def fFence (f : Flight) : Bool := bitOf (fw f 0) 5
/-- Declared length. -/
def fDecl (f : Flight) : Nat := (fw f 2).toNat
/-- Next ring as the descriptor numbers it. -/
def fNext (f : Flight) : Nat := fld (fw f 4) 7 0

/-- The absolute ring that a stamp's ring number names (R174, R175). -/
def absRing (s : State) (stamp n : Nat) : Option Nat :=
  if stamp = 0 then (if n < 256 then some n else none)
  else if n < ringCount (polder s stamp) then some (ringFirst (polder s stamp) + n) else none

/-- The absolute downstream ring of a descriptor; none when the output goes to the completion. -/
def target (s : State) (r : Nat) (f : Flight) : Option Nat :=
  if fNext f = 255 then none else absRing s (ringStamp s r) (fNext f)

/-- The block that serves an engine class (R461). -/
def classBlk (c : Nat) : Nat := match c with
  | 0 => 4
  | 1 => 4
  | 2 => 0x0A
  | 3 => 5
  | 4 => 6
  | 5 => 7
  | 6 => 7
  | _ => 8

/-- A dike breach by a descriptor of a ring (R40, R461). -/
def ringBreach (s : State) (r : Nat) (f : Flight) (owner blk index : Nat) (write : Bool) : State :=
  breach s (ringStamp s r) owner blk 0 write index (.block (classBlk (fCls f)) r)

/-! ## Events of the cores -/

/-- A core that waits in WFE goes on when a masked event is pending (R137). -/
def wake (k : Core) : Core :=
  match k.wfe with
  | none => k
  | some w =>
    let v := k.pend &&& w.mask
    if k.st ≠ .waiting ∨ v = 0 then k
    else { rset k w.rd (v.setWidth 36) with pend := k.pend &&& ~~~v, wfe := none, st := .running }

/-- Lets core `c` go on where a masked event is pending. -/
def wakeCore (s : State) (c : Nat) : State :=
  let k := core s c
  let k' := wake k
  if k.st = .waiting ∧ k'.st = .running then waited (setCore s c k') c else s

/-- Sets pending event `n` of core `c` (R137). -/
def setEvent (s : State) (c n : Nat) : State :=
  wakeCore (modCore s c (fun k => { k with pend := k.pend ||| BitVec.ofNat 33 (2 ^ n) })) c

/-- The event of a completion record: bit n mod 32 of the ring's window number, on every core of the holding job or on the
service cores (R137, R183). -/
def ringEvent (s : State) (r : Nat) : State :=
  match (ring s r).holder with
  | .free => s
  | .service => s.rst.service.foldl (fun s c => setEvent s c (r % 32)) s
  | .job j =>
    match job s j with
    | none => s
    | some v =>
      let n := if v.polder = 0 then r else r - ringFirst (polder s v.polder)
      v.cores.foldl (fun s c => setEvent s c (n % 32)) s

/-! ## Completion records -/

/-- Are 32 completions unconsumed (R183)? -/
def ringFull (g : Ring) : Bool := g.cprod - g.ccons == 32

/-- Writes a record to the next completion slot, advances CPROD, sets the event (R183). -/
def writeRec (s : State) (r : Nat) (e : ERec) : State :=
  let s := modRing s r (fun g => { g with
    comp := (List.range 8).foldl (fun t i => tset t 0 (g.cprod.toNat % 32 * 8 + i) (e.words.getD i 0)) g.comp,
    cprod := g.cprod + 1 })
  ringEvent s r

/-- Writes a record, or holds it while 32 are unconsumed. -/
def putRecord (s : State) (r : Nat) (e : ERec) : State :=
  if ringFull (ring s r) || !(ring s r).held.isEmpty then modRing s r (fun g => { g with held := g.held ++ [e] })
  else writeRec s r e

/-- The eight words of a completion record. -/
def recWords (f : Flight) (status consumed produced : Nat) (h : W32) (list last : Bool) (n : Nat) (w6 w7 : W32) : ERec :=
  { idx := f.idx,
    words := [put status 31 24 ||| put (fCls f) 23 20 ||| put f.idx 15 0, fw f 1, BitVec.ofNat 32 consumed,
              BitVec.ofNat 32 produced, h, putB list 31 ||| putB last 30 ||| put n 15 0, w6, w7] }

/-! ## Quarantine (R218-R220) -/

/-- The releases that waited for the verdict take effect. -/
def applyWaits (s : State) (k : Nat) : State :=
  let b := buf s k
  if b.quar.isEmpty && b.relWait != 0 then
    let n := b.relWait
    let s := modBuf s k (fun b => { b with relWait := 0 })
    if b.ref.toNat ≤ n then freeBuf s k else modBuf s k (fun b => { b with ref := b.ref - BitVec.ofNat 8 n })
  else s

/-- Ends a quarantine: its buffers and fenced blocks are set free, or zeroed, poisoned and voided. -/
def endQuar (s : State) (q : Nat) (pass : Bool) : State :=
  let hit := s.bpm.bufs.filter (fun e => e.2.quar.contains q)
  let s := hit.foldl (fun s e =>
    let s := if pass then s else poisonKeep s e.1
    applyWaits (modBuf s e.1 (fun b => { b with quar := b.quar.erase q })) e.1) s
  let blks := (s.isl.fence.filter (fun e => e.2.contains q)).map Prod.fst
  let s := if pass then s else markVoid s blks
  modIsl s (fun l => { l with
    quars := l.quars.filter (fun e => e.1 != q),
    failedQ := if pass then l.failedQ else l.failedQ ++ [q],
    fence := blks.foldl (fun t b => tmod t [] b (fun old => old.erase q)) l.fence })

/-- A stream ends without a verdict: its quarantine fails. -/
def failQuar (s : State) (q : Option Nat) : State :=
  match q with
  | some i => if s.isl.quars.any (fun e => e.1 == i) then endQuar s i false else s
  | none => s

/-! ## Flows (R184, R185) -/

/-- Passes one buffer downstream; false when 32 buffers wait already and no descriptor takes it. -/
def passDown (s : State) (r : Nat) (f : Flight) (t : Nat) (h : W32) : Bool × State :=
  let down := match flightOf s r f.idx with
    | some f => f.down
    | none => none
  match down with
  | some (t, di) =>
    match flightOf s t di with
    | some _ => (true, modFlight s t di (fun d => { d with chain := d.chain ++ [h] }))
    | none => (true, releaseRef s h)
  | none =>
    match (ring s t).flight.find? (fun d => fKind d == 3 && d.up.isNone && d.res.isNone) with
    | some d =>
      let s := modFlight s t d.idx (fun d => { d with up := some (r, f.idx), chain := d.chain ++ [h] })
      (true, modFlight s r f.idx (fun u => { u with down := some (t, d.idx) }))
    | none =>
      if (ring s t).waitBufs.length < 32 then
        (true, modRing s t (fun g => { g with waitBufs := g.waitBufs ++ [(h, r, f.idx)] }))
      else (false, s)

/-- The end of an upstream descriptor ends the chained input of what it is bound to, or of what its waiting buffers will
be bound to (R185). -/
def endDown (s : State) (r : Nat) (f : Flight) (st : BitVec 8) : State :=
  match f.down with
  | some (t, di) => modFlight s t di (fun d => { d with upEnd := some st })
  | none =>
    match target s r f with
    | some t =>
      if (ring s t).waitBufs.any (fun w => w.2 == (r, f.idx)) then
        modRing s t (fun g => { g with waitEnd := g.waitEnd ++ [(r, f.idx, st)] })
      else s
    | none => s

/-- A descriptor of input kind 3 takes the waiting buffers of the oldest upstream descriptor (R184). -/
def bindWaiting (s : State) (r idx : Nat) : State :=
  let g := ring s r
  match g.waitBufs with
  | [] => s
  | (_, ur, ui) :: _ =>
    let mine := (g.waitBufs.filter (fun w => w.2 == (ur, ui))).map Prod.fst
    let ended := g.waitEnd.find? (fun e => e.1 == ur && e.2.1 == ui)
    let s := modRing s r (fun g => { g with
      waitBufs := g.waitBufs.filter (fun w => w.2 != (ur, ui)),
      waitEnd := g.waitEnd.filter (fun e => !(e.1 == ur && e.2.1 == ui)) })
    let s := modFlight s r idx (fun d => { d with up := some (ur, ui), chain := mine, upEnd := ended.map (fun e => e.2.2) })
    modFlight s ur ui (fun u => { u with down := some (r, idx) })

/-! ## Input (R180, R188, R189, R193) -/

/-- Does a buffer read as poison: its flag, or an uncorrectable line of its SRAM? -/
def bufPoison (s : State) (h : W32) : Bool :=
  (buf s (hKey h)).poison ||
  (List.range (poolBytes (hPool h) / 64)).any (fun i => curPoison s (sramCur + bufBase (hPool h) (hIdx h) + 64 * i))

/-- Accounts for an engine's read of a buffer whose SRAM holds an uncorrectable or poisoned line (R356). -/
def ueBuf (s : State) (h : W32) (stamp : Nat) : State :=
  ueCur s (sramCur + bufBase (hPool h) (hIdx h)) (poolBytes (hPool h)) 3 stamp

/-- The input of a descriptor: bytes up to the declared length, the length rule's status (0 OK, 1 OK_TRUNCATED, 2 SHORT;
3 upstream failed; 6, 7 with the offending handle), the buffers read, the quarantines they carry. -/
structure OpIn where
  data : Bytes := []
  status : Nat := 0
  bad : W32 := 0
  used : List W32 := []
  rest : List W32 := []
  quar : List Nat := []

/-- Reads named buffers until `need` bytes are there; `full` takes each at its full size, else its filled bytes. -/
def gatherBufs (s : State) (stamp : Nat) (full : Bool) (need : Nat) : List W32 → OpIn → OpIn
  | [], a => { a with status := if a.data.length < need then 2 else 0 }
  | h :: hs, a =>
    if need ≤ a.data.length then { a with status := 1, rest := h :: hs }
    else if !bufOk s stamp h then { a with status := 7, bad := h, rest := h :: hs }
    else if bufPoison s h then { a with status := 6, bad := h, rest := h :: hs }
    else
      let d := if full then bufData s h else bufFilled s h
      let a' : OpIn := { a with data := a.data ++ d, used := a.used ++ [h], quar := a.quar ++ (buf s (hKey h)).quar }
      gatherBufs s stamp full need hs a'

/-- The length rule on what was gathered (R193). -/
def cutInput (need : Nat) (a : OpIn) : OpIn :=
  if a.status ≤ 1 ∧ need < a.data.length then { a with data := a.data.take need, status := 1 } else a

/-- The input of a descriptor. -/
def opInput (s : State) (r : Nat) (f : Flight) : OpIn :=
  if f.insBad ≠ 0 then { status := f.insBad, bad := fw f 3 }
  else if fKind f = 3 then
    match f.upEnd with
    | some st => if 2 ≤ st.toNat then { data := f.acc, status := 3, rest := f.chain }
                 else cutInput (fDecl f) (gatherBufs s (ringStamp s r) false (fDecl f) f.chain { data := f.acc, quar := f.accQ })
    | none => { status := 3 }
  else if fKind f = 0 then {}
  else cutInput (fDecl f) (gatherBufs s (ringStamp s r) true (fDecl f) f.ins {})

/-- Is a descriptor's input all there: named, or chained and ended by its upstream? -/
def inputReady (f : Flight) : Bool := fKind f != 3 || f.upEnd.isSome

/-- Reads the chained buffers that have arrived into the engine, ahead of the end of the upstream descriptor. -/
def absorb (s : State) (r : Nat) (f : Flight) : State :=
  let a := gatherBufs s (ringStamp s r) false (fDecl f + 1) f.chain { data := f.acc, quar := f.accQ }
  if a.status = 6 ∨ a.status = 7 then s
  else
    let s := modFlight s r f.idx (fun d => { d with chain := a.rest, acc := a.data, accQ := a.quar })
    if fKeep f then s else a.used.foldl releaseRef s

/-- The engine has consumed its input: one reference of each buffer it read, unless KEEP_IN; chained buffers wholly beyond
the declared length are freed (R188, R193). -/
def consume (s : State) (r : Nat) (f : Flight) (a : OpIn) : State :=
  let s := if fKeep f then s else a.used.foldl releaseRef s
  let s := if fKind f = 3 then a.rest.foldl releaseRef s else s
  modFlight s r f.idx (fun d => { d with chain := [], acc := [] })

/-- The engine has met a bad input: what it read to the end before is consumed (R188), the rest stays. -/
def consumeBad (s : State) (r : Nat) (f : Flight) (a : OpIn) : State :=
  let s := if fKeep f then s else a.used.foldl releaseRef s
  if fKind f = 3 then modFlight s r f.idx (fun d => { d with chain := a.rest, acc := [] }) else s

end Sys2Proof.Machine
end

