-- ==== Sys2Proof/Machine/RingCheck.lean ====
section
/-! DEFINITION. The checks at the dispatch of a ring descriptor: invalid descriptors (R180, R181, R214, R223, R224, R235,
R268). -/

namespace Sys2Proof.Machine

open Sys2Proof

/-- Are words `a` to `b` of a descriptor zero? -/
def zeroWords (f : Flight) (a b : Nat) : Bool := (List.range (b + 1 - a)).all (fun i => fw f (a + i) == 0)

/-- Are bits hi:lo of a word zero? -/
def zeroBits (w : W32) (hi lo : Nat) : Bool := fld w hi lo == 0

/-- FIRST of a class 3 to 6 descriptor. -/
def fFirst (f : Flight) : Bool := bitOf (fw f 6) 31
/-- LAST. -/
def fLast (f : Flight) : Bool := bitOf (fw f 6) 30

/-- May an op take an input kind ("Classes" and the tables of the engine chapters)? -/
def kindOk (cls op kind : Nat) : Bool :=
  let data := decide (1 ≤ kind)
  match cls with
  | 0 => decide (op ≤ 2) && kind == 0
  | 1 => if op = 0 then data else op == 1 && kind == 0
  | 2 => op == 0 && kind == 0
  | 3 => if op ≤ 1 then data else decide (op ≤ 3) && kind == 0
  | 4 => if op = 0 then data else if op = 1 then kind == 1 else decide (op ≤ 3) && kind == 0
  | 5 => if op = 0 then data else op == 1 && kind == 0
  | 6 => if op = 0 then data else op == 1 && kind == 0
  | 7 => if op = 0 then data else decide (op ≤ 5) && kind == 0
  | _ => false

/-- A handle's fields: allocation sequence, pipeline or instance, slot. -/
def cSeq (h : W32) : Nat := fld h 23 16
/-- Pipeline or instance of a context handle. -/
def cPipe (h : W32) : Nat := fld h 8 6
/-- Slot of a context handle. -/
def cSlot (h : W32) : Nat := fld h 5 0
/-- A context handle. -/
def mkCtx (seq pipe slot : Nat) : W32 := put seq 23 16 ||| put pipe 8 6 ||| put slot 5 0
/-- The key of a context slot. -/
def ctxKey (pipe slot : Nat) : Nat := pipe * 64 + slot

/-- Digest algorithm of a descriptor. -/
def fAlg (f : Flight) : Nat := fld (fw f 6) 27 26
/-- HMAC bit. -/
def fHmac (f : Flight) : Bool := bitOf (fw f 6) 25
/-- LIST bit. -/
def fList (f : Flight) : Bool := bitOf (fw f 6) 28
/-- Block size of a digest algorithm (R224). -/
def algBlock (a : Nat) : Nat := match a with
  | 0 => 64
  | 1 => 128
  | 2 => 128
  | _ => 136

/-- Can the list buffer of a kind 2 descriptor be read: the stamp's, and not poisoned (R186, R189)? -/
def listOk (s : State) (stamp : Nat) (f : Flight) : Bool := bufOk s stamp (fw f 3) && !bufPoison s (fw f 3)

/-- The list buffer of a kind 2 descriptor as words. -/
def listWords (s : State) (f : Flight) : List W32 :=
  let d := bufData s (fw f 3)
  (List.range 128).map (fun i => BitVec.ofNat 32 (leAt d (4 * i) 4))

/-- Class 3 (R214). -/
def invalid3 (f : Flight) : Bool :=
  let w6 := fw f 6
  let len := fDecl f
  let aad := fld (fw f 7) 15 0
  !zeroWords f 12 15 || !zeroBits w6 29 8 || !zeroBits (fw f 7) 31 16 ||
  (if fOp f = 2 then !zeroWords f 7 11
   else if fOp f = 3 then (fFirst f && decide (len < aad)) || (!fFirst f && (aad != 0 || !zeroWords f 8 10))
   else
     (!fLast f && len % 16 != 0)
     || (fFirst f && decide (len < aad))
     || (fFirst f && fw f 11 != 0)
     || (fOp f == 1 && fLast f && decide (len < 16 + (if fFirst f then aad else 0)))
     || (!fFirst f && (aad != 0 || !zeroWords f 8 10)))

/-- Class 4 (R223, R224, R227). -/
def invalid4 (s : State) (stamp : Nat) (f : Flight) : Bool :=
  let w6 := fw f 6
  !zeroWords f 9 15 || !zeroBits w6 24 7 ||
  (if fOp f = 0 then
     let c := tget s.isl.dctx {} (ctxKey (cPipe (fw f 7)) (cSlot (fw f 7)))
     (fHmac f && fAlg f == 3)
     || (fFirst f && fw f 7 != 0)
     || (!fFirst f && c.used && c.polder == stamp && c.seq.toNat == cSeq (fw f 7)
          && (c.hmac != fHmac f || c.alg.toNat != fAlg f))
     || (fList f && fKind f != 2)
     || (fList f && listOk s stamp f &&
          (let ws := listWords s f
           let n := (ws.getD 0 0).toNat
           decide (n = 0) || decide (63 < n) || (List.range n).any (fun k =>
             let h := ws.getD (2 * k + 1) 0
             let e := ws.getD (2 * k + 2) 0
             decide (poolBytes (hPool h) < fld e 31 18 * 16 + fld e 17 0 + 1))))
     || (!fLast f && fDecl f % algBlock (fAlg f) != 0)
   else if fOp f = 1 then fDecl f != 48
   else if fOp f = 2 then decide (71 < fld w6 6 0)
   else false)

/-- Class 5 (R235). -/
def invalid5 (f : Flight) : Bool :=
  let w6 := fw f 6
  !zeroWords f 8 15 || !zeroBits w6 28 27 || !zeroBits w6 21 0 ||
  (if fOp f = 0 then
     (fFirst f && (decide (fld w6 26 24 < 1) || decide (3 < fld w6 26 24) || fw f 7 != 0))
     || (!fFirst f && !zeroBits w6 26 22)
     || (bitOf w6 29 && fLast f)
     || decide (fDecl f < 1) || decide (2097152 < fDecl f)
   else !zeroBits w6 31 22)

/-- Class 6 (R235). -/
def invalid6 (f : Flight) : Bool :=
  let w6 := fw f 6
  !zeroWords f 9 15 || !zeroBits w6 29 27 || !zeroBits w6 23 0 ||
  (if fOp f = 0 then
     (fFirst f && (decide (fld w6 26 24 < 1) || decide (4 < fld w6 26 24) || fw f 7 != 0))
     || (!fFirst f && (!zeroBits w6 26 24 || fw f 8 != 0))
   else !zeroBits w6 31 24 || fw f 8 != 0)

/-- A 64-bit value of two words. -/
def w64 (lo hi : W32) : Nat := lo.toNat + hi.toNat * 2 ^ 32

/-- Class 7 (R268). -/
def invalid7 (stamp : Nat) (f : Flight) : Bool :=
  let w6 := fw f 6
  let w7 := fw f 7
  let idx := fld w7 15 0
  match fOp f with
  | 0 =>
    let rec_ := fld w6 31 20 + 1
    let wd := fld w6 7 4
    !zeroBits w6 3 2 || fld w6 1 0 == 3 || decide (wd < 1) || decide (8 < wd) || decide (rec_ < fld w6 19 8 + wd)
      || fDecl f % rec_ != 0 || !zeroWords f 7 15
  | 1 =>
    let e5 := fw f 13
    fw f 6 != 0 || !zeroBits w7 31 16 || !zeroWords f 14 15
      || bitOf e5 30 || !zeroBits e5 29 24 || !zeroBits e5 23 16 || !zeroBits e5 7 4
      || decide (w64 (fw f 10) (fw f 11) < w64 (fw f 8) (fw f 9))
  | 2 => fw f 6 != 0 || !zeroBits w7 31 16 || !zeroWords f 9 15 || decide ((fw f 8).toNat < 1)
      || decide (65536 < (fw f 8).toNat) || (stamp == 0 && decide (65536 < idx + (fw f 8).toNat))
  | 3 => fw f 6 != 0 || !zeroBits w7 31 16 || !zeroWords f 9 15 || decide ((fw f 8).toNat < 1)
      || decide (21 < (fw f 8).toNat) || (stamp == 0 && decide (65536 < idx + (fw f 8).toNat))
  | 4 => fw f 6 != 0 || !zeroBits w7 31 16 || !zeroBits (fw f 10) 31 8 || !zeroWords f 11 15
  | _ => fw f 6 != 0 || !zeroBits w7 31 6 || decide (56 < fld w7 5 0) || !zeroWords f 8 15

/-- Class 1 (R181): the range of the job, or an SLM offset on a ring held by service firmware. -/
def invalid1 (s : State) (r : Nat) (f : Flight) : Bool :=
  (fOp f == 1 && fDecl f == 0) || !zeroWords f 8 15 ||
  (match ringJob s r with
   | some j =>
     match job s j with
     | some v =>
       !zeroBits (fw f 6) 31 5 ||
       (match v.ranges.drop (fld (fw f 6) 4 0) with
        | (_, len) :: _ => decide (len < (fw f 7).toNat + fDecl f)
        | [] => true)
     | none => true
   | none => !zeroBits (fw f 6) 31 2 || decide (6442450944 < fld (fw f 6) 1 0 * 2 ^ 32 + (fw f 7).toNat + fDecl f))

/-- Is a descriptor invalid (R180)? -/
def descInvalid (s : State) (r : Nat) (f : Flight) : Bool :=
  let stamp := ringStamp s r
  let w0 := fw f 0
  let k := fKind f
  !zeroBits w0 17 8 || !zeroBits w0 4 0 || !zeroBits (fw f 4) 31 8 || fw f 5 != 0
  || !kindOk (fCls f) (fOp f) k
  || (fNext f != 255 && (absRing s stamp (fNext f)).isNone)
  || (k == 0 && (fw f 3 != 0 || (fDecl f != 0 && !(fCls f == 1 && fOp f == 1))))
  || (k == 3 && fw f 3 != 0)
  || (k == 2 && listOk s stamp f &&
       (let n := leAt (bufData s (fw f 3)) 0 4
        decide (n < 1) || decide (127 < n)))
  || (match fCls f with
      | 0 => !zeroWords f 7 15 || (fOp f == 0 && (fw f 6 == 0 || decide (262144 < (fw f 6).toNat)))
      | 1 => invalid1 s r f
      | 2 => !zeroWords f 10 15 || !zeroBits (fw f 9) 31 15 || !zeroBits (fw f 9) 11 10
             || decide (fld (fw f 9) 9 0 < 1) || decide (512 < fld (fw f 9) 9 0) || decide (4 < fld (fw f 9) 14 12)
      | 3 => invalid3 f
      | 4 => invalid4 s stamp f
      | 5 => invalid5 f
      | 6 => invalid6 f
      | _ => invalid7 stamp f)

end Sys2Proof.Machine
end

