-- ==== Sys2Proof/Machine/Streams.lean ====
section
/-! DEFINITION. What the engines share: key generations (R202, R203), context slots, stream records and instances (R215, R216, R236,
R237, R242), the end of a descriptor and of its stream, outputs delivered as buffers fill (R183, R184), running an op, hold-backs
(R179), the release of a ring's work (R176). -/

namespace Sys2Proof.Machine

open Sys2Proof

/-! ## Key generations -/

/-- The absolute cipher slot that a stamp's slot number names, where the stamp owns it (R38: key material). -/
def keySlot (s : State) (p n : Nat) : Option Nat :=
  let a := if p = 0 then n else keyFirst (polder s p) + n
  if (p = 0 ∨ n < keyCount (polder s p)) ∧ a < 256 ∧ keyOwner s a = p then some a else none

/-- The absolute HMAC slot that a stamp's slot number names, where the stamp owns it. -/
def hmacSlot (s : State) (p n : Nat) : Option Nat :=
  let a := if p = 0 then n else hmacFirst (polder s p) + n
  if (p = 0 ∨ n < hmacCount (polder s p)) ∧ a < 64 ∧ hmacOwner s a = p then some a else none

/-- The key of a generation of a slot. -/
def genKey (k : KeySlot) (g : BitVec 8) : Option Bytes :=
  if k.gen = g ∧ k.key.isSome then k.key
  else match k.shadow with
    | some (h, b) => if h = g then some b else none
    | none => none

/-- Does a fragment in flight of an engine class hold a generation of a slot, taken at its dispatch (R202)? -/
def flightHolds (s : State) (cls a : Nat) (g : BitVec 8) : Bool :=
  s.bpm.rings.any (fun e => e.2.flight.any (fun f => fCls f == cls && f.res.isNone && f.key == some (a, g)))
/-- Does an open stream hold generation `g` of a cipher slot? -/
def cipherHolds (s : State) (a : Nat) (g : BitVec 8) : Bool :=
  s.isl.cctx.any (fun e => e.2.used && !e.2.lost && e.2.slot == a && e.2.gen == g) || flightHolds s 3 a g
/-- Does an open stream hold generation `g` of an HMAC slot? -/
def hmacHolds (s : State) (a : Nat) (g : BitVec 8) : Bool :=
  s.isl.dctx.any (fun e => e.2.used && !e.2.lost && e.2.hmac && e.2.slot == a && e.2.gen == g) || flightHolds s 4 a g

/-- A shadow is zeroed when no stream holds it any longer (R203). -/
def dropShadows (s : State) : State :=
  let ck := s.isl.keys.map (fun (e : Nat × KeySlot) => (e.1, { e.2 with shadow := e.2.shadow.filter (fun v => cipherHolds s e.1 v.1) }))
  let hk := s.isl.hmacs.map (fun (e : Nat × KeySlot) => (e.1, { e.2 with shadow := e.2.shadow.filter (fun v => hmacHolds s e.1 v.1) }))
  modIsl s (fun l => { l with keys := ck.filter (fun e => decide (e.2 ≠ {})), hmacs := hk.filter (fun e => decide (e.2 ≠ {})) })

/-! ## Contexts, slots and records -/

/-- How a context handle resolves for a stamp (R216). -/
inductive CtxRef where
  | ok (k : Nat) (c : Ctx)
  | lost
  | breach (owner k : Nat)

/-- Resolves a context handle against a table of contexts. -/
def findCtx (t : Tbl Ctx) (pipes stamp : Nat) (h : W32) : CtxRef :=
  let k := ctxKey (cPipe h) (cSlot h)
  let c := tget t {} k
  if pipes ≤ cPipe h ∨ c.used = false then .lost
  else if c.polder ≠ stamp then .breach c.polder k
  else if c.seq.toNat ≠ cSeq h ∨ c.lost then .lost
  else .ok k c

/-- The key of a compressor slot. -/
def slotKey (inst slot : Nat) : Nat := inst * 8 + slot

/-- How a stream handle resolves (R236). -/
inductive StrmRef where
  | ok (k : Nat) (c : Strm)
  | lost
  | breach (owner k : Nat)

/-- Resolves a handle against the slot or record it names. -/
def findStrm (t : Tbl Strm) (k stamp : Nat) (valid : Bool) (h : W32) : StrmRef :=
  let c := tget t {} k
  if !valid || !c.used then .lost
  else if c.polder ≠ stamp then .breach c.polder k
  else if c.seq.toNat ≠ cSeq h then .lost
  else .ok k c

/-- The compressor stream that word 7 names. -/
def findSlot (s : State) (stamp : Nat) (h : W32) : StrmRef :=
  findStrm s.cmpr.slots (slotKey (cPipe h) (cSlot h % 8)) stamp (decide (cPipe h < 4) && decide (cSlot h < 8)) h
/-- The decompression stream that word 7 names. -/
def findRec (s : State) (stamp : Nat) (h : W32) : StrmRef :=
  findStrm s.cmpr.recs (cSlot h) stamp (cPipe h == 0) h

/-- Changes the CMPR block. -/
def modCmpr (s : State) (f : Cmpr → Cmpr) : State := { s with cmpr := f s.cmpr }
/-- Sets an instance free of its stream. -/
def unbind (s : State) (i : Option Nat) : State :=
  match i with
  | some i => modCmpr s (fun c => { c with insts := tset c.insts {} i {} })
  | none => s
/-- Binds an instance to a stream of a polder. -/
def bindInst (s : State) (i p format : Nat) : State :=
  modCmpr s (fun c => { c with insts := tset c.insts {} i { bound := true, owner := p, format := format } })
/-- Frees a compressor slot and its binding. -/
def freeSlot (s : State) (k : Nat) : State :=
  modCmpr (unbind s (tget s.cmpr.slots {} k).inst) (fun c => { c with slots := tmod c.slots {} k (fun v => { seq := v.seq }) })
/-- Frees a stream record and its binding. -/
def freeRec (s : State) (k : Nat) : State :=
  modCmpr (unbind s (tget s.cmpr.recs {} k).inst) (fun c => { c with recs := tmod c.recs {} k (fun v => { seq := v.seq }) })
/-- Frees a cipher context. -/
def freeCctx (s : State) (k : Nat) : State :=
  dropShadows (modIsl s (fun l => { l with cctx := tmod l.cctx {} k (fun c => { seq := c.seq }) }))
/-- Frees a digest context. -/
def freeDctx (s : State) (k : Nat) : State :=
  dropShadows (modIsl s (fun l => { l with dctx := tmod l.dctx {} k (fun c => { seq := c.seq }) }))

/-- Is a descriptor a fragment of a stream: GCM, digest, compression or decompression? -/
def isFrag (f : Flight) : Bool := (fCls f == 3 && decide (fOp f ≤ 1)) || ((fCls f == 4 || fCls f == 5 || fCls f == 6) && fOp f == 0)

/-- The context that a class 3 or 4 fragment's stream has: taken at dispatch, or named by its handle. -/
def ctxOf (t : Tbl Ctx) (pipes stamp : Nat) (f : Flight) (h : W32) : Option Nat :=
  if fFirst f then
    match f.strm with
    | some (k, q) => let c := tget t {} k
                     if c.used && c.seq == q && c.polder == stamp then some k else none
    | none => none
  else
    match findCtx t pipes stamp h with
    | .ok k _ => some k
    | _ => none

/-- The slot or record that a class 5 or 6 fragment's stream has. -/
def recOf (t : Tbl Strm) (ref : StrmRef) (stamp : Nat) (f : Flight) : Option Nat :=
  if fFirst f then
    match f.strm with
    | some (k, q) => let c := tget t {} k
                     if c.used && c.seq == q && c.polder == stamp then some k else none
    | none => none
  else
    match ref with
    | .ok k _ => some k
    | _ => none

/-- Ends the stream that a fragment belongs to: its slot or record is free (R216, R236); without a verdict to come its quarantine fails
(R220). Nothing where the fragment's handle does not resolve. -/
def dropStream (s : State) (r : Nat) (f : Flight) (verdict : Bool) : State :=
  let p := ringStamp s r
  if !isFrag f then s
  else
    match fCls f with
    | 3 =>
      let s := if verdict then s else failQuar s f.quar
      match ctxOf s.isl.cctx 8 p f (fw f 11) with
      | some k => freeCctx (if verdict then s else failQuar s (tget s.isl.cctx {} k).quar) k
      | none => s
    | 4 =>
      match ctxOf s.isl.dctx 4 p f (fw f 7) with
      | some k => freeDctx s k
      | none => s
    | 5 =>
      match recOf s.cmpr.slots (findSlot s p (fw f 7)) p f with
      | some k => freeSlot s k
      | none => s
    | _ =>
      match recOf s.cmpr.recs (findRec s p (fw f 7)) p f with
      | some k => freeRec s k
      | none => s

/-- Does a fragment's failure end its stream? Of classes 5 and 6 always (R248); of classes 3 and 4 that of a FIRST or LAST fragment, a
cancellation, a key or a context that is gone (R216, R220; what a later fragment that ends SHORT, POISONED_INPUT or NO_BUFFER leaves of
its stream is open: it stays; DESIGN CHOICE, assumption 68). -/
def endsStream (f : Flight) (st : BitVec 8) : Bool :=
  decide (5 ≤ fCls f) || fFirst f || fLast f || st == 3 || st == 4 || st == 0x0E

/-! ## The end of a descriptor in its engine -/

/-- Ends a descriptor in its engine with a result; the completion writer commits it later. An instance that it held is free; a shadow
key that no stream holds any longer is zeroed. -/
def endFlight (s : State) (r idx : Nat) (e : ERes) : State :=
  match flightOf s r idx with
  | none => s
  | some f =>
    let s := unbind s f.inst
    let s := modFlight s r idx (fun f => { f with
      res := some e, fin := none, todo := [], full := [], work := none, inst := none, waitBuf := none, waitNrg := none })
    if fCls f = 3 ∨ fCls f = 4 then dropShadows s else s

/-- Ends a descriptor with a failing status: outputs not delivered are released as poisoned buffers (R192), and its stream ends where the
status ends it. -/
def stopFlight (s : State) (r : Nat) (f : Flight) (e : ERes) : State :=
  let s := poisonFree s (f.full.map Prod.fst)
  let s := if endsStream f e.status then dropStream s r f e.verdict.isSome else s
  endFlight s r f.idx { e with outs := [] }

/-- The buffers that a descriptor holds and has not delivered: filled ones, and those of a result that is not committed. -/
def heldBufs (f : Flight) : List W32 :=
  f.full.map Prod.fst ++ (match f.res with
    | some e => e.outs ++ e.list.toList
    | none => [])

/-- Cancels a descriptor: what it has not delivered is released as poisoned buffers, its stream ends, a verdict not committed fails
(R194, R220, R222, R248). -/
def cancelFlight (s : State) (r : Nat) (f : Flight) : State :=
  let s := poisonFree s (heldBufs f)
  let s := match f.res.bind (fun e => e.verdict) with
    | some (q, _) => failQuar s q
    | none => s
  dropStream s r f false

/-! ## Delivering outputs (R183, R184) -/

/-- The 512-byte list buffer of completion word 4. -/
def listBytes (hs : List W32) : Bytes :=
  leBytes 4 hs.length ++ (hs ++ List.replicate (127 - hs.length) (0 : W32)).flatMap (fun (h : W32) => leBytes 4 h.toNat)

/-- Notes the start of a wait for a buffer (R187). -/
def noteWait (s : State) (r idx : Nat) : State :=
  modFlight s r idx (fun f => { f with waitBuf := if f.waitBuf.isNone then some s.now else f.waitBuf })

/-- Where a descriptor's output goes: NOT_SHRUNK's input is delivered to its own ring (R241). -/
def outTo (s : State) (r : Nat) (f : Flight) : Option Nat :=
  match f.fin with
  | some e => if e.status = 9 then none else target s r f
  | none => target s r f

/-- Bytes in the filled buffers of a descriptor. -/
def fullLen (f : Flight) : Nat := (f.full.map (fun b => b.2.1)).sum

/-- Names a descriptor's filled buffers in a record ahead of its final one: an extent READ's one buffer, or up to 127 buffers in a list
buffer (R182, R183); none while no list buffer can be taken. Words 2 and 3 of such a record count what the descriptor has consumed and
the bytes that the record names (assumption 68). -/
def nameFull (s : State) (r : Nat) (f : Flight) : Option State :=
  let clear := fun s => modFlight s r f.idx (fun d => { d with full := [], given := d.given + d.full.length, waitBuf := none })
  let used := match f.fin with
    | some e => e.consumed
    | none => f.acc.length
  if fNocomp f then some (clear s)
  else if fCls f = 2 then
    match f.full with
    | (h, n, lba) :: _ =>
      some (clear (putRecord s r (recWords f 0 0 n h false false 1 (BitVec.ofNat 32 lba) (BitVec.ofNat 32 (lba / 2 ^ 32)))))
    | [] => some s
  else
    match allocBuf s (ringStamp s r) 512 (ringJob s r) with
    | none => none
    | some (h, s) =>
      some (clear (putRecord (bufFill s h (listBytes (f.full.map Prod.fst))) r (recWords f 0 used (fullLen f) h true false f.full.length 0 0)))

/-- Ends a descriptor whose output is all in buffers: they are named in its final record, in a list buffer where there are several or
where earlier records named some (R183); a failing result releases them. A stream ends with its LAST fragment. -/
def finishFlight (s : State) (r : Nat) (f : Flight) (e : ERes) : State :=
  if 2 ≤ e.status.toNat ∧ e.status ≠ 9 then stopFlight s r f e
  else
    let hs := f.full.map Prod.fst
    let e : ERes := { e with outs := hs, produced := if 0 < f.given ∧ (outTo s r f).isNone then fullLen f else e.produced }
    let list : Bool := fCls f != 2 && !hs.isEmpty && (e.status == 9 || decide (1 < hs.length) || decide (0 < f.given))
      && !(fNocomp f && e.status == 0)
    if list then
      match allocBuf s (ringStamp s r) 512 (ringJob s r) with
      | none => noteWait s r f.idx
      | some (h, s) =>
        let s := bufFill s h (listBytes hs)
        endFlight (if isFrag f && fLast f then dropStream s r f true else s) r f.idx { e with list := some h }
    else endFlight (if isFrag f && fLast f then dropStream s r f true else s) r f.idx e

/-- Must a descriptor's filled buffers be named before the next one is filled? -/
def nameNow (f : Flight) : Bool :=
  if fCls f = 2 then
    decide (f.full ≠ []) && (decide (f.todo ≠ []) || (match f.fin with
      | some e => decide (2 ≤ e.status.toNat)
      | none => true))
  else decide (127 ≤ f.full.length) && decide (f.todo ≠ [])

/-- Delivers a descriptor's output in order: each buffer is passed downstream as soon as it is filled, or named in the records of R182
and R183. A missing buffer is waited for (R187); a full ring downstream stalls the engine without a limit (R184). -/
def pump (s : State) (r idx : Nat) : Nat → State
  | 0 => s
  | n + 1 =>
    match flightOf s r idx with
    | none => s
    | some f =>
      if f.res.isSome then s
      else
        match f.full, outTo s r f with
        | (h, _, _) :: rest, some t =>
          match passDown s r f t h with
          | (true, s) => pump (modFlight s r idx (fun d => { d with full := rest, given := d.given + 1 })) r idx n
          | (false, _) => s
        | _, _ =>
          if nameNow f then
            match nameFull s r f with
            | none => noteWait s r idx
            | some s => pump s r idx n
          else
            match f.todo with
            | [] =>
              match f.fin with
              | some e => finishFlight s r f e
              | none => s
            | o :: os =>
              match allocBuf s (ringStamp s r) o.size (ringJob s r) with
              | none => noteWait s r idx
              | some (h, s) =>
                pump (modFlight (fillOut s h o) r idx (fun d => { d with
                  todo := os, full := d.full ++ [(h, o.data.length, o.lba)], waitBuf := none })) r idx n

/-- Delivers what a descriptor has. -/
def pumpAll (s : State) (r idx : Nat) : State :=
  match flightOf s r idx with
  | some f => pump s r idx (3 * f.todo.length + f.full.length + 4)
  | none => s

/-- Adds output to a descriptor that goes on. -/
def moreOut (s : State) (r idx : Nat) (os : List OutBuf) : State :=
  pumpAll (modFlight s r idx (fun d => { d with todo := d.todo ++ os, sent := d.sent + outLen os })) r idx

/-- Ends an op with its last output and a result, which stands once all output is delivered. -/
def giveOut (s : State) (r idx : Nat) (os : List OutBuf) (e : ERes) : State :=
  pumpAll (modFlight s r idx (fun d => { d with todo := d.todo ++ os, fin := some e })) r idx

/-! ## Running an op -/

/-- Is class-3 work of a ring held: its job HELD, or the envelope guard holds class 3 (R116, R367)? -/
def nrgHeld (s : State) (r : Nat) : Bool :=
  match (ring s r).holder with
  | .job j =>
    s.nrg.held.getLsbD 0 || (match job s j with
      | some v => v.st == .held
      | none => false)
  | _ => false

/-- Do the engines stand still: from step 4 to step 6 of an activation without reset (R84)? -/
def enginesStill (s : State) : Bool := match s.host.fwAct with
  | some a => a.quiesced
  | none => false

/-- May descriptors of a ring run at all: held by service firmware, or by a job that is not ending? -/
def ringLive (s : State) (r : Nat) : Bool :=
  !enginesStill s &&
  match (ring s r).holder with
  | .free => false
  | .service => true
  | .job j =>
    match job s j with
    | some v => v.st == .running || v.st == .held || v.st == .paused
    | none => false

/-- Runs the op of a dispatched descriptor: nothing where the ring has no such descriptor waiting for its engine; one that is held for
energy notes when it first waited (R368); one whose input is done goes on delivering its output. -/
def opStep (r idx cls op : Nat) (s : State) (body : Flight → State → State) : State :=
  match flightOf s r idx with
  | none => s
  | some f =>
    if fCls f ≠ cls ∨ fOp f ≠ op ∨ f.res.isSome ∨ ringLive s r = false then s
    else if nrgHeld s r then
      modFlight s r idx (fun f => { f with waitNrg := if f.waitNrg.isNone then some s.now else f.waitNrg })
    else if f.fin.isSome then pumpAll s r idx
    else body f s

/-- Ends a descriptor whose input met a breach, poison or a failed upstream. -/
def badInput (s : State) (r : Nat) (f : Flight) (a : OpIn) : State :=
  let s := if a.status = 7 then ringBreach s r f (buf s (hKey a.bad)).owner 4 (hIdx a.bad) false else s
  let s := if a.status = 6 then ueBuf s a.bad (ringStamp s r) else s
  stopFlight (consumeBad s r f a) r f { status := BitVec.ofNat 8 a.status, consumed := a.data.length }

/-- Ends a descriptor whose input was shorter than declared: it has been read to its end (R188, R193). -/
def shortInput (s : State) (r : Nat) (f : Flight) (a : OpIn) : State :=
  stopFlight (consume s r f a) r f { status := 2, consumed := a.data.length }

/-- Runs an op on its input: waits for the end of a chained input, ends the descriptor on a bad input, else runs `body`
on the input (status 0, 1 or 2). -/
def opOnInput (r idx cls op : Nat) (s : State) (body : Flight → OpIn → State → State) : State :=
  opStep r idx cls op s (fun f s =>
    if !inputReady f then absorb s r f
    else
      let a := opInput s r f
      if 3 ≤ a.status then badInput s r f a else body f a s)

/-- Ends an op whose input was read with its outputs: the input is consumed before the outputs find their buffers (DESIGN CHOICE,
assumption 68). -/
def finishOut (s : State) (r : Nat) (f : Flight) (a : OpIn) (os : List OutBuf) (e : ERes) : State :=
  giveOut (consume s r f a) r f.idx os
    { e with status := if e.status = 0 then BitVec.ofNat 8 a.status else e.status, consumed := a.data.length }

/-! ## Hold-backs and what a fragment takes at dispatch (R179, R211, R215, R219, R237, R242) -/

/-- Context slots that a polder may hold on one pipeline: POL_CTX.max; no limit for polder 0. -/
def ctxMax (s : State) (p : Nat) : Nat := if p = 0 then 64 else fld (polder s p).own.ctx 6 0

/-- The slots in use of a pipeline. -/
def ctxUsed (t : Tbl Ctx) (pipe : Nat) : List Ctx := (t.filter (fun e => e.1 / 64 == pipe && e.2.used)).map Prod.snd

/-- The pipelines on which a polder can take a context slot (R215). -/
def ctxFree (s : State) (t : Tbl Ctx) (pipes p : Nat) : List Nat :=
  (List.range pipes).filter (fun i =>
    decide ((ctxUsed t i).length < 64) && decide (((ctxUsed t i).filter (fun c => c.polder == p)).length < ctxMax s p))

/-- The compressors on which a polder can take a slot (R237). -/
def slotFree (s : State) (p : Nat) : List Nat :=
  (List.range 4).filter (fun i =>
    let u := (s.cmpr.slots.filter (fun e => e.1 / 8 == i && e.2.used)).map Prod.snd
    decide (u.length < 8) && (p == 0 || decide ((u.filter (fun c => c.polder == p)).length < 2)))

/-- Can a polder take a decompression stream record (R242)? -/
def recFree (s : State) (p : Nat) : Bool :=
  let u := (s.cmpr.recs.filter (fun e => e.2.used)).map Prod.snd
  decide (u.length < 64) && (p == 0 || decide ((u.filter (fun c => c.polder == p)).length < 16))

/-- The lowest-numbered free decompressor (R242). -/
def freeDec (s : State) : Option Nat := ((List.range 8).map (· + 4)).find? (fun i => !(tget s.cmpr.insts {} i).bound)

/-- Input bytes that a polder has queued on a pipeline or compressor of an engine class. -/
def queuedOn (s : State) (cls p i : Nat) : Nat :=
  ((s.bpm.rings.filter (fun e => ringStamp s e.1 == p)).map (fun e =>
    ((e.2.flight.filter (fun f => fCls f == cls && isFrag f && f.pipe == i && f.res.isNone)).map fDecl).sum)).sum

/-- Those of a list of pipelines or compressors where a polder has the fewest bytes queued (R215, R237). -/
def leastQueued (s : State) (cls p : Nat) (l : List Nat) : List Nat :=
  l.filter (fun i => l.all (fun j => decide (queuedOn s cls p i ≤ queuedOn s cls p j)))

/-- Where a FIRST fragment of an engine class can go: a message of one fragment needs no slot (DESIGN CHOICE: it takes the least queued
of all, assumption 68). -/
def firstOn (s : State) (p : Nat) (f : Flight) : List Nat :=
  let l := match fCls f with
    | 3 => if fLast f then List.range 8 else ctxFree s s.isl.cctx 8 p
    | 4 => if fLast f then List.range 4 else ctxFree s s.isl.dctx 4 p
    | _ => if fLast f then List.range 4 else slotFree s p
  leastQueued s (fCls f) p l

/-- Quarantining streams of a job: open ones, and FIRST GCM_DEC fragments dispatched that have not opened theirs (R219). -/
def quarCount (s : State) (j : Option Nat) : Nat :=
  (s.isl.quars.filter (fun q => q.2 == j)).length +
  ((s.bpm.rings.filter (fun e => ringJob s e.1 == j)).map (fun e =>
    (e.2.flight.filter (fun f => fCls f == 3 && fOp f == 1 && fFirst f && f.res.isNone && f.quar.isNone)).length)).sum

/-- Is a fragment's decompressor, or an extent's, to come from the free ones, and none is free (R242)? -/
def decHeld (s : State) (p : Nat) (f : Flight) : Bool :=
  (freeDec s).isNone && (fFirst f || (match findRec s p (fw f 7) with
    | .ok _ c => c.inst.isNone
    | _ => false))

/-- Is every compressor that a fragment could run on bound to another stream's block (R238)? -/
def cmprHeld (s : State) (p : Nat) (f : Flight) : Bool :=
  (if fFirst f then firstOn s p f else if cPipe (fw f 7) < 4 then [cPipe (fw f 7)] else []).all (fun i => (tget s.cmpr.insts {} i).bound)

/-- Does a descriptor hold back its ring (R179)? While the island is not ready, every one does (R211). -/
def descHeld (s : State) (r : Nat) (f : Flight) : Bool :=
  let p := ringStamp s r
  !s.isl.ready ||
  (match fCls f with
   | 2 => fld (fw f 9) 14 12 != 0 && (freeDec s).isNone
   | 3 => decide (fOp f ≤ 1) && fFirst f &&
       ((firstOn s p f).isEmpty || (fOp f == 1 && (ringJob s r).isSome && decide (16 ≤ quarCount s (ringJob s r))))
   | 4 => fOp f == 0 && fFirst f && (firstOn s p f).isEmpty
   | 5 => fOp f == 0 && (fFirst f || (match findSlot s p (fw f 7) with
       | .ok _ _ => true
       | _ => false)) && cmprHeld s p f
   | 6 => fOp f == 0 && ((fFirst f && !fLast f && !recFree s p) || decHeld s p f)
   | _ => false)

/-- The key slot and generation that a FIRST fragment's stream takes (R202). -/
def firstKey (s : State) (p : Nat) (f : Flight) : Option (Nat × BitVec 8) :=
  let pick := fun (slot : Option Nat) (t : Tbl KeySlot) => match slot with
    | some a => if (tget t {} a).key.isSome then some (a, (tget t {} a).gen) else none
    | none => none
  if fCls f = 3 then pick (keySlot s p (fld (fw f 6) 7 0)) s.isl.keys
  else if fHmac f then pick (hmacSlot s p (fld (fw f 6) 5 0)) s.isl.hmacs
  else none

/-- IV of a descriptor: words 8 to 10, byte 0 in word 8 bits 7:0. -/
def fIv (f : Flight) : Bytes := leBytes 4 (fw f 8).toNat ++ leBytes 4 (fw f 9).toNat ++ leBytes 4 (fw f 10).toNat

/-- The context of a FIRST fragment's stream. -/
def firstCtx (s : State) (r : Nat) (f : Flight) : Ctx :=
  let c : Ctx := { used := true, polder := ringStamp s r, ring := r, job := ringJob s r, slot := (f.key.map Prod.fst).getD 0,
                   gen := (f.key.map Prod.snd).getD 0 }
  if fCls f = 3 then { c with dec := fOp f == 1, iv := fIv f } else { c with alg := BitVec.ofNat 2 (fAlg f), hmac := fHmac f }

/-- The compression or decompression stream of a FIRST fragment. -/
def firstStrm (s : State) (r : Nat) (f : Flight) : Strm :=
  let w6 := fw f 6
  let c : Strm := { used := true, polder := ringStamp s r, ring := r, job := ringJob s r, format := fld w6 26 24 }
  if fCls f = 5 then { c with level := fld w6 23 22, sum := sumStart (fld w6 26 24) } else { c with limit := (fw f 8).toNat }

/-- One of a list's elements, taken with a free value (assumption 3). -/
def takeOne (s : State) (l : List Nat) : Nat × State := (pickOne s l, (takeFree s).2)

/-- Takes a free slot of a pipeline for a FIRST fragment's context. -/
def takeCtx (s : State) (r : Nat) (f : Flight) (dig : Bool) : Flight × State :=
  let t := if dig then s.isl.dctx else s.isl.cctx
  let (slot, s) := takeOne s ((List.range 64).filter (fun i => !(tget t {} (ctxKey f.pipe i)).used))
  let k := ctxKey f.pipe slot
  let q := (tget t {} k).seq + 1
  let t := tset t {} k { firstCtx s r f with seq := q }
  ({ f with strm := some (k, q) }, modIsl s (fun l => if dig then { l with dctx := t } else { l with cctx := t }))

/-- Takes a free compressor slot or stream record for a FIRST fragment. -/
def takeStrm (s : State) (r : Nat) (f : Flight) : Flight × State :=
  if fCls f = 5 then
    let (j, s) := takeOne s ((List.range 8).filter (fun j => !(tget s.cmpr.slots {} (slotKey f.pipe j)).used))
    let k := slotKey f.pipe j
    let q := (tget s.cmpr.slots {} k).seq + 1
    ({ f with strm := some (k, q) }, modCmpr s (fun m => { m with slots := tset m.slots {} k { firstStrm s r f with seq := q } }))
  else
    let (j, s) := takeOne s ((List.range 64).filter (fun j => !(tget s.cmpr.recs {} j).used))
    let q := (tget s.cmpr.recs {} j).seq + 1
    ({ f with strm := some (j, q) }, modCmpr s (fun m => { m with recs := tset m.recs {} j { firstStrm s r f with seq := q } }))

/-- What a fragment takes when it is dispatched: a FIRST one its pipeline or compressor (of several with equally few bytes queued, an open
choice, assumption 3; of the compressors one that is not bound), its key generation, and without LAST its slot or record; a later one
runs where its handle says (R202, R215, R237). -/
def takeStream (s : State) (r : Nat) (f : Flight) : Flight × State :=
  let p := ringStamp s r
  if !isFrag f then (f, s)
  else if !fFirst f then ({ f with pipe := if fCls f = 3 then cPipe (fw f 11) else cPipe (fw f 7) }, s)
  else
    let on := if fCls f = 5 then (firstOn s p f).filter (fun i => !(tget s.cmpr.insts {} i).bound) else firstOn s p f
    let (i, s) := if fCls f = 6 then (0, s) else takeOne s on
    let f := { f with pipe := i, key := if fCls f = 3 ∨ fCls f = 4 then firstKey s p f else none }
    if fLast f then (f, s)
    else if fCls f = 3 then takeCtx s r f false
    else if fCls f = 4 then takeCtx s r f true
    else takeStrm s r f

/-- The handle that a fragment's completion carries: that of the slot its FIRST fragment took, else the one it named (R215). -/
def strmHandle (f : Flight) : W32 :=
  match fFirst f, f.strm with
  | true, some (k, q) =>
    if fCls f = 6 then mkCtx q.toNat 0 k
    else if fCls f = 5 then mkCtx q.toNat (k / 8) (k % 8)
    else mkCtx q.toNat (k / 64) (k % 64)
  | _, _ => if fCls f = 3 then fw f 11 else fw f 7

/-! ## The end of a ring's work -/

/-- Frees the streams of the rings or jobs that a test picks: cipher and digest contexts, compression slots and records;
their quarantines fail (R216, R223, R236); shadows that only they held are zeroed (R203). -/
def freeStreams (s : State) (pick : Nat → Option Nat → Bool) : State :=
  let qs := (s.isl.cctx.filter (fun e => e.2.used && pick e.2.ring e.2.job)).map (fun e => e.2.quar)
  let s := qs.foldl failQuar s
  let hit := fun (t : Tbl Strm) => (t.filter (fun e => e.2.used && pick e.2.ring e.2.job)).map (fun e => e.2.inst)
  let s := (hit s.cmpr.slots ++ hit s.cmpr.recs).foldl unbind s
  let drop := fun (t : Tbl Ctx) => t.map (fun (e : Nat × Ctx) =>
    if e.2.used && pick e.2.ring e.2.job then (e.1, ({ seq := e.2.seq } : Ctx)) else e)
  let dropS := fun (t : Tbl Strm) => t.map (fun (e : Nat × Strm) =>
    if e.2.used && pick e.2.ring e.2.job then (e.1, ({ seq := e.2.seq } : Strm)) else e)
  let clean := fun (t : Tbl Ctx) => t.filter (fun (e : Nat × Ctx) => decide (e.2 ≠ {}))
  let cleanS := fun (t : Tbl Strm) => t.filter (fun (e : Nat × Strm) => decide (e.2 ≠ {}))
  let s := modIsl s (fun l => { l with cctx := clean (drop l.cctx), dctx := clean (drop l.dctx) })
  dropShadows (modCmpr s (fun c => { c with slots := cleanS (dropS c.slots), recs := cleanS (dropS c.recs) }))

/-- Drops what a descriptor of a released ring holds: undelivered outputs as poisoned buffers, unread chained input, its quarantine, its
instance; the descriptor bound downstream ends CANCELLED (R185, R192). -/
def dropFlight (s : State) (r : Nat) (f : Flight) : State :=
  let s := failQuar (cancelFlight s r f) f.quar
  endDown (unbind (f.chain.foldl releaseRef s) f.inst) r f 3

/-- Withdraws the flash reads of a ring's extent reads. -/
def dropReads (s : State) (r : Nat) : State :=
  modFtla s (fun f => { f with reads := f.reads.filter (fun q => match q.who with
    | .desc r' _ _ => r' != r
    | _ => true) })

/-- Releases a ring: its work is cancelled, its area zeroed, every index 0 (R176). -/
def releaseRing (s : State) (r : Nat) : State :=
  let g := ring s r
  let s := g.flight.foldl (fun s f => dropFlight s r f) s
  let s := g.waitBufs.foldl (fun s w => releaseRef s w.1) s
  let s := { s with srch := { s.srch with shifting := s.srch.shifting.map (fun e =>
    if (e.1.map Prod.fst) == some r then (none, e.2.1, e.2.2) else e) } }
  freeStreams (setRing (dropReads s r) r {}) (fun r' _ => r' == r)

/-- The rings that a job holds. -/
def jobRings (s : State) (j : Nat) : List Nat :=
  (s.bpm.rings.filter (fun e => e.2.holder == .job j)).map Prod.fst

end Sys2Proof.Machine
end

