-- ==== Sys2Proof/Machine/Rings.lean ====
section
/-! DEFINITION. Engine rings and the classes defined in full with them: doorbells, dispatch, completion, cancel, release,
BPM, DMA and extent descriptors, the leak audit (chapter "Engine rings, flows and the buffer pools"). -/

namespace Sys2Proof.Machine

open Sys2Proof

/-! ## Doorbells -/

/-- A doorbell that reaches an absolute ring from a source (R176, R178). -/
def doorbell (s : State) (r : Nat) (who : Holder) (p : BitVec 16) : State :=
  let g := ring s r
  let g := if g.holder = .free then { g with holder := who } else g
  if g.holder ≠ who then setRing s r { g with foreign := true }
  else if (p - g.cons).toNat ≤ 32 then setRing s r { g with prod := p }
  else if p = g.prod then setRing s r g
  else setRing s r { g with halted := true, cause := 3, concerned := p }

/-- RING_DOORBELL (R178): a write of RING_DB_r by service firmware. -/
def execRingDoorbell (ini : Ini) (r : Nat) (prod : BitVec 16) (s : State) : Res :=
  .next (if r < 256 then pageWrite s ini (frameOf 4 0 1) (0x40 + 4 * r) (fun s => doorbell s r .service prod) else s)

/-! ## Dispatch -/

/-- The sixteen words of a descriptor slot. -/
def slotWords (g : Ring) (i : Nat) : List W32 := (List.range 16).map (fun n => tget g.desc 0 (i % 32 * 16 + n))

/-- Is the slot of a descriptor poisoned in the ring area's SRAM (R356)? -/
def slotPoison (s : State) (r i : Nat) : Bool := curPoison s (sramCur + 49283072 + r * 4096 + i % 32 * 64)

/-- The input handles that a descriptor names, from its words or from its list buffer; the words of a LIST digest's list. -/
def dispatchIns (s : State) (r : Nat) (f : Flight) : List W32 :=
  if fKind f = 1 then [fw f 3]
  else if fKind f = 2 ∧ listOk s (ringStamp s r) f then
    let ws := listWords s f
    if fCls f = 4 ∧ fOp f = 0 ∧ fList f then ws.take (2 * (ws.getD 0 0).toNat + 1)
    else (ws.drop 1).take (ws.getD 0 0).toNat
  else []

/-- What the read of the list buffer met: a breach, or poison before its count word is looked at (R189). -/
def dispatchBad (s : State) (r : Nat) (f : Flight) : Nat :=
  if fKind f = 2 then (if !bufOk s (ringStamp s r) (fw f 3) then 7 else if bufPoison s (fw f 3) then 6 else 0) else 0

/-- Dispatch of the descriptor at CONS (R179, R180, R184): the ring halts on an invalid one, an earlier cancelled one is
passed over; the input handles are read from the list buffer. -/
def dispatchOne (s : State) (r : Nat) : State :=
  let g := ring s r
  let i := g.cons.toNat
  if g.skip.contains i then setRing s r { g with cons := g.cons + 1, skip := g.skip.erase i }
  else
    let f : Flight := { idx := i, words := slotWords g i }
    if slotPoison s r i then
      setRing (ueCur s (sramCur + 49283072 + r * 4096 + i % 32 * 64) 64 3 (ringStamp s r)) r { g with cons := g.cons + 1, flight := g.flight ++ [{ f with res := some { status := 6 } }] }
    else if descInvalid s r f then setRing s r { g with halted := true, cause := 2, concerned := g.cons }
    else if fFence f && g.flight.any (fun d => !g.skip.contains d.idx) then s
    else if descHeld s r f then s
    else
      let f := { f with ins := dispatchIns s r f, insBad := dispatchBad s r f }
      let s := setRing s r { g with cons := g.cons + 1 }
      let (f, s) := takeStream s r f
      let s := modRing s r (fun g => { g with flight := g.flight ++ [f] })
      if fKind f = 3 then bindWaiting s r i else s

/-- Is an activation without reset draining the engines, or past that (R84 steps 3 to 6)? -/
def draining (s : State) : Bool := match s.host.fwAct with
  | some a => a.paused
  | none => false

/-- DESCRIPTOR_DISPATCH (R179): nothing while the ring is halted or empty, its completions are full, its job is not running, or an
activation drains the engines. -/
def execDescriptorDispatch (r : Nat) (s : State) : Res :=
  let g := ring s r
  .next (if g.halted || g.cons == g.prod || ringFull g || !g.held.isEmpty || !ringLive s r || draining s then s else dispatchOne s r)

/-! ## Completion (R183, R185, R192, R195, R220, R226) -/

/-- Ends the ring's part of a committed descriptor: verdict, downstream, halt, counters. -/
def closeFlight (s : State) (r : Nat) (f : Flight) (e : ERes) : State :=
  let s := match e.verdict with
    | some (some q, ok) => endQuar s q (ok && decide (e.status.toNat ≤ 1))
    | _ => s
  let s := endDown s r f e.status
  let s := f.chain.foldl releaseRef s
  let s := pmonCount s 7 (ringStamp s r) 1
  modRing s r (fun g => { g with
    flight := g.flight.filter (fun d => d.idx != f.idx),
    cancelReq := if g.cancelIdx.toNat = f.idx then false else g.cancelReq,
    halted := g.halted || e.status == 6,
    cause := if e.status = 6 then 1 else g.cause,
    concerned := if e.status = 6 then BitVec.ofNat 16 f.idx else g.concerned })

/-- Commits a finished descriptor's completion once (R183, R195): word 4 names its output or the list of its outputs, word 5 counts those
that this record delivers, or all that were passed downstream. -/
def commitFlight (s : State) (r : Nat) (f : Flight) (e : ERes) : State :=
  if fNocomp f && e.status == 0 then closeFlight s r f e
  else
    let n := if (target s r f).isSome ∧ e.status ≠ 9 then f.given else e.outs.length
    let h := match e.list with
      | some h => h
      | none => e.outs.headD 0
    closeFlight (putRecord s r (recWords f e.status.toNat e.consumed e.produced h e.list.isSome true n e.w6 e.w7)) r f e

/-- VERIFY's match and mismatch words (R226). -/
def verifyMatch : W32 × W32 := (0x3C96A55A, 0xC3695AA5)
/-- The mismatch row. -/
def verifyMiss : W32 × W32 := (0xA55A3C96, 0x5AA5C369)

/-- The media key table cleared, the slots and contexts of set A zeroed (R212). -/
def zeroSetA (s : State) : State :=
  let qs := (s.isl.cctx.filter (fun e => e.2.used)).map (fun e => e.2.quar)
  let s := qs.foldl failQuar s
  let clr := fun (t : Tbl KeySlot) => (t.map (fun (e : Nat × KeySlot) => (e.1, ({ gen := e.2.gen } : KeySlot)))).filter
    (fun e => decide (e.2 ≠ {}))
  let lost := fun (t : Tbl Ctx) => t.map (fun (e : Nat × Ctx) =>
    if e.2.used then (e.1, { ({ used := true, seq := e.2.seq, polder := e.2.polder, ring := e.2.ring, job := e.2.job } : Ctx)
      with lost := true }) else e)
  modIsl s (fun l => { l with
    keys := clr l.keys, hmacs := clr l.hmacs, cctx := lost l.cctx, dctx := lost l.dctx,
    kek := [], transDraw := [], media := [] })

/-- Has a fragment started on its engine? -/
def started (f : Flight) : Bool := decide (f.acc ≠ []) || decide (f.todo ≠ []) || decide (f.full ≠ []) || f.fin.isSome

/-- Why a class 3 or 4 fragment's stream cannot go on: its context is gone (CONTEXT_LOST), or the generation that it holds is zeroed
(KEY_ERASED). -/
def keyGone (s : State) (r : Nat) (f : Flight) : Option (BitVec 8) :=
  let p := ringStamp s r
  let dig := fCls f == 4
  let gone := fun (a : Nat) (g : BitVec 8) =>
    if dig then (genKey (tget s.isl.hmacs {} a) g).isNone else (genKey (tget s.isl.keys {} a) g).isNone
  if dig && !fHmac f then
    (if fFirst f && fLast f then none
     else if (ctxOf s.isl.dctx 4 p f (fw f 7)).isNone then some 0x0E else none)
  else if fFirst f then
    match f.key with
    | some (a, g) => if gone a g then some 4 else none
    | none => none
  else
    match ctxOf (if dig then s.isl.dctx else s.isl.cctx) (if dig then 4 else 8) p f (if dig then fw f 7 else fw f 11) with
    | some k => let c := tget (if dig then s.isl.dctx else s.isl.cctx) {} k
                if gone c.slot c.gen then some 4 else none
    | none => some 4

/-- Stops every fragment that runs on a zeroed generation, or whose context is gone (R203, R212). -/
def sweepKeys (s : State) : State :=
  s.bpm.rings.foldl (fun s e =>
    e.2.flight.foldl (fun s f =>
      if isFrag f && decide (fCls f ≤ 4) && f.res.isNone && started f then
        match keyGone s e.1 f with
        | some st => stopFlight s e.1 f { status := st }
        | none => s
      else s) s) s

/-- Raises an alarm of code 1 to 5 or 7 (R212): set A is zeroed, the island recovers in two stages, FLT gets a report. -/
def alarm (s : State) (code : Nat) : State :=
  let s := sweepKeys (zeroSetA s)
  let s := modIsl s (fun l => { l with
    last := BitVec.ofNat 8 code, seen := l.seen ||| BitVec.ofNat 8 (2 ^ code), alarms := satInc l.alarms,
    alarmT := s.now, ready := false, mediaReady := false })
  report s 9 256 5 0 code 0

/-- ENGINE_COMPLETION (R195): the completion writer commits the descriptor; where the doubled comparators of a tag check or
VERIFY disagree, the mismatch stands and alarm 0x05 is raised (R226). -/
def execEngineCompletion (r idx : Nat) (agree : Bool) (s : State) : Res :=
  .next (match flightOf s r idx with
  | none => s
  | some f =>
    match f.res with
    | none => s
    | some e =>
      if !agree && (e.verdict.isSome || e.verify) then
        let held := if e.verify then [] else heldBufs f
        let e := if e.verify then { e with w6 := verifyMiss.1, w7 := verifyMiss.2 }
                 else { e with status := 5, outs := [], list := none, produced := 0, verdict := e.verdict.map (fun v => (v.1, false)) }
        alarm (commitFlight (poisonFree s held) r f e) 5
      else commitFlight s r f e)

/-- Writes held completions while places are free (R183). -/
def drainHeld (s : State) (r : Nat) : Nat → State
  | 0 => s
  | n + 1 =>
    if ringFull (ring s r) then s
    else
      match (ring s r).held with
      | [] => s
      | e :: es => drainHeld (writeRec (modRing s r (fun g => { g with held := es })) r e) r n

/-- A write of the CCONS state word. -/
def setCcons (s : State) (r : Nat) (v : BitVec 16) : State := drainHeld (modRing s r (fun g => { g with ccons := v })) r 32

/-- May an initiator write the area of a ring: stamp 0, or the owner through its window (R174)? -/
def areaOk (s : State) (ini : Ini) (r : Nat) : Bool :=
  decide (r < 256) && (iniStamp s ini == 0 || iniStamp s ini == ringOwner s r)

/-- A write of a ring's area; by another polder's stamp it is a breach (R38, R40). -/
def areaWrite (s : State) (ini : Ini) (r : Nat) (f : State → State) : State :=
  if r < 256 then
    if areaOk s ini r then f s else breach s (iniStamp s ini) (ringOwner s r) 4 0 true r ini
  else s

/-- HELD_COMPLETION_WRITE (R183): software advances CCONS; held completions are written. -/
def execHeldCompletionWrite (ini : Ini) (r : Nat) (ccons : BitVec 16) (s : State) : Res :=
  .next (areaWrite s ini r (fun s => setCcons s r ccons))

/-! ## Cancel, restart, release -/

/-- A write of the CANCEL state word (R194). A descriptor cancelled before its dispatch ends CANCELLED without running; a later fragment's
stream ends with it (R220, R248). -/
def cancelWord (s : State) (r : Nat) (v : W32) : State :=
  let g := ring s r
  if g.cancelReq then s
  else
    let i := fld v 15 0
    let g := { g with cancelIdx := BitVec.ofNat 16 i }
    if !bitOf v 31 then setRing s r g
    else if g.flight.any (fun f => f.idx == i) then
      setRing s r { g with cancelReq := true,
                           flight := g.flight.map (fun f => if f.idx = i then { f with cancelled := true } else f) }
    else if (BitVec.ofNat 16 i - g.cons).toNat < (g.prod - g.cons).toNat ∧ g.skip.contains i = false then
      let f : Flight := { idx := i, words := slotWords g i }
      let s := if fFirst f then s else dropStream s r f false
      modRing s r (fun g => { g with
        cancelIdx := BitVec.ofNat 16 i, skip := g.skip ++ [i], flight := g.flight ++ [{ f with res := some { status := 3 } }] })
    else setRing s r g

/-- RING_CANCEL (R194). -/
def execRingCancel (ini : Ini) (r : Nat) (v : W32) (s : State) : Res :=
  .next (areaWrite s ini r (fun s => cancelWord s r v))

/-- Withdraws the flash reads of one extent read. -/
def dropFlightReads (s : State) (r idx : Nat) : State :=
  modFtla s (fun f => { f with reads := f.reads.filter (fun q => match q.who with
    | .desc r' i' _ => !(r' == r && i' == idx)
    | _ => true) })

/-- CANCEL_AT_BOUNDARY (R194, R195): the cancel commits first, and the descriptor ends CANCELLED with its outputs released
as poisoned buffers; the fragment's stream ends (R220, R222, R248). -/
def execCancelAtBoundary (r idx : Nat) (s : State) : Res :=
  .next (match flightOf s r idx with
  | none => s
  | some f =>
    if f.cancelled then
      let s := failQuar (cancelFlight s r f) (if fFirst f then f.quar else none)
      endFlight (dropFlightReads s r idx) r idx { status := 3 }
    else s)

/-- A write of the RESTART state word: 1 resumes a halted ring (R177, R178). -/
def restartWord (s : State) (r : Nat) (v : W32) : State :=
  if v = 1 then modRing s r (fun g => { g with halted := false, cause := 0, concerned := 0 }) else s

/-- RING_RESTART (R178). -/
def execRingRestart (ini : Ini) (r : Nat) (v : W32) (s : State) : Res :=
  .next (areaWrite s ini r (fun s => restartWord s r v))

/-- A write of 1 to RING_STAT_r.free (R196). -/
def ringFreeWrite (s : State) (ini : Ini) (r : Nat) : State :=
  match (ring s r).holder with
  | .service => releaseRing s r
  | .job _ => wrongState s ini (frameOf 4 0 1) (0x440 + 4 * r)
  | .free => s

/-- RING_RELEASE (R176). -/
def execRingRelease (ini : Ini) (r : Nat) (s : State) : Res :=
  .next (if r < 256 then pageWrite s ini (frameOf 4 0 1) (0x440 + 4 * r) (fun s => ringFreeWrite s ini r) else s)

/-! ## Class 0: buffers -/

/-- ALLOC (R187): word 6 of the record is the new handle. -/
def execAlloc (r idx : Nat) (s : State) : Res :=
  .next (opStep r idx 0 0 s (fun f s =>
    match allocBuf s (ringStamp s r) (fw f 6).toNat (ringJob s r) with
    | none => noteWait s r idx
    | some (h, s) => endFlight s r idx { w6 := h }))

/-- HOLD (R188). -/
def execHold (r idx : Nat) (s : State) : Res :=
  .next (opStep r idx 0 1 s (fun f s =>
    let h := fw f 6
    if !bufOk s (ringStamp s r) h then
      endFlight (ringBreach s r f (buf s (hKey h)).owner 4 (hIdx h) true) r idx { status := 7 }
    else if (buf s (hKey h)).ref = 255 then endFlight s r idx { status := 8 }
    else endFlight (modBuf s (hKey h) (fun b => { b with ref := b.ref + 1 })) r idx {}))

/-- RELEASE (R188). -/
def execRelease (r idx : Nat) (s : State) : Res :=
  .next (opStep r idx 0 2 s (fun f s =>
    let h := fw f 6
    if !bufOk s (ringStamp s r) h then
      endFlight (ringBreach s r f (buf s (hKey h)).owner 4 (hIdx h) true) r idx { status := 7 }
    else endFlight (releaseRef s h) r idx {}))

/-- BUFFER_WAIT_TIMEOUT (R183, R187, R275): a descriptor that has waited 100 µs for a buffer ends NO_BUFFER; what earlier records named
stays valid, what no record names is released as poisoned; `r` of 1,024 and more
names channel r − 1,024, whose read with tag `idx` ends NO_BUFFER without a die command. -/
def execBufferWaitTimeout (r idx : Nat) (s : State) : Res :=
  .next (if 1024 ≤ r then
    match (flc s (r - 1024)).queue.find? (fun d => dTag d == idx && (match d.waitT with
        | some t => decide (t + 100 ≤ s.now)
        | none => false)) with
    | some d => flcComplete (flcDequeue s (r - 1024) d) (r - 1024) d 8
    | none => s
  else
    match flightOf s r idx with
    | none => s
    | some f =>
      match f.waitBuf with
      | none => s
      | some t =>
        if t + 100 ≤ s.now then
          let lba := match f.todo, f.parts with
            | o :: _, _ => o.lba
            | _, p :: _ => p.lba
            | _, _ => 0
          let used := match f.fin with
            | some e => e.consumed
            | none => 0
          stopFlight (dropFlightReads s r idx) r f
            { status := 8, consumed := used, w6 := BitVec.ofNat 32 lba, w7 := BitVec.ofNat 32 (lba / 2 ^ 32) }
        else s)

/-- BUFFER_FREE_DONE (R188, R189): a freed buffer has been zeroed, its poison flag is cleared, it is back in its pool. -/
def execBufferFreeDone (pool index : Nat) (s : State) : Res :=
  let k := bufKey pool index
  .next (if (buf s k).zeroing then modBuf s k (fun b => { gen := b.gen }) else s)

/-! ## Class 1: DMA (R181) -/

/-- The SLM byte that word 6 and 7 of a DMA descriptor name, counted from the start of the SLM region. -/
def dmaAddr (s : State) (r : Nat) (f : Flight) : Nat :=
  match ringJob s r with
  | some j =>
    match job s j with
    | some v => slmFirst (polder s v.polder) + ((v.ranges.getD (fld (fw f 6) 4 0) (0, 0)).1) + (fw f 7).toNat
    | none => 0
  | none => fld (fw f 6) 1 0 * 2 ^ 32 + (fw f 7).toNat

/-- The stamp of a DMA ring's accesses to SLM: 0 for one held by service firmware. -/
def dmaStamp (s : State) (r : Nat) : Nat := if (ring s r).holder = .service then 0 else ringStamp s r

/-- Does a DMA access of `n` bytes pass the DRC dike (R38)? -/
def dmaOk (s : State) (r a n : Nat) : Bool :=
  let p := dmaStamp s r
  p == 0 || ((dramOwner s (slmBase + a) == p) && (dramOwner s (slmBase + a + n - 1) == p))

/-- TO_SLM (R181): the input goes into the range; a short input's bytes stay there and the descriptor ends SHORT. -/
def execToSlm (r idx : Nat) (s : State) : Res :=
  .next (opOnInput r idx 1 0 s (fun f a s =>
    let o := dmaAddr s r f
    if dmaOk s r o a.data.length then
      let s := jobSlmWrite s (ringJob s r) o a.data
      let s := chargeRing (dramCount s (ringStamp s r) a.data.length) r (dramFj s a.data.length)
      endFlight (consume s r f a) r idx { status := BitVec.ofNat 8 a.status, consumed := a.data.length, produced := a.data.length }
    else endFlight (ringBreach s r f (dramOwner s (slmBase + o)) 0x0B o true) r idx { status := 7 }))

/-- Is any of `n` SLM bytes in an uncorrectable or poisoned DRAM line? -/
def slmPoison (s : State) (o n : Nat) : Bool :=
  (List.range (n / 64 + 2)).any (fun i => decide (o / 64 * 64 + 64 * i < o + n) && dramBad s (slmBase + o / 64 * 64 + 64 * i))

/-- FROM_SLM (R181). -/
def execFromSlm (r idx : Nat) (s : State) : Res :=
  .next (opStep r idx 1 1 s (fun f s =>
    let o := dmaAddr s r f
    let n := fDecl f
    if !dmaOk s r o n then endFlight (ringBreach s r f (dramOwner s (slmBase + o)) 0x0B o false) r idx { status := 7 }
    else if slmPoison s o n then endFlight (ueCur s (dramCur + slmBase + o) n 3 (ringStamp s r)) r idx { status := 6 }
    else
      giveOut (chargeRing (dramCount (dramRead s (slmBase + o) n) (ringStamp s r) n) r (dramFj s n)) r idx (cutOut [] 0 0 (slmBytes s o n) true) { produced := n }))

/-! ## Class 2: extent reads (R111-R113, R182) -/

/-- Detail words 6 and 7 of an LBA. -/
def lbaRes (lba : Nat) (e : ERes) : ERes := { e with w6 := BitVec.ofNat 32 lba, w7 := BitVec.ofNat 32 (lba / 2 ^ 32) }

/-- Counts a fragment that ended with an error status: BAD_CODE to CHECKSUM_FAIL are 0 to 3, NOT_SHRUNK 4. -/
def countErr (s : State) (st : Nat) : State :=
  let e := if st = 9 then some 4 else if 0x0A ≤ st ∧ st ≤ 0x0D then some (st - 0x0A) else none
  match e with
  | some e => modCmpr s (fun c => { c with errs := tmod c.errs 0 e satInc })
  | none => s

/-- Bytes into a circular area of 8 MiB. -/
def wrapWrite (s : State) (base pos : Nat) (bs : Bytes) : State :=
  let o := pos % 8388608
  let s := dramWrite s (base + o) (bs.take (8388608 - o))
  if bs.length ≤ 8388608 - o then s else dramWrite s base (bs.drop (8388608 - o))

/-- The history of a Zstandard frame beyond the last 256 KiB is in the area of R234; which part of it a decompressor uses the spec does
not say: 8 MiB each, in order (DESIGN CHOICE, assumption 68). -/
def keepHistory (s : State) (i win : Nat) (frame : Bytes) : State :=
  if win ≤ 262144 ∨ frame.length ≤ 262144 then s
  else
    let a := frame.length - min win frame.length
    wrapWrite s (imgBase + (i - 4) * 8388608) a ((frame.drop a).take (frame.length - 262144 - a))

/-- Takes a block of an extent READ out of its list. -/
def takePart (s : State) (r idx : Nat) : State := modFlight s r idx (fun f => { f with parts := f.parts.drop 1 })

/-- Ends an extent READ on a lost or unreadable block once the blocks before it are delivered (R112, R182): with next ring 0xFF the
poisoned buffer is delivered. -/
def extentLost (s : State) (r : Nat) (f : Flight) (p : Part) : State :=
  let s := pumpAll s r f.idx
  match flightOf s r f.idx with
  | none => s
  | some f =>
    if f.res.isSome ∨ f.todo ≠ [] ∨ f.full ≠ [] then s
    else
      match target s r f with
      | some _ => stopFlight s r f (lbaRes p.lba { status := 6 })
      | none =>
        match allocBuf s (ringStamp s r) 4096 (ringJob s r) with
        | none => noteWait s r f.idx
        | some (h, s) =>
          endFlight (modBuf s (hKey h) (fun b => { b with poison := true, fill := 4096 })) r f.idx
            (lbaRes p.lba { status := 6, outs := [h] })

/-- The result of an extent READ: with next ring 0xFF the last record names the last block. -/
def extentEnd (s : State) (r : Nat) (f : Flight) (lba n : Nat) : ERes :=
  match target s r f with
  | none => lbaRes lba { produced := n }
  | some _ => { produced := n }

/-- A block of an extent READ with a decompress code (R242, R245): one stream whose single fragment is LAST, on the lowest-numbered free
decompressor, for which it waits. Its output carries the block that the decoder has reached. -/
def extentFeed (s : State) (r : Nat) (f : Flight) (p : Part) (code : Nat) (last : Bool) : State :=
  match (match f.inst with
    | some i => some i
    | none => freeDec s) with
  | none => s
  | some i =>
    let s := bindInst s i (ringStamp s r) code
    let data := f.acc ++ (partData p).take 4096
    let d := decodeFrag code last (data.length + 1) data 0 [] 0 false
    let s := keepHistory s i (frameWindow d.rest) d.frame
    let s := modFlight (takePart s r f.idx) r f.idx (fun f => { f with acc := data, inst := some i })
    if d.status ≠ 0 then
      giveOut (countErr (chargeRing s r (decompFj s d.out.length)) d.status) r f.idx (cutOut [] p.lba f.sent d.out false)
        (lbaRes p.lba { status := BitVec.ofNat 8 d.status })
    else if last then
      giveOut (chargeRing s r (decompFj s d.out.length)) r f.idx (cutOut [] p.lba f.sent d.out true) (extentEnd s r f p.lba d.out.length)
    else moreOut s r f.idx (cutOut [] p.lba f.sent d.out false)

/-- What an extent READ does with the blocks that have arrived, in LBA order (R111, R182): each is delivered in one 4 KiB buffer without
its metadata, or fed to the decompressor. -/
def extentTake (s : State) (r idx : Nat) : Nat → State
  | 0 => s
  | n + 1 =>
    match flightOf s r idx with
    | none => s
    | some f =>
      if f.res.isSome ∨ f.fin.isSome then pumpAll s r idx
      else
        match f.parts with
        | [] => s
        | p :: rest =>
          let code := fld (fw f 9) 14 12
          if p.bad then extentLost s r f p
          else if p.data.isNone then pumpAll s r idx
          else if code ≠ 0 then
            if f.inst.isNone ∧ (freeDec s).isNone then s else extentTake (extentFeed s r f p code rest.isEmpty) r idx n
          else
            let o : OutBuf := { size := 4096, data := (partData p).take 4096, lba := p.lba }
            if rest.isEmpty then giveOut (takePart s r idx) r idx [o] (extentEnd s r f p.lba (fld (fw f 9) 9 0 * 4096))
            else extentTake (moreOut (takePart s r idx) r idx [o]) r idx n

/-- What an extent READ does with the blocks that have arrived. -/
def extentGo (s : State) (r idx : Nat) : State := extentTake s r idx 513

/-- Gives a block to the extent READ that waits for it. -/
def descPart (s : State) (r idx lba : Nat) (v : Piece) : State :=
  let s := modFlight s r idx (fun f => { f with parts := f.parts.map (fun p =>
    if p.lba = lba then { p with data := if v.bad then none else some v.data, bad := v.bad } else p) })
  extentGo s r idx

/-- Starts the block reads of an extent READ. -/
def extentReads (s : State) (r idx pol : Nat) : List (Nat × Nat) → State
  | [] => s
  | (lba, l) :: rest =>
    match readBlock s (.desc r idx lba) pol l with
    | (some v, s) => extentReads (descPart s r idx lba v) r idx pol rest
    | (none, s) => extentReads s r idx pol rest

/-- EXTENT_READ (R182): the namespace's owner must be the requesting polder; each block is looked up (R113), and what has
arrived is delivered. -/
def execExtentRead (r idx : Nat) (s : State) : Res :=
  .next (opStep r idx 2 0 s (fun f s =>
    if f.parts ≠ [] then extentGo s r idx
    else
      let p := ringStamp s r
      let nsid := (fw f 6).toNat
      let slba := w64 (fw f 7) (fw f 8)
      let n := fld (fw f 9) 9 0
      match nsOf s nsid with
      | none =>
        if p = 0 then endFlight s r idx (lbaRes slba { status := 6 })
        else endFlight (ringBreach s r f 0 0x0A nsid false) r idx { status := 7 }
      | some v =>
        if p ≠ 0 ∧ v.owner ≠ p then endFlight (ringBreach s r f v.owner 0x0A nsid false) r idx { status := 7 }
        else
          let lbas := (List.range n).map (fun i => slba + i)
          let s := modFlight s r idx (fun f => { f with parts := lbas.map (fun b =>
            { lba := b, bad := (lidx v b).isNone }) })
          let s := extentReads s r idx p (lbas.filterMap (fun b => (lidx v b).map (fun l => (b, l))))
          extentGo s r idx))

/-! ## Audit and energy -/

/-- A write of 1 to BPM_CTRL.audit (R190): a record for each polder and pool whose oldest outstanding buffer is older than
the threshold. -/
def auditWrite (s : State) : State :=
  let out := s.bpm.bufs.filter (fun e => e.2.ref != 0)
  let pairs := ((List.range 64).flatMap (fun p => [0, 1, 2, 3].map (fun q => (p, q))))
  pairs.foldl (fun s pq =>
    let here := out.filter (fun e => e.2.owner == pq.1 && keyPool e.1 == pq.2)
    let age := (here.map (fun e => s.now - e.2.t)).foldl max 0
    if here ≠ [] ∧ s.bpm.age.toNat * 1000 < age then
      addLeak s { owner := pq.1, pool := pq.2, out := here.length, age := age }
    else s) s

/-- BUFFER_AUDIT (R190): the write of BPM_CTRL that carries the audit bit. -/
def bpmCtrlWrite (s : State) (v : W32) : State :=
  let s := modBpm s (fun b => { b with age := BitVec.ofNat 16 (fld v 23 8) })
  if bitOf v 0 then auditWrite s else s

/-- BUFFER_AUDIT (R190). -/
def execBufferAudit (ini : Ini) (v : W32) (s : State) : Res :=
  .next (pageWrite s ini (frameOf 4 0 0) 0x40 (fun s => bpmCtrlWrite s v))

/-- ENERGY_DEFERRED (R368): a descriptor held 20 ms for energy, an activation's pause not counted, ends without running; the stream of
a compression fragment, and that of a LAST fragment, ends with it (R220, R248). -/
def execEnergyDeferred (r idx : Nat) (s : State) : Res :=
  .next (match flightOf s r idx with
  | none => s
  | some f =>
    match f.waitNrg with
    | some t => if t + 20000 ≤ s.now ∧ f.res.isNone ∧ draining s = false then stopFlight s r f { status := 0x0F } else s
    | none => s)

end Sys2Proof.Machine
end

