-- ==== Sys2Proof/Machine/Flash.lean ====
section
/-! DEFINITION. Flash channels: pushes, issue of die commands in queue order, their ends, soft decode, suspension, timeouts,
retraining, block state, cancels and completions (R272-R302). A die command's row names the channel, the queue and the place
of its descriptor among those waiting in that queue; nothing happens where that descriptor may not issue. -/

namespace Sys2Proof.Machine

open Sys2Proof

/-! ## Reads that FTLA issued -/

/-- Charges work for the waiter of a block read: a host command's polder, an extent's ring (R364, R365). -/
def chargeWho (s : State) (who : Waiter) (fj : Nat) : State :=
  match who with
  | .cmd fn _ _ _ => charge s (fnPolder fn) fj true
  | .desc r _ _ => chargeRing s r fj
  | .page _ => chargeSvc s fj

/-- Gives the result of a block read to its waiter. -/
def giveRead (s : State) (q : RdReq) (v : Piece) : State :=
  match q.who with
  | .cmd fn sq cid lba => cmdPart s fn sq cid lba v
  | .desc r idx lba => descPart s r idx lba v
  | .page _ => s

/-- A map page has arrived (R310): it is cached and the lookups that waited for it go on; with `ok` false it is beyond the
redundancy budget and their blocks are unreadable. -/
def pageArrived (s : State) (pg : Nat) (ok : Bool) : State :=
  let mine := s.ftla.reads.filter (fun q => q.page && q.lidx / 1024 == pg)
  let s := modFtla s (fun f => { f with reads := f.reads.filter (fun q => !(q.page && q.lidx / 1024 == pg)) })
  let s := if ok then cachePage s pg else s
  mine.foldl (fun s q =>
    if ok then
      let s := if (tget s.ftla.pages {} pg).cached then s else laAdd s q.lidx
      match readBlock s q.who q.polder q.lidx with
      | (some v, s) => giveRead s q v
      | (none, s) => s
    else giveRead s q { bad := true }) s

/-- A read request has its granule's data: a map page is looked up in, a logical block goes through the media path. -/
def readGot (s : State) (q : RdReq) : State :=
  let t := modFtla s (fun f => { f with reads := f.reads.filter (fun x => x.id != q.id) })
  match q.who with
  | .page pg => pageArrived t pg true
  | _ => giveRead (chargeWho t q.who (mediaFj t)) q { data := granPlain t q.lidx q.gran }

/-- A read request whose granule no parity can rebuild: a map page's blocks are unreadable, a logical block becomes lost (R332). -/
def readLost (s : State) (q : RdReq) : State :=
  let s := modFtla s (fun f => { f with reads := f.reads.filter (fun x => x.id != q.id) })
  match q.who with
  | .page pg => pageArrived (reportBy s 0x0A 0 6 128 0) pg false
  | _ => giveRead (reportBy (trimRecord s q.lidx 1 vLost) 0x0A 0 6 128 0) q { bad := true }

/-- The flash part of a read request has ended: its granule is good, or it is to be rebuilt by read-around (R321, R323). -/
def readEnd (s : State) (id : Nat) (good : Bool) : State :=
  match s.ftla.reads.find? (fun q => q.id == id) with
  | none => s
  | some q =>
    if good then readGot s q
    else modFtla s (fun f => { f with reads := f.reads.map (fun x =>
      if x.id = id then { x with withdrawn := true, again := true } else x) })

/-! ## Pushes -/

/-- The assembly of an initiator. -/
def asmOf (c : Flc) (ini : Ini) : Option (Nat × List W32) :=
  match c.asm.find? (fun e => e.1 == ini) with
  | some (_, q, ws) => some (q, ws)
  | none => none

/-- A word written to FLC_DQ_PUSH_q (R273, R274). -/
def pushWord (s : State) (ini : Ini) (ch q : Nat) (w : W32) : State :=
  let f := frameOf 9 ch 0
  let c := flc s ch
  let (ws, s) := match asmOf c ini with
    | none => ([], s)
    | some (q', ws) => if q' = q then (ws, s) else ([], errAt s ini f 0x63 (0x80 + 4 * q))
  let ws := ws ++ [w]
  let rest := (flc s ch).asm.filter (fun e => e.1 != ini)
  if ws.length < 8 then modFlc s ch (fun c => { c with asm := rest ++ [(ini, q, ws)] })
  else
    let s := modFlc s ch (fun c => { c with asm := rest })
    let d : FDesc := { words := ws, q := q }
    if dInvalid d then errRec s f (iniStamp s ini) 0x62 (put (dTag d) 15 0)
    else if !dqRoom (flc s ch) q then errRec s f (iniStamp s ini) 0x61 (put (dTag d) 15 0)
    else flcCommit s ch d

/-- DESCRIPTOR_PUSH_WORD (R273). -/
def execDescriptorPushWord (ini : Ini) (ch q : Nat) (w : W32) (s : State) : Res :=
  .next (if ch < 32 ∧ q < 4 then pageWrite s ini (frameOf 9 ch 0) (0x80 + 4 * q) (fun s => pushWord s ini ch q w) else s)

/-! ## Issue order (R279, R280, R289) -/

/-- Descriptors waiting for a die, in commit order. -/
def waiting (s : State) (ch die : Nat) : List FDesc := (flc s ch).queue.filter (fun d => dDie d == die)

/-- The highest-priority queue with a descriptor for the die. -/
def topQueue (ws : List FDesc) : Nat := (ws.map (fun d => d.q)).foldl min 4

/-- The descriptors that a free die chooses among: those of queues 0 and 1 during an automatic suspension (R289). -/
def choices (s : State) (ch dd : Nat) : List FDesc :=
  if (die s ch dd).auto then (waiting s ch dd).filter (fun x => decide (x.q ≤ 1)) else waiting s ch dd

/-- The lower descriptor that 8 consecutive issues from higher queues make the next (R279). -/
def bypassed (s : State) (ch dd : Nat) : Option FDesc :=
  let ws := choices s ch dd
  if 8 ≤ (die s ch dd).bypass then (ws.filter (fun x => decide (topQueue ws < x.q))).head? else none

/-- Is it a descriptor's turn on a free die: that of the highest-priority queue and there of the polder that the round-robin serves,
but for a bypassed one (R279, R280)? -/
def queueTurn (s : State) (ch : Nat) (d : FDesc) : Bool :=
  let ws := choices s ch (dDie d)
  match bypassed s ch (dDie d) with
  | some x => x == d
  | none => d.q == topQueue ws && (drrPick s ch (dDie d) d.q ws).any (fun r => r.1 == dPolder d)

/-- A descriptor takes its turn on a free die: the round-robin charges its polder, and forgets the deficit of one with nothing more
waiting (R280). -/
def takeTurn (s : State) (ch : Nat) (d : FDesc) : State :=
  let ws := choices s ch (dDie d)
  match bypassed s ch (dDie d), drrPick s ch (dDie d) d.q ws with
  | none, some (p, cost, t) =>
    let more := (ws.filter (fun x => x.q == d.q && dPolder x == p)).length ≠ 1
    modDie s ch (dDie d) (fun v => { v with
      turn := tset v.turn 0 d.q p, deficit := tset t 0 (d.q * 64 + p) (if more then tget t 0 (d.q * 64 + p) - cost else 0) })
  | _, _ => s

/-- May a descriptor issue now: the channel runs, its completion queue has room, no brown-out refuses it, it is the oldest of
its polder for the die in its queue, and it is its turn on the free die. A READ_STATUS, a RESET_DIE, a RESUME and a SUSPEND act on a
busy die at once; a stuck or failed die has no turns. -/
def mayIssue (s : State) (ch : Nat) (d : FDesc) : Bool :=
  let c := flc s ch
  let v := die s ch (dDie d)
  let op := dOp d
  c.enable && !c.training && !flcFull c && c.held.isEmpty
  && (!c.brownout || dHoldup d || op == 0xA)
  && ((waiting s ch (dDie d)).find? (fun x => x.q == d.q && dPolder x == dPolder d) == some d)
  && (op == 0xA || v.stuck || v.failed
      || (if v.st == .idle then queueTurn s ch d
          else op == 7 || op == 6 || (op == 5 && v.st != .suspending && v.st != .resetting && v.st != .training)))

/-- The descriptor at place `i` of queue `q` with an op, where it may issue. -/
def issuable (s : State) (ch q i op : Nat) : Option FDesc :=
  match ((flc s ch).queue.filter (fun d => d.q == q))[i]? with
  | some d => if dOp d = op ∧ mayIssue s ch d then some d else none
  | none => none

/-- The issue point: the descriptor leaves its queue, the die runs it (R279, R296). -/
def startDie (s : State) (ch : Nat) (d : FDesc) (st : DieSt) : State :=
  let ws := waiting s ch (dDie d)
  let lower := ws.any (fun x => decide (d.q < x.q))
  let byp := decide (d.q = topQueue ws) && lower
  let s := flcDequeue (if (die s ch (dDie d)).st = .idle then takeTurn s ch d else s) ch d
  modDie s ch (dDie d) (fun v => { v with
    st := st, run := some { d with issued := s.now, waitT := none }, t := s.now,
    bypass := if byp then v.bypass + 1 else 0 })

/-- A descriptor completes without a die command. -/
def noDie (s : State) (ch : Nat) (d : FDesc) (status : Nat) (i : FInfo := {}) : State :=
  flcComplete (flcDequeue s ch d) ch d status i

/-- Issues a descriptor at its turn: one whose slot reads as uncorrectable ends POISONED_INPUT (R356), a stuck or failed die ends it
DIE_TIMEOUT (R278, R300). -/
def issue (ch q i op : Nat) (s : State) (run : FDesc → Die → State → State) : State :=
  match issuable s ch q i op with
  | none => s
  | some d =>
    let v := die s ch (dDie d)
    if lineBad s (129 + ch) d.slot then noDie (ueRead s (129 + ch) d.slot 4 0) ch d 6
    else if v.failed || (v.stuck && op != 7) then noDie s ch d 0x26 else run d v s

/-! ## Reads -/

/-- Takes buffers of given sizes. -/
def allocMany (s : State) (p : Nat) : List Nat → Option (List W32 × State)
  | [] => some ([], s)
  | n :: ns =>
    match allocBuf s p n none with
    | none => none
    | some (h, s) =>
      match allocMany s p ns with
      | none => none
      | some (hs, s) => some (h :: hs, s)

/-- A read at its turn: the suspended block is refused; destination kind 0 takes its list buffer and granule buffers first
and waits up to 100 µs for them (R275, R287). -/
def readTurn (ch : Nat) (d : FDesc) (v : Die) (s : State) : State :=
  if onSuspended v d then noDie s ch d 0x21
  else if d.ftla || dList d then startDie s ch d .reading
  else
    match allocMany s (dPolder d) (512 :: (dGranules ch d).map (fun _ => 4096)) with
    | some (hs, s') =>
      let d' := { d with bufs := hs }
      startDie (modFlc s' ch (fun c => { c with queue := c.queue.map (fun x => if x == d then d' else x) })) ch d' .reading
    | none =>
      match d.waitT with
      | some t => if t + 100 ≤ s.now then noDie s ch d 8 else s
      | none => modFlc s ch (fun c => { c with queue := c.queue.map (fun x => if x == d then { d with waitT := some s.now } else x) })

/-- READ_PAGE (R279). -/
def execReadPage (ch q i : Nat) (s : State) : Res := .next (issue ch q i 0 s (readTurn ch))
/-- READ_CACHE (R274). -/
def execReadCache (ch q i : Nat) (s : State) : Res := .next (issue ch q i 1 s (readTurn ch))
/-- READ_RETRY (R294): as READ_PAGE with the named offset set. -/
def execReadRetry (ch q i : Nat) (s : State) : Res := .next (issue ch q i 2 s (readTurn ch))

/-! ## Programs and erases -/

/-- The check of R284 on one plane: none to program; else the completion's bit 11. -/
def progCheck (s : State) (ch : Nat) (d : FDesc) (plane : Nat) : Option Bool :=
  let b := blk s ch (dDie d) plane (dBlock d)
  let pslc := dMode d == 1
  match b.st with
  | .opened => if dPage d < b.ptr ∨ b.pslc ≠ pslc then some false else none
  | .erased =>
    let ob := openBlks s ch (dDie d) plane
    if dHoldup d then (if ob.any (fun x => x.hold) then some true else none)
    else if 4 ≤ (ob.filter (fun x => !x.hold)).length then some true else none
  | _ => some false

/-- The block after a program of the descriptor's page (R283). -/
def progBlk (d : FDesc) (b : Blk) : Blk :=
  { st := if dPage d + 1 = pagesOf (dMode d) then .sealed else .opened, ptr := dPage d + 1, pslc := dMode d == 1,
    hold := if b.st = .erased then dHoldup d else b.hold }

/-- Writes what a program's granules will hold. -/
def putGran (s : State) (g : Nat) (v : Gran) : State := modFtla s (fun f => { f with media := tset f.media {} g v })

/-- The sources of a firmware PROGRAM: 4 KiB at each cursor of its list; a breach or poison ends it (R275). -/
def progSources (s : State) (ch : Nat) (d : FDesc) : Except (Nat × Nat × Nat × Nat) (List Bytes) :=
  let n := (dGranules ch d).length
  let cs := curList s d n
  match ((dCursor d, 8 * n) :: cs.map (fun c => (c, 4096))).findSome? (fun x => spanBreach s (dPolder d) x.1 x.2) with
  | some (c, blk, o) => .error (7, c, blk, o)
  | none =>
    if spanPoison s (dCursor d) (8 * n) || cs.any (fun c => spanPoison s c 4096) then .error (6, 0, 0, 0)
    else .ok (cs.map (fun c => curRead s c 4096))

/-- What the staged writes of a program unit put on flash: plaintext under the namespace's media key, with the back-pointer
(R199, R307). -/
def unitGran (s : State) (seq : Nat) : Option Gran :=
  (s.ftla.staging.find? (fun e => e.seq == seq)).map (fun e =>
    { key := tget s.isl.media 0 e.nsid, data := e.data, back := some e.lidx, lba := e.lba })

/-- Bytewise XOR of two granules. -/
def xorBytes (a b : Bytes) : Bytes := (a.zip b).map (fun x => x.1 ^^^ x.2)

/-- The P granule of a row (R316): the XOR of the granules in the same slot of the other present members. -/
def parityGran (s : State) (g : Nat) : Gran :=
  let sb := tget s.ftla.sbs {} (gDie g * 2730 + gBlock g)
  let others := (List.range 32).filter (fun c => c != gChan g && !sb.absent.getLsbD c)
  { data := (others.map (fun c => granRaw s (granNo c (gDie g) (gPlane g) (gBlock g) (gPage g) (gSlot g)))).foldl xorBytes
      (List.replicate 4096 0), raw := true }

/-- Slots of a program unit that no staged write fills: the spec does not say what they hold (assumption 3). -/
def padGrans (s : State) : List Nat → List (Nat × Gran) × State
  | [] => ([], s)
  | g :: gs =>
    let (n, s) := takeFree s
    let (r, s) := padGrans s gs
    ((g, { data := padTo 4096 (Config.freeBytes n), raw := true }) :: r, s)

/-- Starts a program: the block states change, the granules are written, waiting reads over their limit are withdrawn. -/
def startProgram (s : State) (ch : Nat) (d : FDesc) (grans : List (Nat × Gran)) : State :=
  let s := startDie s ch d .program
  let s := modBlks s ch d (progBlk d)
  withdrawReads (grans.foldl (fun s e => putGran s e.1 e.2) s) ch (dDie d)

/-- A program at its turn. -/
def programTurn (ch : Nat) (d : FDesc) (_ : Die) (s : State) : State :=
  match (planesOf (dPlanes d)).filterMap (progCheck s ch d) with
  | lim :: _ => noDie s ch d 0x20 { limit := lim }
  | [] =>
    if d.ftla then
      let s := (s.ftla.staging.filter (fun e => d.units.any (fun u => u.1 == e.seq) && stagedLost s e)).foldl
        (fun s e => loseStaged s e 4) s
      let mine := d.units.filterMap (fun u => (unitGran s u.1).map (fun g =>
        (granNo ch (dDie d) (u.2 / 4) (dBlock d) (dPage d) (u.2 % 4), g)))
      let rest := ((dGranules ch d).map Prod.snd).filter (fun g => !mine.any (fun m => m.1 == g))
      let (fill, s) := if d.units.isEmpty then (rest.map (fun g => (g, parityGran s g)), s) else padGrans s rest
      startProgram s ch d (mine ++ fill)
    else
      match progSources s ch d with
      | .error (st, c, b, o) =>
        let s := if st = 7 then breach s (dPolder d) o b 0 false c (.block 9 ch)
          else (curList s d (dGranules ch d).length).foldl (fun s c => ueCur s c 4096 4 (dPolder d)) s
        noDie s ch d st
      | .ok srcs =>
        startProgram s ch d (((dGranules ch d).map Prod.snd).zip (srcs.map (fun b => { data := b, raw := true })))

/-- PROGRAM (R284). -/
def execProgram (ch q i : Nat) (s : State) : Res := .next (issue ch q i 3 s (programTurn ch))

/-- ERASE (R283, R287). -/
def execErase (ch q i : Nat) (s : State) : Res :=
  .next (issue ch q i 4 s (fun d v s =>
    if v.susp.isSome then noDie s ch d 0x27
    else modDie (modBlks (startDie s ch d .erase) ch d (fun b => { b with st := .erasing })) ch (dDie d) (fun v => { v with ran := 0 })))

/-! ## Suspension -/

/-- Starts the suspension of the running erase. -/
def beginSuspend (s : State) (ch dd : Nat) (by_ : Option FDesc) : State :=
  modDie s ch dd (fun v => { v with
    st := .suspending,
    susp := v.run.map (fun e => (e, v.ran + (s.now - v.t))),
    run := by_, t := s.now, auto := by_.isNone })

/-- The suspended erase runs again. -/
def doResume (s : State) (ch dd : Nat) : State :=
  match (die s ch dd).susp with
  | none => s
  | some (e, ran) =>
    let s := modBlks s ch e (fun b => { b with st := .erasing })
    modDie s ch dd (fun v => { v with st := .erase, run := some e, t := s.now, ran := ran, susp := none, auto := false })

/-- SUSPEND (R287, R288). -/
def execSuspend (ch q i : Nat) (s : State) : Res :=
  .next (issue ch q i 5 s (fun d v s =>
    if v.st = .program then noDie s ch d 0x27
    else if v.st = .erase then
      beginSuspend (flcDequeue s ch d) ch (dDie d) (some { d with issued := s.now })
    else noDie s ch d 0))

/-- RESUME (R287). -/
def execResume (ch q i : Nat) (s : State) : Res :=
  .next (issue ch q i 6 s (fun d v s =>
    if v.susp.isNone then noDie s ch d 0
    else if v.st ≠ .idle then noDie s ch d 0x27
    else doResume (noDie s ch d 0) ch (dDie d)))

/-- A descriptor waiting in queue 0 or 1 for a die. -/
def urgent (s : State) (ch dd : Nat) : Bool := (waiting s ch dd).any (fun d => decide (d.q ≤ 1))

/-- AUTO_SUSPEND (R289): the erase has run susp_guard µs since it started or last resumed. -/
def execAutoSuspend (ch die_ : Nat) (s : State) : Res :=
  let v := die s ch die_
  .next (if (flc s ch).autoSusp ∧ v.st = .erase ∧ urgent s ch die_ ∧ (flc s ch).guard.toNat ≤ s.now - v.t then
    beginSuspend s ch die_ none else s)

/-- AUTO_RESUME (R289): neither urgent queue holds a descriptor for the die and no command runs there. -/
def execAutoResume (ch die_ : Nat) (s : State) : Res :=
  let v := die s ch die_
  .next (if v.auto ∧ v.susp.isSome ∧ v.st = .idle ∧ urgent s ch die_ = false ∧ (flc s ch).brownout = false then
    doResume s ch die_ else s)

/-! ## Reset, features, status -/

/-- What an aborted or failed program or erase leaves on the medium: the blocks are SEALED; the data of the granules it
touched, and whether they decode, is open (assumption 3). -/
def spoil (s : State) (ch : Nat) (d : FDesc) : State :=
  let s := modBlks s ch d (fun b => { b with st := .sealed })
  let (n, s) := takeFree s
  let bad := Config.freeNat n % 2 == 1
  let data := Config.freeBytes n
  if dOp d = 3 then
    ((dGranules ch d).map Prod.snd).foldl (fun s g => putGran s g { data := data, raw := true, bad := bad }) s
  else
    let pick := fun (g : Nat) (_ : Gran) =>
      decide (gChan g = ch) && decide (gDie g = dDie d) && decide (gBlock g = dBlock d) && nbit (dPlanes d) (gPlane g)
    modFtla s (fun f => { f with media := tmapIf f.media pick (fun v => { v with bad := bad, raw := true, data := data }) })

/-- Ends what runs or is suspended on a die for a reset (R283, R300). -/
def abortDie (s : State) (ch dd : Nat) : State :=
  let v := die s ch dd
  let s := match v.run with
    | some r =>
      let s := if dOp r = 3 ∨ dOp r = 4 then spoil s ch r else s
      if v.stuck then s else flcComplete s ch r 3
    | none => s
  let s := match v.susp with
    | some (e, _) => flcComplete (spoil s ch e) ch e 3
    | none => s
  modDie s ch dd (fun v => { v with susp := none, auto := false, run := none })

/-- RESET_DIE (R300). -/
def execResetDie (ch q i : Nat) (s : State) : Res :=
  .next (issue ch q i 7 s (fun d _ s => startDie (abortDie s ch (dDie d)) ch d .resetting))

/-- GET_FEATURE (R274). -/
def execGetFeature (ch q i : Nat) (s : State) : Res := .next (issue ch q i 8 s (fun d _ s => startDie s ch d .reading))
/-- SET_FEATURE (R274). -/
def execSetFeature (ch q i : Nat) (s : State) : Res := .next (issue ch q i 9 s (fun d _ s => startDie s ch d .reading))

/-- READ_STATUS (R274): issued even while the die is busy; the status byte is the die's, a free value (assumption 3). -/
def execReadStatus (ch q i : Nat) (s : State) : Res :=
  .next (issue ch q i 0xA s (fun d _ s =>
    let (n, s) := takeFree s
    noDie s ch d 0 { w2 := put (Config.freeNat n) 7 0 }))

/-! ## The end of a die command -/

/-- Charges flash work of a descriptor: map paging and hold-up programs, and polder 0's garbage collection, wear levelling and erases,
to the service account (R364). -/
def chargeFlash (s : State) (d : FDesc) (fj : Nat) : State :=
  if d.q = 1 ∨ (d.q = 3 ∧ dPolder d = 0) then chargeSvc s fj
  else
    match (d.reqs.filterMap (fun q => s.ftla.reads.find? (fun r => r.id == q.1))).head? with
    | some r => chargeWho s r.who fj
    | none => charge s (dPolder d) fj true

/-- Marks the 64 lines of a list destination poisoned (R277). -/
def curSpoil (s : State) (cur : Nat) : State :=
  (List.range 64).foldl (fun s i =>
    let c := cur + 64 * i
    if c < dramCur then setLine s (sramInst (c - sramCur)) (sramLine (c - sramCur)) 1
    else setLine s (dramInst (c - dramCur)) ((c - dramCur) / 64) 1) s

/-- Delivers the granules of a read to its buffers or list destinations; the position's data is bad or good. Answers the
owner and block of a breach. -/
def deliverGrans (s : State) (ch : Nat) (d : FDesc) (bad : List Nat) : Option (Nat × Nat × Nat) × State :=
  let gs := (dGranules ch d).map Prod.snd
  if dList d then
    let cs := curList s d gs.length
    match ((dCursor d, 8 * gs.length) :: cs.map (fun c => (c, 4096))).findSome? (fun x => spanBreach s (dPolder d) x.1 x.2) with
    | some (c, b, o) => (some (c, b, o), s)
    | none =>
      (none, (List.range gs.length).foldl (fun s i =>
        let c := cs.getD i 0
        if bad.contains i then curSpoil s c else curWrite s c (granRaw s (gs.getD i 0))) s)
  else
    let hs := d.bufs.drop 1
    let s := (List.range gs.length).foldl (fun s i =>
      let h := hs.getD i 0
      if bad.contains i then modBuf s (hKey h) (fun b => { b with poison := true, fill := 4096 })
      else bufFill s h (granRaw s (gs.getD i 0))) s
    (none, match d.bufs with
      | l :: _ => bufFill s l (leBytes 4 hs.length ++ hs.flatMap (fun (h : W32) => leBytes 4 h.toNat))
      | [] => s)

/-- The completion mask of a read: the granules that are not bad; for READ_CACHE, the pages all of whose granules are good. -/
def goodMask (ch : Nat) (d : FDesc) (bad : List Nat) : Nat :=
  let gs := dGranules ch d
  let idx := List.range gs.length
  let bits := (gs.map Prod.fst).dedup
  (bits.filter (fun b => idx.all (fun i => (gs.getD i (0, 0)).1 != b || !bad.contains i))).foldl (fun m b => m + 2 ^ b) 0

/-- The offset set that a read's record names: that of READ_RETRY where it succeeded, that of an automatic retry (R276, R293). -/
def readSet (r : SoftRd) : Nat :=
  if dOp r.desc = 2 then (if r.bad.isEmpty then fld (dw r.desc 3) 3 0 else 0) else r.retry.getD 0

/-- Ends a read all of whose granules are decided. -/
def endRead (s : State) (ch : Nat) (r : SoftRd) : State :=
  let d := r.desc
  if d.ftla then
    d.reqs.foldl (fun s q => readEnd s q.1 r.bad.isEmpty) (flcComplete s ch d 0)
  else
    let gs := (dGranules ch d).map Prod.snd
    let erased := gs.any (fun g => decide (tget s.ftla.media {} g = {}))
    match deliverGrans s ch d r.bad with
    | (some (c, b, o), s) => flcComplete (breach s (dPolder d) o b 0 true c (.block 9 ch)) ch d 7
    | (none, s) =>
      flcComplete s ch d (if r.bad.isEmpty then 0 else 0x24)
        { mask := goodMask ch d r.bad, erased := erased, soft := r.soft, retry := r.retry.isSome, bits := r.bits,
          w2 := if dList d then 0 else d.bufs.headD 0, set := readSet r }

/-- Is a read one of a logical block, which passes the media path? -/
def overMedia (d : FDesc) : Bool := d.ftla && dIsRead d && d.q == 0

/-- Ends a read all of whose granules are decided, or holds it until the media path is ready (R201, R212). -/
def endOrWait (s : State) (ch : Nat) (r : SoftRd) : State :=
  if overMedia r.desc && !s.isl.mediaReady then modFlc s ch (fun c => { c with soft := c.soft ++ [r] }) else endRead s ch r

/-- The reads of a channel that waited for the media path go on. -/
def mediaGoFlc (s : State) (ch : Nat) : State :=
  let rs := (flc s ch).soft.filter (fun r => r.wait.isEmpty)
  rs.foldl (fun s r => endRead s ch r) (modFlc s ch (fun c => { c with soft := c.soft.filter (fun r => !r.wait.isEmpty) }))

/-- The media path is ready again: the reads that waited for it go on (R201, R212). -/
def mediaGo (s : State) : State := (s.flcs.map Prod.fst).foldl mediaGoFlc s

/-- The end of a read on its die: hard decode of each granule; what fails goes to the soft pool (R292). -/
def readDone (s : State) (ch : Nat) (d : FDesc) (out : DieOut) : State :=
  let gs := (dGranules ch d).map Prod.snd
  let idx := List.range gs.length
  let v := fun i => tget s.ftla.media {} (gs.getD i 0)
  let failed := idx.filter (fun i => decide (v i ≠ {}) && ((v i).bad || out.grans.getD i (.good 0) == .soft))
  let bits := (out.grans.map (fun o => match o with
    | .good b => b
    | .soft => 0)).foldl max 0
  let pages := if dOp d = 1 then dCount d else (planesOf (dPlanes d)).length
  let s := chargeFlash s d (pages * 4 * senseFj s (dMode d) + gs.length * xferFj s)
  let s := pmonCount s 3 (dPolder d) (pages * 4)
  if failed.isEmpty then endOrWait s ch { desc := d, bits := bits }
  else
    let s := modFlc s ch (fun c => { c with soft := c.soft ++ [{ desc := d, good := idx.filter (fun i => !failed.contains i),
                                                                 wait := failed, bits := bits, soft := true }] })
    { s with softPool := s.softPool ++ failed.map (fun i => (ch, d, i)) }

/-- A program has passed: the MAP record of each staged write it carries, in order; its staging space is released, and with it that of
the older writes of the block, which no read may return any more and whose record would be discarded (R22, R24, R25). -/
def mapUnits (s : State) (units : List (Nat × Nat)) : State :=
  let s := units.foldl (fun s u =>
    match s.ftla.staging.find? (fun e => e.seq == u.1) with
    | none => s
    | some e =>
      match e.placed with
      | none => s
      | some g =>
        let s := standsOver (mapRecord s e.lidx g e.seq).2 e
        modFtla s (fun f => { f with staging := f.staging.filter (fun x => !(x.lidx == e.lidx && decide (x.seq ≤ e.seq))) })) s
  settle s

/-- The superblock of a die's block (R316). -/
def sbOf (dd block : Nat) : Nat := dd * 2730 + block

/-- A program fails: the block is SEALED, the staged data stays, the member is absent (R26, R283, R317). -/
def progFailed (s : State) (ch : Nat) (d : FDesc) : State :=
  let s := flcComplete (spoil s ch d) ch d 0x22
  if d.ftla then blockRecord s (sbOf (dDie d) (dBlock d)) ch (dPlanes d) 6 else s

/-- FTLA journals a failed die or channel (R331, R332). -/
def memberFailed (s : State) (kind ch dd left : Nat) : State :=
  let s := journalAdd s 8 [BitVec.ofNat 32 kind, BitVec.ofNat 32 ch, BitVec.ofNat 32 dd, BitVec.ofNat 32 left, 0]
  match s.ftla.fail with
  | none => modFtla s (fun f => { f with fail := some (kind, ch, dd, left) })
  | some _ =>
    let hit := s.ftla.map.filter (fun e => decide (e.2 < granEnd) && failedMember s e.2 && !canRebuild s e.2)
    let s := hit.foldl (fun s e => trimRecord s e.1 1 vLost) s
    reportBy s 0x0A 0 6 128 0

/-- A die is marked failed (R300, R331). -/
def dieFailed (s : State) (ch dd : Nat) : State :=
  let s := modDie s ch dd (fun v => { v with st := .failed, failed := true, stuck := false, run := none })
  memberFailed (reportBy s 9 ch 4 (ch * 16 + dd) 0) 1 ch dd 2730

/-- The die is free again. -/
def freeDie (s : State) (ch dd : Nat) : State := modDie s ch dd (fun v => { v with st := .idle, run := none, t := s.now })

/-- Does an ERASE of a superblock that recovery repeats still wait or run? -/
def eraseWaits (s : State) (sb : Nat) : Bool :=
  s.flcs.any (fun e =>
    let mine := fun (x : FDesc) => x.ftla && dOp x == 4 && sbOf (dDie x) (dBlock x) == sb
    e.2.queue.any mine || e.2.backlog.any mine || (tget e.2.dies {} (sb / 2730)).run.any mine)

/-- FTLA journals the end of an ERASE that recovery repeated: erased with the new count once every member is, absent where it failed
(R317, R328). -/
def eraseBack (s : State) (ch : Nat) (e : FDesc) (pass : Bool) : State :=
  let sb := sbOf (dDie e) (dBlock e)
  if !e.ftla then s
  else
    let s := if pass then s else blockRecord s sb ch (dPlanes e) 6
    if eraseWaits s sb || (tget s.ftla.sbs {} sb).ev != 4 then s
    else blockRecord (modFtla s (fun f => { f with sbs := tmod f.sbs {} sb (fun b => { b with qlc := b.qlc + 1 }) })) sb 0 0 5

/-- The erase on a die ends with its status (R283). -/
def eraseDone (s : State) (ch : Nat) (e : FDesc) (pass : Bool) : State :=
  let n := (planesOf (dPlanes e)).length
  let s := pmonCount (chargeFlash s e (n * eraseFj s)) 5 (dPolder e) n
  if pass then
    let pick := fun (g : Nat) (_ : Gran) =>
      decide (gChan g = ch) && decide (gDie g = dDie e) && decide (gBlock g = dBlock e) && nbit (dPlanes e) (gPlane g)
    let s := modFtla s (fun f => { f with media := tdrop f.media pick })
    eraseBack (flcComplete (modBlks s ch e (fun _ => { st := .erased })) ch e 0) ch e true
  else eraseBack (flcComplete (spoil s ch e) ch e 0x23) ch e false

/-- The end of a suspension (R288): suspended, or the erase ended in that cycle (`value` nonzero) and completes. -/
def suspendDone (s : State) (ch dd : Nat) (out : DieOut) : State :=
  let v := die s ch dd
  match v.susp with
  | none => freeDie s ch dd
  | some (e, _) =>
    let s := if out.value = 0 then modBlks s ch e (fun b => { b with st := .suspended })
             else modDie (eraseDone s ch e out.pass) ch dd (fun v => { v with susp := none, auto := false })
    let s := freeDie s ch dd
    let s := match v.run with
      | some d => flcComplete s ch d 0
      | none => s
    refuseSuspended s ch dd

/-- The end of a RESET_DIE: the die needs training; a stuck state not cleared marks it failed (R299, R300). -/
def resetDone (s : State) (ch dd : Nat) (d : FDesc) (pass : Bool) : State :=
  let v := die s ch dd
  let s := flcComplete s ch d 0
  if v.stuck ∧ pass = false then dieFailed s ch dd
  else modDie (freeDie s ch dd) ch dd (fun v => { v with stuck := false, needTrain := true })

/-- Charges each staged write of a program unit to its polder, the other granules of the program to the descriptor's
(R364: host I/O is charged to the issuing polder). -/
def chargeUnits (s : State) (d : FDesc) (fj : Nat) : State :=
  let mine := s.ftla.staging.filter (fun e => d.units.any (fun u => u.1 == e.seq))
  let s := mine.foldl (fun s e => charge s e.polder fj true) s
  charge s (dPolder d) (((dGrans d |> fun m => (List.range 16).filter (nbit m)).length - mine.length) * fj) true

/-- What the end of a die command does, by the command (R274, R283). -/
def runDone (s : State) (ch dd : Nat) (d : FDesc) (out : DieOut) : State :=
  match dOp d with
  | 3 =>
    let n := (dGranules ch d).length
    let s := freeDie s ch dd
    let s := if d.ftla then chargeUnits s d (progFj s (dMode d) + (mediaFj s)) else chargeFlash s d (n * progFj s (dMode d))
    let s := pmonCount s 4 (dPolder d) n
    if out.pass then mapUnits (flcComplete s ch d 0) d.units else progFailed s ch d
  | 4 => eraseDone (freeDie s ch dd) ch d out.pass
  | 7 => resetDone s ch dd d out.pass
  | 8 => flcComplete (freeDie s ch dd) ch d 0 { w2 := tget (die s ch dd).feats out.value (fld (dw d 6) 7 0) }
  | 9 =>
    let s := freeDie s ch dd
    flcComplete (modDie s ch dd (fun v => { v with feats := tput v.feats (fld (dw d 6) 7 0) (dw d 7) })) ch d 0
  | _ => readDone (freeDie s ch dd) ch d out

/-- DIE_COMMAND_END (R283). The records of FTLA's programs and erases wait while the journal is full (R314). -/
def execDieCommandEnd (ch die_ : Nat) (out : DieOut) (s : State) : Res :=
  let v := die s ch die_
  .next (match v.st with
  | .suspending => suspendDone s ch die_ out
  | .training => modDie (freeDie s ch die_) ch die_ (fun v => { v with lastTrain := s.now, needTrain := false })
  | .idle => s
  | .stuck => s
  | .failed => s
  | _ =>
    match v.run with
    | none => s
    | some d =>
      if d.ftla && (dOp d == 3 || dOp d == 4) && jFull s then s
      else runDone s ch die_ d out)

/-- The offset set that decoded a granule: none for READ_RETRY, which skips the automatic retry, and none beyond
FLC_CTRL.auto_retry (R293, R294). -/
def retrySet (s : State) (ch : Nat) (d : FDesc) (set : Option Nat) : Option Nat :=
  if dOp d = 2 then none else set.filter (fun n => decide (n < (flc s ch).retries.toNat))

/-- Automatic retries that a granule has cost: up to the set that decoded it, or all of them where it stays uncorrectable (R293). -/
def retriesDone (s : State) (ch : Nat) (d : FDesc) (ok : Bool) (set : Option Nat) : Nat :=
  match set with
  | some n => n + 1
  | none => if ok || dOp d == 2 then 0 else (flc s ch).retries.toNat

/-- One granule of a read in the soft pool is decided. -/
def softDecided (s : State) (ch : Nat) (r : SoftRd) (gran : Nat) (ok : Bool) (bits : Nat) (set : Option Nat) : State :=
  let set := retrySet s ch r.desc set
  let tries := retriesDone s ch r.desc ok set
  let r' := { r with wait := r.wait.erase gran, good := if ok then r.good ++ [gran] else r.good,
                     bad := if ok then r.bad else r.bad ++ [gran], retry := if set.isSome then set else r.retry,
                     bits := if ok then max r.bits bits else r.bits }
  let s := modFlc { s with softPool := s.softPool.erase (ch, r.desc, gran) } ch (fun c => { c with
    soft := if r'.wait.isEmpty then c.soft.erase r else c.soft.map (fun x => if x == r then r' else x),
    eccSoft := satInc c.eccSoft,
    eccUnc := if ok then c.eccUnc else satInc c.eccUnc })
  let s := chargeFlash s r.desc (softFj s + tries * (4 * senseFj s (dMode r.desc) + xferFj s))
  let s := pmonCount s 3 (dPolder r.desc) (tries * 4)
  if r'.wait.isEmpty then endOrWait s ch r' else s

/-- SOFT_DECODE_DONE (R292, R293): one of the eight oldest granules of the pool, that at position `gran` of the read with a tag,
decodes in the end with a count of corrected bits, by the offset set of an automatic retry where one was used, or (none) is
uncorrectable. -/
def execSoftDecodeDone (ch tag gran : Nat) (ok : Option Nat) (set : Option Nat) (s : State) : Res :=
  .next (match (s.softPool.take 8).find? (fun e => e.1 == ch && dTag e.2.1 == tag && e.2.2 == gran) with
  | none => s
  | some e =>
    match (flc s ch).soft.find? (fun r => r.desc == e.2.1 && r.wait.contains gran) with
    | none => s
    | some r => softDecided s ch r gran ok.isSome (ok.getD 0) set)

/-! ## Timeouts and training -/

/-- The timeout of a die command, µs (R301). -/
def dieLimit (d : FDesc) : Nat := match dOp d with
  | 1 => 200 * dCount d
  | 3 => 4000
  | 4 => 25000
  | 5 => 100
  | _ => 200

/-- DIE_TIMEOUT (R300): the command has not ended within its timeout; the die becomes stuck. -/
def execDieTimeout (ch die_ : Nat) (s : State) : Res :=
  let v := die s ch die_
  let stuck := fun (s : State) => reportBy (modDie s ch die_ (fun v => { v with st := .stuck, stuck := true })) 9 ch 4 (ch * 16 + die_) 0
  .next (match v.st with
  | .suspending =>
    if v.t + 100 ≤ s.now then
      stuck (match v.run with
        | some d => modDie (flcComplete s ch d 0x26) ch die_ (fun v => { v with run := none })
        | none => s)
    else s
  | .reading => timeUp s v stuck ch
  | .program => timeUp s v stuck ch
  | .erase => timeUp s v stuck ch
  | _ => s)
where
  timeUp (s : State) (v : Die) (stuck : State → State) (ch : Nat) : State :=
    match v.run with
    | some d => if dieLimit d ≤ v.ran * (if dOp d = 4 then 1 else 0) + (s.now - v.t) then stuck (flcComplete s ch d 0x26) else s
    | none => s

/-- DIE_RETRAIN (R299): an idle die whose training is due, its temperature `drift` °C from that of its training. -/
def execDieRetrain (ch die_ : Nat) (drift : Nat) (s : State) : Res :=
  let v := die s ch die_
  let due := decide ((flc s ch).drift.toNat ≤ drift) || v.needTrain || decide ((flc s ch).interval.toNat * 60000000 ≤ s.now - v.lastTrain)
  .next (if ch < 32 ∧ die_ < 16 ∧ v.st = .idle ∧ due ∧ (flc s ch).enable then
    modFlc (modDie s ch die_ (fun v => { v with st := .training, t := s.now })) ch (fun c => { c with trainCnt := c.trainCnt + 1 })
  else s)

/-! ## Registers with a row of their own -/

/-- Writes held completions while the queue has room (R276). -/
def flcDrain (s : State) (ch : Nat) : Nat → State
  | 0 => s
  | n + 1 =>
    if flcFull (flc s ch) then s
    else
      match (flc s ch).held with
      | [] => s
      | r :: rs => flcDrain (flcRecord (modFlc s ch (fun c => { c with held := rs })) ch r) ch n

/-- A write of FLC_CQ_CONS. -/
def flcConsWrite (s : State) (ch : Nat) (v : W32) : State :=
  flcDrain (modFlc s ch (fun c => { c with cqCons := BitVec.ofNat 16 (fld v 15 0) })) ch 512

/-- FLC_COMPLETION_WRITE (R276). -/
def execFlcCompletionWrite (ini : Ini) (ch : Nat) (cons : W32) (s : State) : Res :=
  .next (if ch < 32 then pageWrite s ini (frameOf 9 ch 0) 0x58 (fun s => flcConsWrite s ch cons) else s)

/-- A write of FLC_CANCEL (R282): the oldest descriptor with the tag in the queue that has not issued ends CANCELLED. -/
def flcCancelWrite (s : State) (ch : Nat) (v : W32) : State :=
  let s := modFlc s ch (fun c => { c with cancelQ := BitVec.ofNat 2 (fld v 17 16), cancelTag := BitVec.ofNat 16 (fld v 15 0) })
  if bitOf v 31 then
    match (flc s ch).queue.find? (fun d => d.q == fld v 17 16 && dTag d == fld v 15 0) with
    | some d => noDie s ch d 3
    | none => s
  else s

/-- FLC_CANCEL (R282). -/
def execFlcCancel (ini : Ini) (ch : Nat) (v : W32) (s : State) : Res :=
  .next (if ch < 32 then pageWrite s ini (frameOf 9 ch 0) 0x48 (fun s => flcCancelWrite s ch v) else s)

/-- Do the queues lie within the 256 slots without overlap (R272)? -/
def queuesOk (c : Flc) : Bool :=
  let b := [0, 1, 2, 3].map (fun q => ((dqBase c q).1.toNat, (dqBase c q).2.toNat))
  b.all (fun e => decide (e.2 = 0) || decide (e.1 + e.2 ≤ 256)) &&
  (List.range 4).all (fun i => (List.range 4).all (fun j =>
    let x := b.getD i (0, 0)
    let y := b.getD j (0, 0)
    decide (i = j) || decide (x.2 = 0) || decide (y.2 = 0) || decide (x.1 + x.2 ≤ y.1) || decide (y.1 + y.2 ≤ x.1)))

/-- A write of FLC_CTRL (R272). -/
def flcCtrlWrite (s : State) (ini : Ini) (ch : Nat) (v : W32) : State :=
  let c := flc s ch
  let s := modFlc s ch (fun c => { c with
    guard := BitVec.ofNat 12 (fld v 31 20), retries := BitVec.ofNat 4 (fld v 19 16), autoSusp := bitOf v 1 })
  if bitOf v 0 then
    if c.enable || queuesOk c then modFlc s ch (fun c => { c with enable := true })
    else errAt s ini (frameOf 9 ch 0) 0x64 0x40
  else modFlc s ch (fun c => { c with enable := false })

/-- FLC_ENABLE (R272). -/
def execFlcEnable (ini : Ini) (ch : Nat) (v : W32) (s : State) : Res :=
  .next (if ch < 32 then pageWrite s ini (frameOf 9 ch 0) 0x40 (fun s => flcCtrlWrite s ini ch v) else s)

/-- Code of a block state. -/
def blkCode : BlkSt → Nat
  | .unknown => 0
  | .erased => 1
  | .opened => 2
  | .sealed => 3
  | .erasing => 4
  | .suspended => 5

/-- Key of the block that FLC_BST_SEL names. -/
def bstKey (v : W32) : Nat := blkKey (fld v 15 12) (fld v 17 16) (fld v 31 20)

/-- FLC_BST_DATA of a block. -/
def bstData (b : Blk) : W32 := put (if b.st = .opened then b.ptr else 0) 15 4 ||| putB b.pslc 3 ||| put (blkCode b.st) 2 0

/-- A write of FLC_BST_SEL samples the block (R302). -/
def bstSelWrite (s : State) (ch : Nat) (v : W32) : State :=
  modFlc s ch (fun c => { c with bstSel := v &&& 0xFFF3F000, bstSnap := bstData (tget c.blks {} (bstKey v)) })

/-- BLOCK_STATE_SELECT (R302). -/
def execBlockStateSelect (ini : Ini) (ch : Nat) (v : W32) (s : State) : Res :=
  .next (if ch < 32 then pageWrite s ini (frameOf 9 ch 1) 0x80 (fun s => bstSelWrite s ch v) else s)

/-- A KG write of FLC_BST_DATA (R285): UNKNOWN, ERASED, OPEN or SEALED; not a block that a descriptor targets. -/
def bstDataWrite (s : State) (ini : Ini) (ch : Nat) (v : W32) : State :=
  let f := frameOf 9 ch 1
  match kgOpen s ini f 0x84 with
  | (false, s) => s
  | (true, s) =>
    let sel := (flc s ch).bstSel
    if 4 ≤ fld v 2 0 then s
    else if blkTargeted s ch (fld sel 15 12) (fld sel 17 16) (fld sel 31 20) then wrongState s ini f 0x84
    else
      let st := match fld v 2 0 with
        | 0 => BlkSt.unknown
        | 1 => BlkSt.erased
        | 2 => BlkSt.opened
        | _ => BlkSt.sealed
      let b : Blk := { st := st, ptr := if fld v 2 0 = 2 then fld v 15 4 else 0, pslc := bitOf v 3 }
      modFlc s ch (fun c => { c with blks := tset c.blks {} (bstKey sel) b, bstSnap := bstData b })

/-- BLOCK_STATE_RESTORE (R285). -/
def execBlockStateRestore (ini : Ini) (ch : Nat) (v : W32) (s : State) : Res :=
  .next (if ch < 32 then pageWrite s ini (frameOf 9 ch 1) 0x84 (fun s => bstDataWrite s ini ch v) else s)

/-- A read of FLC_ECC_SOFT, which clears it (R10). -/
def eccSoftVal (s : State) (ch : Nat) : W32 × State := ((flc s ch).eccSoft, modFlc s ch (fun c => { c with eccSoft := 0 }))
/-- A read of FLC_ECC_UNC, which clears it (R10). -/
def eccUncVal (s : State) (ch : Nat) : W32 × State := ((flc s ch).eccUnc, modFlc s ch (fun c => { c with eccUnc := 0 }))

/-- FLC_ECC_SOFT_READ (R10). -/
def execFlcEccSoftRead (ini : Ini) (ch : Nat) (s : State) : Res :=
  .next (if ch < 32 then readAnswer (pageRead s ini (frameOf 9 ch 1) 0x204 (fun s => eccSoftVal s ch)) else s)
/-- FLC_ECC_UNC_READ (R10). -/
def execFlcEccUncRead (ini : Ini) (ch : Nat) (s : State) : Res :=
  .next (if ch < 32 then readAnswer (pageRead s ini (frameOf 9 ch 1) 0x208 (fun s => eccUncVal s ch)) else s)

end Sys2Proof.Machine
end

