-- ==== Sys2Proof/Machine/Cipher.lean ====
section
/-! DEFINITION. The cipher and digest engines: key slots and generations (R202-R204), GCM streams and their quarantine
(R214-R222), digests and HMAC (R223-R226), measurement registers (R227, R228), entropy, alarms and recovery (R210-R213),
the CIPH and DGST registers with a row of their own. -/

namespace Sys2Proof.Machine

open Sys2Proof

/-! ## Key slots -/

/-- A load (R202): the new key is current under the next generation; the previous one becomes the shadow if an open stream
holds it; an older shadow is zeroed. -/
def loadGen (k : KeySlot) (held : Bool) (key : Bytes) (alg : BitVec 2) : KeySlot :=
  { gen := k.gen + 1, key := some key, alg := alg,
    shadow := match k.key with
      | some b => if held then some (k.gen, b) else none
      | none => none }

/-- Loads a cipher slot; what runs on a generation that this zeroes stops (R203). -/
def loadCipher (s : State) (a : Nat) (key : Bytes) : State :=
  let k := tget s.isl.keys {} a
  sweepKeys (modIsl s (fun l => { l with keys := tset l.keys {} a (loadGen k (cipherHolds s a k.gen) key 0) }))
/-- Loads an HMAC slot. -/
def loadHmac (s : State) (a : Nat) (key : Bytes) (alg : BitVec 2) : State :=
  let k := tget s.isl.hmacs {} a
  sweepKeys (modIsl s (fun l => { l with hmacs := tset l.hmacs {} a (loadGen k (hmacHolds s a k.gen) key alg) }))
/-- Zeroes both generations of a slot. -/
def emptySlot (k : KeySlot) : KeySlot := { gen := k.gen }
/-- Erases a cipher slot. -/
def eraseCipher (s : State) (a : Nat) : State := sweepKeys (modIsl s (fun l => { l with keys := tmod l.keys {} a emptySlot }))
/-- Erases an HMAC slot. -/
def eraseHmac (s : State) (a : Nat) : State := sweepKeys (modIsl s (fun l => { l with hmacs := tmod l.hmacs {} a emptySlot }))

/-! ## GCM streams -/

/-- A request to the DRBG for a new mask at a fragment's start (R210; that a start is one request is a DESIGN CHOICE, assumption 68). -/
def maskRequest (s : State) : State := modIsl s (fun l => { l with reqs := l.reqs + 1 })

/-- Opens a quarantine for a job (R218). -/
def openQuar (s : State) (j : Option Nat) : Nat × State :=
  let q := s.isl.nextQuar
  (q, modIsl s (fun l => { l with nextQuar := q + 1, quars := l.quars ++ [(q, j)] }))

/-- The stream that a fragment continues or starts: its key, its context and where that is kept (none for a message of one fragment); or
the status the fragment ends with, and a lost context of the stamp's own that it frees. -/
inductive Stream where
  | run (key : Bytes) (c : Ctx) (k : Option Nat)
  | stop (st : BitVec 8) (lost : Option Nat)
  | breach (owner idx : Nat)

/-- The context of a handle that does not resolve, where it is the stamp's own and was zeroed (R212). -/
def lostCtx (t : Tbl Ctx) (p : Nat) (h : W32) : Option Nat :=
  let k := ctxKey (cPipe h) (cSlot h)
  let c := tget t {} k
  if c.lost ∧ c.polder = p then some k else none

/-- A fragment's context and where it is kept: taken at dispatch, or named by the handle; or why the fragment stops. -/
def ctxFor (s : State) (r : Nat) (f : Flight) (dig : Bool) : Stream :=
  let p := ringStamp s r
  let t := if dig then s.isl.dctx else s.isl.cctx
  let h := if dig then fw f 7 else fw f 11
  if fFirst f ∧ fLast f then .run [] (firstCtx s r f) none
  else if fFirst f then
    match ctxOf t 8 p f h with
    | some k => .run [] (tget t {} k) (some k)
    | none => .stop 0x0E none
  else
    match findCtx t (if dig then 4 else 8) p h with
    | .breach o k => .breach o k
    | .lost => .stop 0x0E (lostCtx t p h)
    | .ok k c => .run [] c (some k)

/-- The stream of a GCM fragment: the slot that word 6 names must be the stamp's and loaded, and the generation that the stream took at
FIRST must still be there (R202, R203). -/
def gcmStream (s : State) (r : Nat) (f : Flight) : Stream :=
  let p := ringStamp s r
  let n := fld (fw f 6) 7 0
  match keySlot s p n with
  | none => .breach (keyOwner s (if p = 0 then n else keyFirst (polder s p) + n)) n
  | some a =>
    match ctxFor s r f false with
    | .run _ c k =>
      if (tget s.isl.keys {} a).key.isNone ∨ (fFirst f ∧ f.key.isNone) then .stop 4 none
      else
        match genKey (tget s.isl.keys {} c.slot) c.gen with
        | some key => .run key c k
        | none => .stop 4 none
    | st => st

/-- Ends a fragment whose stream cannot run. -/
def streamStop (s : State) (r : Nat) (f : Flight) (st : BitVec 8) (lost : Option Nat) : State :=
  let s := match lost with
    | some k => if fCls f = 3 then freeCctx (failQuar s (tget s.isl.cctx {} k).quar) k else freeDctx s k
    | none => s
  stopFlight s r f { status := st }

/-- AAD bytes that a fragment's input starts with. -/
def fAad (f : Flight) : Nat := if fFirst f then fld (fw f 7) 15 0 else 0

/-- The text of a GCM fragment in its input so far: without the AAD, and in a GCM_DEC LAST fragment without the tag's 16 bytes. -/
def gcmText (f : Flight) (dec : Bool) (data : Bytes) : Bytes :=
  let body := data.drop (fAad f)
  if dec ∧ fLast f then body.take (body.length - 16) else body

/-- The quarantine of a GCM_DEC stream, opened with its first output (R218). -/
def streamQuar (s : State) (r : Nat) (f : Flight) (c : Ctx) (out : Bool) : Option Nat × State :=
  match c.quar, f.quar with
  | some q, _ => (some q, s)
  | none, some q => (some q, s)
  | none, none =>
    if out then
      let (q, s) := openQuar s (ringJob s r)
      (some q, modFlight s r f.idx (fun d => { d with quar := some q }))
    else (none, s)

/-- Marks the buffers that hold bytes from offset `n` of an output on with further quarantines. -/
def markTail (q : List Nat) : Nat → List OutBuf → List OutBuf
  | _, [] => []
  | n, o :: os => (if n < o.data.length then { o with quar := o.quar ++ q } else o) :: markTail q (n - o.data.length) os

/-- A chained GCM fragment whose input still arrives: filled 32 KiB buffers go on as the text comes (R184). -/
def gcmMore (s : State) (r : Nat) (f : Flight) (dec : Bool) (key : Bytes) (c : Ctx) : State :=
  let s := absorb s r f
  match flightOf s r f.idx with
  | none => s
  | some f =>
    let out := Config.gcmCrypt key c.iv c.data.length (gcmText f dec f.acc)
    match cutOut f.accQ 0 f.sent out false with
    | [] => s
    | os =>
      if dec then
        let (q, s) := streamQuar s r f c true
        moreOut s r f.idx (os.map (fun o => { o with quar := o.quar ++ q.toList }))
      else moreOut s r f.idx os

/-- Keeps a stream's context after a fragment (R216). -/
def keepCtx (s : State) (k : Option Nat) (c : Ctx) : State :=
  match k with
  | some k => modIsl s (fun l => { l with cctx := tset l.cctx {} k c })
  | none => s

/-- Words 6 and 7 of a fragment's record: without LAST the handle and the key generation (R215). -/
def strmRes (f : Flight) (c : Ctx) (e : ERes) : ERes :=
  if fLast f then e else { e with w6 := strmHandle f, w7 := c.gen.setWidth 32 }

/-- A GCM fragment on its whole input. -/
def gcmRun (s : State) (r : Nat) (f : Flight) (dec : Bool) (a : OpIn) (key : Bytes) (c : Ctx) (k : Option Nat) : State :=
  let text := gcmText f dec a.data
  let conv := Config.gcmCrypt key c.iv c.data.length text
  let c := if fFirst f then { c with aad := a.data.take (fAad f) } else c
  let c := { c with data := c.data ++ (if dec then text else conv), inq := c.inq ++ a.quar }
  let tag := Config.gcmTag key c.iv c.aad c.data
  let s := chargeRing (maskRequest s) r (aesFj s a.data.length)
  if dec then
    let pass := !fLast f || tag == a.data.drop (fAad f + text.length)
    let (q, s) := streamQuar s r f c (!conv.isEmpty)
    let s := keepCtx s (if fLast f then none else k) { c with quar := q }
    finishOut s r f a (cutOut (a.quar ++ q.toList) 0 f.sent conv true)
      (strmRes f c { status := if pass then 0 else 5, produced := if pass then conv.length else 0,
                     verdict := if fLast f then some (q, pass) else none })
  else
    let out := if fLast f then conv ++ tag else conv
    let os := cutOut a.quar 0 f.sent out true
    finishOut (keepCtx s (if fLast f then none else k) c) r f a (if fLast f then markTail c.inq (conv.length - f.sent) os else os)
      (strmRes f c { produced := out.length })

/-- A GCM fragment (R214-R217): resolves its stream, waits for its input, runs. Where the duplicate key schedule check differs, alarm 0x05
is raised, and the fragment ends KEY_ERASED with its key (R203, R212). -/
def gcmOp (r idx op : Nat) (dec sched : Bool) (s : State) : State :=
  opStep r idx 3 op s (fun f s =>
    match gcmStream s r f with
    | .breach o i => stopFlight (ringBreach s r f o 5 i false) r f { status := 7 }
    | .stop st k => streamStop s r f st k
    | .run key c k =>
      if !sched then
        let s := alarm s 5
        match flightOf s r idx with
        | some f => if f.res.isSome then s else stopFlight s r f { status := 4 }
        | none => s
      else if !inputReady f then gcmMore s r f dec key c
      else
        let a := opInput s r f
        if a.status = 2 then shortInput s r f a
        else if 3 ≤ a.status then badInput s r f a
        else gcmRun s r f dec a key c k)

/-- GCM_ENC (R214): ciphertext of the fragment, the tag after that of LAST. -/
def execGcmEnc (r : Nat) (start : GcmStart) (s : State) : Res := .next (gcmOp r start.idx 0 false start.sched s)

/-- GCM_DEC (R218, R220): plaintext under quarantine; LAST checks the tag, whose verdict the completion writer commits. -/
def execGcmDec (r : Nat) (start : GcmStart) (s : State) : Res := .next (gcmOp r start.idx 1 true start.sched s)

/-- KEY_ERASE (R203, R204). -/
def execKeyErase (r idx : Nat) (s : State) : Res :=
  .next (opStep r idx 3 2 s (fun f s =>
    let p := ringStamp s r
    let n := fld (fw f 6) 7 0
    match keySlot s p n with
    | none => endFlight (ringBreach s r f (keyOwner s (if p = 0 then n else keyFirst (polder s p) + n)) 5 n true) r idx { status := 7 }
    | some a => endFlight (eraseCipher s a) r idx {}))

/-- CTX_RELEASE of class 3 (R216): the stream ends and its quarantine fails. -/
def execCtxRelease (r idx : Nat) (s : State) : Res :=
  .next (opStep r idx 3 3 s (fun f s =>
    match findCtx s.isl.cctx 8 (ringStamp s r) (fw f 11) with
    | .breach o k => endFlight (ringBreach s r f o 5 k true) r idx { status := 7 }
    | .lost => streamStop s r f 0x0E (lostCtx s.isl.cctx (ringStamp s r) (fw f 11))
    | .ok k c => endFlight (freeCctx (failQuar s c.quar) k) r idx {}))

/-! ## Digests -/

/-- The digest of an algorithm code. -/
def hash (alg : Nat) (m : Bytes) : Bytes := match alg with
  | 0 => Config.sha256 m
  | 1 => Config.sha384 m
  | 2 => Config.sha512 m
  | _ => Config.sha3 m
/-- Digest length in bytes. -/
def hashLen (alg : Nat) : Nat := match alg with
  | 0 => 32
  | 1 => 48
  | 2 => 64
  | _ => 32

/-- A key block of HMAC: the key padded with zeros to the hash block, XOR a pad byte (RFC 2104). -/
def padKey (alg : Nat) (key : Bytes) (pad : Byte) : Bytes := (padTo (algBlock alg) key).map (fun b => b ^^^ pad)
/-- The inner and outer states that an HMAC slot holds in place of its key (R206, R225), one after the other. -/
def hmacStates (alg : Nat) (key : Bytes) : Bytes :=
  Config.hashStart (alg + 1) (padKey alg key 0x36) ++ Config.hashStart (alg + 1) (padKey alg key 0x5C)

/-- The result of a finished digest stream: of an HMAC stream from the inner state, then one compression from the outer state (R225). -/
def digestValue (alg : Nat) (states : Option Bytes) (m : Bytes) : Bytes :=
  match states with
  | some k =>
    let n := k.length / 2
    Config.hashEnd (alg + 1) (k.drop n) (Config.hashEnd (alg + 1) (k.take n) m)
  | none => hash alg m

/-- Energy of the compressions of `n` bytes (R361), fJ. -/
def digestFj (s : State) (alg n : Nat) : Nat := (n + algBlock alg - 1) / algBlock alg * comprFnFj s

/-- The spans of a LIST descriptor's entries (R224). -/
def listSpans (s : State) (stamp : Nat) (ws : List W32) (need : Nat) : Nat → OpIn → OpIn
  | 0, a => { a with status := if a.data.length < need then 2 else 0 }
  | n + 1, a =>
    let k := (ws.getD 0 0).toNat - (n + 1)
    let h := ws.getD (2 * k + 1) 0
    let e := ws.getD (2 * k + 2) 0
    if need ≤ a.data.length then { a with status := 1 }
    else if !bufOk s stamp h then { a with status := 7, bad := h }
    else if bufPoison s h then { a with status := 6, bad := h }
    else
      let d := ((bufData s h).drop (fld e 31 18 * 16)).take (fld e 17 0 + 1)
      let a' : OpIn := { a with data := a.data ++ d, used := if a.used.contains h then a.used else a.used ++ [h],
                                quar := a.quar ++ (buf s (hKey h)).quar }
      listSpans s stamp ws need n a'

/-- Input of a DIGEST descriptor. -/
def digestInput (s : State) (r : Nat) (f : Flight) : OpIn :=
  if fList f ∧ f.insBad = 0 then
    cutInput (fDecl f) (listSpans s (ringStamp s r) f.ins (fDecl f) (f.ins.getD 0 0).toNat {})
  else opInput s r f

/-- The stream of a digest fragment (R223): of an HMAC fragment the slot that word 6 names must be the stamp's and loaded for the
algorithm, and the generation that the stream took at FIRST must still be there. -/
def digestStream (s : State) (r : Nat) (f : Flight) : Stream :=
  let p := ringStamp s r
  let n := fld (fw f 6) 5 0
  match ctxFor s r f true with
  | .run _ c k =>
    if !fHmac f then .run [] c k
    else
      match hmacSlot s p n with
      | none => .breach (hmacOwner s (if p = 0 then n else hmacFirst (polder s p) + n)) n
      | some a =>
        let ks := tget s.isl.hmacs {} a
        if ks.key.isNone ∨ ks.alg.toNat ≠ fAlg f + 1 ∨ (fFirst f ∧ f.key.isNone) then .stop 4 none
        else
          match genKey (tget s.isl.hmacs {} c.slot) c.gen with
          | some key => .run key c k
          | none => .stop 4 none
  | st => st

/-- The last fragment of a digest stream: the digest to a 512-byte buffer, or the VERIFY verdict (R223, R224, R226). -/
def digestLast (s : State) (r : Nat) (f : Flight) (a : OpIn) (alg : Nat) (val : Bytes) (inq : List Nat) : State :=
  let go := fun (s : State) => chargeRing s r (digestFj s alg a.data.length)
  if bitOf (fw f 6) 29 then
    let h := fw f 8
    if !bufOk s (ringStamp s r) h then stopFlight (ringBreach s r f (buf s (hKey h)).owner 4 (hIdx h) false) r f { status := 7 }
    else if bufPoison s h then stopFlight (ueBuf s h (ringStamp s r)) r f { status := 6 }
    else if poolBytes (hPool h) < hashLen alg then shortInput s r f a
    else
      let w := if (bufData s h).take (hashLen alg) = val then verifyMatch else verifyMiss
      finishOut (go s) r f a [] { produced := if a.status = 1 then fDecl f else 0, w6 := w.1, w7 := w.2, verify := true }
  else finishOut (go s) r f a (oneOut 512 inq val) { produced := if a.status = 1 then fDecl f else val.length }

/-- A fragment that is not LAST: its context is saved; the record carries the handle and the generation. -/
def digestNext (s : State) (r : Nat) (f : Flight) (a : OpIn) (c : Ctx) (k : Option Nat) : State :=
  let s := match k with
    | some k => modIsl s (fun l => { l with dctx := tset l.dctx {} k c })
    | none => s
  finishOut (chargeRing s r (digestFj s c.alg.toNat a.data.length)) r f a []
    (strmRes f c { produced := if a.status = 1 then fDecl f else 0 })

/-- DIGEST (R223-R226). -/
def execDigest (r idx : Nat) (s : State) : Res :=
  .next (opStep r idx 4 0 s (fun f s =>
    match digestStream s r f with
    | .breach o i => stopFlight (ringBreach s r f o 6 i false) r f { status := 7 }
    | .stop st k => streamStop s r f st k
    | .run key c k =>
      if !inputReady f then absorb s r f
      else
        let a := digestInput s r f
        if a.status = 2 then shortInput s r f a
        else if 3 ≤ a.status then badInput s r f a
        else
          let alg := c.alg.toNat
          let c := { c with data := c.data ++ a.data, inq := c.inq ++ a.quar }
          if fLast f then digestLast s r f a alg (digestValue alg (if c.hmac then some key else none) c.data) c.inq
          else digestNext s r f a c k))

/-- Extends a measurement register (R227). -/
def extendMeas (s : State) (n : Nat) (m : Bytes) : State :=
  modIsl s (fun l => { l with meas := tmod l.meas {} n (fun v => { val := Config.sha384 (v.val ++ m), cnt := satInc v.cnt }) })

/-- EXTEND (R227): register 8 + p of the stamp's polder. -/
def execExtend (r idx : Nat) (s : State) : Res :=
  .next (opOnInput r idx 4 1 s (fun f a s =>
    if a.status = 2 then shortInput s r f a
    else finishOut (chargeRing (extendMeas s (8 + ringStamp s r) a.data) r (digestFj s 1 96)) r f a [] {}))

/-- MEAS_READ (R228): 48 bytes and the count to a 512-byte buffer. -/
def execMeasRead (r idx : Nat) (s : State) : Res :=
  .next (opStep r idx 4 2 s (fun f s =>
    let m := tget s.isl.meas {} (fld (fw f 6) 6 0)
    giveOut s r idx (oneOut 512 [] (m.val ++ leBytes 4 m.cnt.toNat)) { produced := 52 }))

/-- CTX_RELEASE of class 4 (R223). -/
def execDigestCtxRelease (r idx : Nat) (s : State) : Res :=
  .next (opStep r idx 4 3 s (fun f s =>
    match findCtx s.isl.dctx 4 (ringStamp s r) (fw f 7) with
    | .breach o k => endFlight (ringBreach s r f o 6 k true) r idx { status := 7 }
    | .lost => streamStop s r f 0x0E (lostCtx s.isl.dctx (ringStamp s r) (fw f 7))
    | .ok k _ => endFlight (freeDctx s k) r idx {}))

/-! ## Entropy and alarms -/

/-- ENTROPY_HEALTH_WINDOW (R211): a third failed window within one second raises alarm 0x01. -/
def execEntropyHealthWindow (ok : Bool) (s : State) : Res :=
  .next (if ok then
    let t := modIsl s (fun l => { l with ok := true, sampled := true, ready := l.ready || (l.up && !l.sampled), mediaReady := l.mediaReady || (l.up && !l.sampled) })
    if s.isl.up && !s.isl.sampled then mediaGo t else t
  else
    let ts := s.now :: s.isl.failT.filter (fun t => decide (s.now < t + 1000000))
    let s := modIsl s (fun l => { l with ok := false, fails := satInc l.fails, failT := ts })
    if 3 ≤ ts.length then alarm (modIsl s (fun l => { l with failT := [] })) 1 else s)

/-- VOLTAGE_GLITCH (R212). -/
def execVoltageGlitch (s : State) : Res := .next (alarm s 2)
/-- CLOCK_GLITCH (R212). -/
def execClockGlitch (s : State) : Res := .next (alarm s 3)
/-- TEMPERATURE (R212). -/
def execTemperature (s : State) : Res := .next (alarm s 4)

/-- SLOT_INTEGRITY (R212): alarm 0x06 zeroes that slot only and starts no self-test. -/
def execSlotIntegrity (store : SlotStore) (slot : Nat) (s : State) : Res :=
  let s := match store with
    | .cipherKey => eraseCipher s slot
    | .hmac => eraseHmac s slot
    | .cipherCtx =>
      let c := tget s.isl.cctx {} slot
      if c.used then modIsl (failQuar s c.quar) (fun l => { l with cctx := tmod l.cctx {} slot (fun c =>
        { used := true, seq := c.seq, polder := c.polder, ring := c.ring, job := c.job, lost := true }) }) else s
    | .digestCtx =>
      if (tget s.isl.dctx {} slot).used then modIsl s (fun l => { l with dctx := tmod l.dctx {} slot (fun c =>
        { used := true, seq := c.seq, polder := c.polder, ring := c.ring, job := c.job, lost := true }) }) else s
  let s := sweepKeys s
  let s := modIsl s (fun l => { l with last := 6, seen := l.seen ||| 64, alarms := satInc l.alarms })
  .next (report s 9 256 5 0 6 0)

/-- ALARM_MEDIA_READY (R212 stage 1): the media key table is reloaded from MRAM, media traffic is served again. -/
def execAlarmMediaReady (s : State) : Res :=
  .next (if s.isl.alarms = 0 ∨ s.isl.mediaReady then s
  else mediaGo (modIsl s (fun l => { l with media := s.nv.mediaKeys, mediaReady := true })))

/-- A new transport key pair of a polder: the generation increments (R205). -/
def newTransport (s : State) (p : Nat) : State :=
  modIsl s (fun l => { l with transGen := tmod l.transGen 0 p (· + 1), transDraw := tset l.transDraw 0 p (l.draws + 1),
                              draws := l.draws + 1, reqs := l.reqs + 1 })

/-- The KEK of ESTABLISH (R205): the single-step KDF of SP 800-56C over SHA-384 with counter 1. -/
def establishKek (draw : Nat) (host : Bytes) (p : Nat) (gen : BitVec 8) : Bytes :=
  (Config.sha384 ([0, 0, 0, 1] ++ Config.ecdh draw host ++ ascii "GLM256 KEK" ++ [BitVec.ofNat 8 p, gen])).take 32

/-- The polders that are not EMPTY. -/
def livePolders (s : State) : List Nat := (s.pol.tab.filter (fun e => decide (e.2.st ≠ .empty))).map Prod.fst

/-- ALARM_RING_READY (R212 stage 2): new transport keys, ring descriptors dispatch again. -/
def execAlarmRingReady (s : State) : Res :=
  .next (if s.isl.alarms = 0 ∨ s.isl.mediaReady = false ∨ s.isl.ready then s
  else modIsl ((livePolders s).foldl newTransport s) (fun l => { l with ready := true }))

/-- DRBG_RESEED (R210): due after 2^20 requests or one second; before that nothing is reseeded. -/
def execDrbgReseed (s : State) : Res :=
  .next (if s.isl.seedT + 1000000 ≤ s.now ∨ 2 ^ 20 ≤ s.isl.reqs then
    modIsl s (fun l => { l with reseeds := l.reseeds + 1, reqs := 0, seedT := s.now })
  else s)

/-! ## Registers with a row of their own -/

/-- A new media key pair of a namespace (R200): kept in MRAM and loaded. -/
def newMediaKey (s : State) (nsid : Nat) : State :=
  let k := s.nv.nextKey
  let s := modNv s (fun v => { v with mediaKeys := tset v.mediaKeys 0 nsid k, nextKey := k + 1 })
  modIsl s (fun l => { l with media := tset l.media 0 nsid k, draws := l.draws + 1, reqs := l.reqs + 1 })

/-- Is an operation of CIPH_MEDIA_CTRL in progress? -/
def mediaBusy (s : State) : Bool := decide (s.now < s.isl.mediaEnd)

/-- A KG write of CIPH_MEDIA_CTRL (R229): the operation takes effect with the write and is busy until it completes, op 1 in 2 µs; for op 2,
the reload, R212 allows 2 ms between the media path's tests and its end (DESIGN CHOICE, assumption 68). -/
def mediaCtrlWrite (s : State) (ini : Ini) (v : W32) : State :=
  let f := frameOf 5 0 0
  match kgOpen s ini f 0x4C with
  | (false, s) => s
  | (true, s) =>
    if mediaBusy s then wrongState s ini f 0x4C
    else
      let busy := fun (s : State) (n : Nat) => modIsl s (fun l => { l with mediaEnd := s.now + n })
      let s := modIsl s (fun l => { l with mediaOp := BitVec.ofNat 2 (fld v 30 29), mediaNs := BitVec.ofNat 10 (fld v 9 0) })
      match fld v 30 29 with
      | 1 => busy (newMediaKey s (fld v 9 0 + 1)) 2
      | 2 => busy (modIsl s (fun l => { l with media := s.nv.mediaKeys })) 2000
      | _ => s

/-- MEDIA_KEY_NEW (R229): op 1 for NSID − 1. -/
def execMediaKeyNew (ini : Ini) (ns : Nat) (s : State) : Res :=
  .next (pageWrite s ini (frameOf 5 0 0) 0x4C (fun s => mediaCtrlWrite s ini (put 1 30 29 ||| put ns 9 0)))

/-- MEDIA_KEY_RELOAD (R229): op 2. -/
def execMediaKeyReload (ini : Ini) (s : State) : Res :=
  .next (pageWrite s ini (frameOf 5 0 0) 0x4C (fun s => mediaCtrlWrite s ini (put 2 30 29)))

/-- A write of DGST_MEAS_SEL (R230). -/
def measSelWrite (s : State) (ini : Ini) (v : W32) : State :=
  let n := fld v 6 0
  if 71 < n then wrongState s ini (frameOf 6 0 0) 0x40
  else
    let m := tget s.isl.meas {} n
    modIsl s (fun l => { l with measSel := BitVec.ofNat 7 n, snapVal := m.val, snapCnt := m.cnt, snapPtr := 0 })

/-- MEAS_SELECT (R230). -/
def execMeasSelect (ini : Ini) (v : W32) (s : State) : Res :=
  .next (pageWrite s ini (frameOf 6 0 0) 0x40 (fun s => measSelWrite s ini v))

/-- A read of DGST_MEAS_DATA: the next of the snapshot's 12 words, zero after the 12th. -/
def measDataNext (s : State) : W32 × State :=
  let v := if s.isl.snapPtr < 12 then BitVec.ofNat 32 (leAt s.isl.snapVal (4 * s.isl.snapPtr) 4) else 0
  (v, modIsl s (fun l => { l with snapPtr := l.snapPtr + 1 }))

/-- MEAS_DATA_READ (R230). -/
def execMeasDataRead (ini : Ini) (s : State) : Res :=
  .next (readAnswer (pageRead s ini (frameOf 6 0 0) 0x44 measDataNext))

/-- A read of CIPH_RNG_STAT, which clears fails (R10). -/
def rngStatRead (s : State) : W32 × State :=
  (put s.isl.reseeds.toNat 31 16 ||| put s.isl.fails.toNat 15 8 ||| putB s.isl.ok 0, modIsl s (fun l => { l with fails := 0 }))

/-- CIPH_RNG_STAT_READ (R10). -/
def execCiphRngStatRead (ini : Ini) (s : State) : Res :=
  .next (readAnswer (pageRead s ini (frameOf 5 0 0) 0x48 rngStatRead))

end Sys2Proof.Machine
end

