-- ==== Sys2Proof/Machine/Compression.lean ====
section
/-! DEFINITION. Compression and decompression (R231-R250): streams of fragments, DEFLATE blocks, the not-shrunk rule, members and
frames, errors, releases, the error counters. -/

namespace Sys2Proof.Machine

open Sys2Proof

/-! ## Streams -/

/-- Ends a fragment with a failing status: it is counted, and its whole stream ends (R248). -/
def strmFail (s : State) (r : Nat) (f : Flight) (st used : Nat) : State :=
  stopFlight (countErr s st) r f { status := BitVec.ofNat 8 st, consumed := used }

/-- The stream of a fragment and the slot or record that keeps it; a message of one compression fragment has none. -/
inductive StrmAt where
  | run (c : Strm) (k : Option Nat)
  | lost
  | breach (owner k : Nat)

/-- The stream of a class 5 or 6 fragment: taken at dispatch, or named by word 7 (R236). -/
def strmFor (s : State) (r : Nat) (f : Flight) : StrmAt :=
  let p := ringStamp s r
  let t := if fCls f = 5 then s.cmpr.slots else s.cmpr.recs
  let ref := if fCls f = 5 then findSlot s p (fw f 7) else findRec s p (fw f 7)
  if fFirst f ∧ fLast f then .run (firstStrm s r f) none
  else if fFirst f then
    match recOf t ref p f with
    | some k => .run (tget t {} k) (some k)
    | none => .lost
  else
    match ref with
    | .ok k c => .run c (some k)
    | .lost => .lost
    | .breach o k => .breach o k

/-- Keeps a stream after a fragment. -/
def keepStrm (s : State) (f : Flight) (k : Option Nat) (c : Strm) : State :=
  match k with
  | some k =>
    modCmpr s (fun m => if fCls f = 5 then { m with slots := tset m.slots {} k c } else { m with recs := tset m.recs {} k c })
  | none => s

/-- Word 6 of a fragment's record: without LAST the handle. -/
def strmWord (f : Flight) (e : ERes) : ERes := if fLast f then e else { e with w6 := strmHandle f }

/-! ## Compressor -/

/-- The input that has reached a compressor: its chained buffers stay unread, since NOT_SHRUNK returns them (R241). -/
def comprInput (s : State) (r : Nat) (f : Flight) : OpIn :=
  if inputReady f then opInput s r f
  else gatherBufs s (ringStamp s r) false (fDecl f + 1) f.chain { data := f.acc, quar := f.accQ }

/-- Where the block that starts after `eaten` bytes of a fragment ends, with whether the fragment ends there: after 1,048,576 bytes, or
with the fragment's input; none while neither is there (R238). -/
def blockEnd (f : Flight) (a : OpIn) : Option (Nat × Bool) :=
  let whole := inputReady f && decide (a.status ≤ 1)
  if f.eaten + 1048576 < a.data.length ∨ (f.eaten + 1048576 ≤ a.data.length ∧ whole = false) then some (f.eaten + 1048576, false)
  else if whole then some (a.data.length, true)
  else none

/-- A block of a stream (R238-R240): the stream after it, and its whole bytes. A FLUSH adds an empty stored block; the final block has
BFINAL, and the format's trailer follows it. -/
def cmprBlock (c : Strm) (d : Bytes) (flush final : Bool) : Strm × Bytes :=
  let b := c.bits ++ blockBits c.level c.hist d final c.bits.length
  let b := if flush then b ++ storedBits false 1 b.length [] else b
  let b := if final then b ++ padBits b.length else b
  let n := b.length / 8 * 8
  let h := c.hist ++ d
  let c' : Strm := { c with begun := true, hist := h.drop (h.length - 32768), bits := b.drop n, count := c.count + d.length,
                            sum := sumOver c.format c.sum d }
  (c', (if c.begun then [] else wrapHead c.format c.level) ++ bytesOf (b.take n) ++
    (if final then wrapTail c.format c'.sum c'.count else []))

/-- COMPRESS (R238, R239): the fragment starts its next block on its compressor, which is bound to the stream until the block ends; it
waits while the compressor runs another stream's block. A fragment whose input fails, or of which no input is left, ends. -/
def execCompress (r idx : Nat) (s : State) : Res :=
  .next (opStep r idx 5 0 s (fun f s =>
    match strmFor s r f with
    | .breach o k => stopFlight (ringBreach s r f o 7 k true) r f { status := 7 }
    | .lost => stopFlight s r f { status := 0x0E }
    | .run c _ =>
      if f.inst.isSome then s
      else
        let a := comprInput s r f
        if (blockEnd f a).isNone ∧ inputReady f then
          if a.status = 2 then shortInput s r f a else badInput s r f a
        else if a.data.length ≤ f.eaten then s
        else if (tget s.cmpr.insts {} f.pipe).bound then s
        else modFlight (bindInst s f.pipe c.polder c.format) r idx (fun f => { f with inst := some f.pipe })))

/-- The fragment that a compressor is bound to: its ring and its descriptor. -/
def boundTo (s : State) (i : Nat) : Option (Nat × Flight) :=
  s.bpm.rings.findSome? (fun e => (e.2.flight.find? (fun f => fCls f == 5 && f.inst == some i && f.res.isNone)).map (fun f => (e.1, f)))

/-- Ends a one-fragment stream NOT_SHRUNK (R241): the input goes back to the caller; of input kind 3 the chained buffers are delivered to
this ring's record. -/
def notShrunk (s : State) (r : Nat) (f : Flight) (used : Nat) : State :=
  let back := if fKind f = 3 then f.chain.map (fun h => (h, (buf s (hKey h)).fill, 0)) else []
  let s := modFlight (countErr s 9) r f.idx (fun d => { d with chain := [], full := back })
  giveOut s r f.idx [] { status := 9, consumed := used, produced := if fKind f = 3 then used else 0 }

/-- What a compressor does at the end of a block of its fragment: the block's cost is charged, the binding ends, a fragment that goes on
passes its filled buffers; at the fragment's end all of its whole bytes (R238, R239). A stream of one fragment holds its output until
it ends, and stops once that reaches the bytes consumed (R241). -/
def endBlock (s : State) (r : Nat) (f : Flight) (a : OpIn) (stop : Nat) (all : Bool) (c : Strm) (k : Option Nat) : State :=
  let d := (a.data.drop f.eaten).take (stop - f.eaten)
  let (c', out) := cmprBlock (f.work.getD c) d (all && bitOf (fw f 6) 29) (all && fLast f)
  let out := (f.work.map Strm.input).getD [] ++ out
  let q := c.inq ++ a.quar
  let s := unbind (chargeRing s r (comprFj s d.length)) f.inst
  let s := modFlight s r f.idx (fun d => { d with inst := none, eaten := stop, work := some { c' with input := out } })
  if (fFirst f && fLast f) ∧ stop ≤ out.length then notShrunk s r f stop
  else if all then
    let s := keepStrm s f (if fLast f then none else k) { c' with input := [], inq := q }
    finishOut s r f a (cutOut q 0 f.sent out true) (strmWord f { produced := out.length })
  else if fFirst f && fLast f then s
  else moreOut s r f.idx (cutOut q 0 f.sent out false)

/-- DEFLATE_BLOCK_END (R238): the block that a compressor is bound to ends after 1,048,576 input bytes or with its fragment; before that
nothing happens. An input that fails before the block's end ends the stream. -/
def execDeflateBlockEnd (inst : Nat) (s : State) : Res :=
  .next (match boundTo s inst with
  | none => s
  | some (r, f) =>
    if nrgHeld s r || !ringLive s r then s
    else
      match strmFor s r f with
      | .run c k =>
        let a := comprInput s r f
        match blockEnd f a with
        | some (stop, all) => endBlock s r f a stop all c k
        | none =>
          if inputReady f then (if a.status = 2 then shortInput s r f a else badInput s r f a) else s
      | _ => stopFlight s r f { status := 0x0E })

/-! ## Decompressor -/

/-- Where a stream's decoding goes on: the decompressor that it is bound to, or the lowest-numbered free one (R242). -/
def decInst (s : State) (f : Flight) (c : Strm) : Option Nat :=
  match f.inst, c.inst with
  | some i, _ => some i
  | none, some i => some i
  | none, none => freeDec s

/-- A member that starts in a fragment after another has ended takes the lowest-numbered free decompressor, its own among them (R242). -/
def nextInst (s : State) (f : Flight) (i : Nat) (d : DecOut) : Nat :=
  if f.eaten < d.ends ∧ d.rest ≠ [] then (freeDec (unbind s (some i))).getD i else i

/-- A DECOMPRESS fragment on the input that has reached it (R242-R247): `whole` where that is all of it. Output goes on as buffers fill;
the first error in stream order ends the stream with the output before it. -/
def decRun (s : State) (r : Nat) (f : Flight) (a : OpIn) (whole : Bool) (c : Strm) (k : Option Nat) (i : Nat) : State :=
  let inp := c.input ++ a.data
  let d := decodeFrag c.format (fLast f && whole && decide (a.status ≤ 1)) (inp.length + 1) inp c.memberOut [] 0 c.ended
  let room := c.limit - c.out
  let past := decide (c.limit ≠ 0) && decide (room < d.out.length)
  let out := if past then d.out.take room else d.out
  let st := if past then 0x0C else if d.status ≠ 0 then d.status else if 2 ≤ a.status then a.status else 0
  let q := c.inq ++ a.quar
  let j := nextInst s f i d
  let s := keepStrm (bindInst (unbind s (some i)) j c.polder c.format) f k c
  let s := keepHistory s j (frameWindow d.rest) d.frame
  let hold := whole && st == 0 && !fLast f && !d.rest.isEmpty
  let s := modFlight s r f.idx (fun f => { f with inst := if hold then none else some j, eaten := d.ends })
  let used := a.data.length
  if !whole ∧ st = 0 then moreOut s r f.idx (cutOut q 0 f.sent out false)
  else
    let s := chargeRing s r (decompFj s out.length)
    if st = 0 then
      let s := keepStrm s f (if fLast f then none else k)
        { c with input := d.rest, memberOut := d.frame.length, out := c.out + out.length, ended := d.ended, inq := q,
                 inst := if hold then some j else none }
      finishOut s r f a (cutOut q 0 f.sent out true) (strmWord f { produced := out.length })
    else if st = 2 ∧ d.status = 0 then shortInput s r f a
    else if (st = 6 ∨ st = 7) ∧ d.status = 0 ∧ past = false then
      let s := if st = 7 then ringBreach s r f (buf s (hKey a.bad)).owner 4 (hIdx a.bad) false else ueBuf s a.bad (ringStamp s r)
      giveOut (consumeBad s r f a) r f.idx (cutOut q 0 f.sent out false) { status := BitVec.ofNat 8 st, consumed := used }
    else
      giveOut (countErr (consumeBad s r f a) st) r f.idx (cutOut q 0 f.sent out false) { status := BitVec.ofNat 8 st, consumed := used }

/-- DECOMPRESS (R242). A fragment with input to decode waits for a decompressor; a chained one decodes as its input arrives. -/
def execDecompress (r idx : Nat) (s : State) : Res :=
  .next (opStep r idx 6 0 s (fun f s =>
    match strmFor s r f with
    | .breach o k => stopFlight (ringBreach s r f o 7 k true) r f { status := 7 }
    | .lost => stopFlight s r f { status := 0x0E }
    | .run c k =>
      let whole := inputReady f
      let s := if whole then s else absorb s r f
      match flightOf s r idx with
      | none => s
      | some f =>
        let a : OpIn := if whole then opInput s r f else { data := f.acc, quar := f.accQ }
        if a.status = 3 then badInput s r f a
        else if !whole ∧ a.data = [] then s
        else
          match decInst s f c with
          | none => s
          | some i => decRun s r f a whole { c with inst := none } k i))

/-- Ends the fragments of a released stream that are still at work: their outputs not yet delivered are released as poisoned buffers; that
they end CONTEXT_LOST is a DESIGN CHOICE (assumption 68). -/
def dropFragsOf (s : State) (cls k : Nat) : State :=
  s.bpm.rings.foldl (fun s e =>
    e.2.flight.foldl (fun s f =>
      if fCls f == cls && isFrag f && f.res.isNone && started f &&
          (match strmFor s e.1 f with
           | .run _ (some j) => j == k
           | _ => false) then stopFlight s e.1 f { status := 0x0E }
      else s) s) s

/-- CTX_RELEASE of classes 5 and 6 (R236): the stream ends. -/
def execCmprCtxRelease (r idx : Nat) (s : State) : Res :=
  .next (
  let s5 := opStep r idx 5 1 s (fun f s =>
    match findSlot s (ringStamp s r) (fw f 7) with
    | .breach o k => stopFlight (ringBreach s r f o 7 k true) r f { status := 7 }
    | .lost => stopFlight s r f { status := 0x0E }
    | .ok k _ => endFlight (freeSlot (dropFragsOf s 5 k) k) r idx {})
  opStep r idx 6 1 s5 (fun f s =>
    match findRec s (ringStamp s r) (fw f 7) with
    | .breach o k => stopFlight (ringBreach s r f o 7 k true) r f { status := 7 }
    | .lost => stopFlight s r f { status := 0x0E }
    | .ok k _ => endFlight (freeRec (dropFragsOf s 6 k) k) r idx {}))

/-- A read of CMPR_ERR_e, which clears it (R10). -/
def cmprErrVal (s : State) (e : Nat) : W32 × State :=
  (tget s.cmpr.errs 0 e, modCmpr s (fun c => { c with errs := tset c.errs 0 e 0 }))

/-- CMPR_ERR_READ (R10). -/
def execCmprErrRead (ini : Ini) (e : Nat) (s : State) : Res :=
  .next (if e < 5 then readAnswer (pageRead s ini (frameOf 7 0 0) (0x80 + 4 * e) (fun s => cmprErrVal s e)) else s)

end Sys2Proof.Machine
end

