-- ==== Sys2Proof/Machine/Ftla.lean ====
section
/-! DEFINITION. Translation: program units and the Q window (R22, R318), read-around (R320-R332), write-back and recovery of
the map (R311-R315), the command queue of service firmware (R333-R335), FTLA's miss counters (chapter "Translation, parity
and wear"). -/

namespace Sys2Proof.Machine

open Sys2Proof

/-! ## Program units -/

/-- Has every program of a page index of a superblock ended, on every channel? -/
def rowQuiet (s : State) (d block page : Nat) : Bool :=
  (List.range 32).all (fun ch =>
    let names := fun (x : FDesc) => dOp x == 3 && dDie x == d && dBlock x == block && dPage x == page
    !(flc s ch).queue.any names && (match (die s ch d).run with
      | some r => !names r
      | none => true))

/-- May FTLA place these staged writes: each still waits for a place, each slot lies on a plane of the mask, none twice? -/
def unitsOk (s : State) (planes : BitVec 4) (units : List (Nat × Nat)) : Bool :=
  units.all (fun u => s.ftla.staging.any (fun e => e.seq == u.1 && e.placed.isNone) && planes.getLsbD (u.2 / 4)
    && decide (u.2 < 16)) && decide (units.map Prod.fst).Nodup && decide (units.map Prod.snd).Nodup

/-- Is a program unit due: each of its slots is filled, or the 1 ms aggregation limit of its oldest write is reached (R22)? -/
def unitDue (s : State) (planes : BitVec 4) (units : List (Nat × Nat)) : Bool :=
  decide (units.length = 4 * (planesOf planes.toNat).length) ||
  s.ftla.staging.any (fun e => units.any (fun u => u.1 == e.seq) && decide (e.t + 1000 ≤ s.now))

/-- Open Q windows. -/
def windowsOpen (s : State) : Nat := (s.ftla.sbs.filter (fun e => !e.2.window.isEmpty)).length

/-- PROGRAM_UNIT_ISSUE (R22, R316, R318): a filled or due program unit on a present member, or P on its channel; the page index
enters the superblock's Q window, which waits while it holds 32, and a new window while 64 are open; the PROGRAM is pushed through
FTLA's port and the staged writes are placed. Programs wait while the media path is not ready (R201) and while queue 2 of the channel
is full. -/
def execProgramUnitIssue (ch die block page : Nat) (planes : BitVec 4) (parity : Bool) (units : List (Nat × Nat)) (s : State) :
    Res :=
  let sb := die * 2730 + block
  let v := tget s.ftla.sbs {} sb
  let ok := decide (ch < 32) && decide (die < 16) && decide (block < 2730) && decide (page < pagesOf (b2n (v.ev == 2)))
    && decide (planes ≠ 0) && s.ftla.enable && s.isl.mediaReady && unitsOk s planes units && (parity == units.isEmpty)
    && (parity == decide (ch = parityChan s sb page)) && !v.absent.getLsbD ch && dqRoom (flc s ch) 2
    && (if parity then rowQuiet s die block page else unitDue s planes units)
    && (v.window.contains page || (decide (v.window.length < 32) && (!v.window.isEmpty || decide (windowsOpen s < 64))))
  .next (if ok then
    let pol := match s.ftla.staging.find? (fun e => some e.seq == units.head?.map Prod.fst) with
      | some e => e.polder
      | none => 0
    let mask := ((List.range 4).filter (fun p => planes.getLsbD p)).foldl (fun m p => m + 15 * 2 ^ (4 * p)) 0
    let ws := [ put 3 31 28 ||| put die 27 24 ||| put planes.toNat 23 20 ||| put (b2n (v.ev == 2)) 19 18,
                put block 31 20 ||| put page 19 8, put pol 31 26, put mask 31 16, 0, 0, 0, 0 ]
    let s := modFtla s (fun f => { f with
      sbs := tset f.sbs {} sb { v with window := if v.window.contains page then v.window else v.window ++ [page] },
      staging := f.staging.map (fun e =>
        match units.find? (fun u => u.1 == e.seq) with
        | some u => { e with placed := some (granNo ch die (u.2 / 4) block page (u.2 % 4)) }
        | none => e) })
    ftlaCommit s ch { words := ws, q := 2, ftla := true, units := units }
  else s)

/-- A GCMOVE record: the entry moves only where it still names the old granule (R312, R326); answers whether it applied. -/
def moveRecord (s : State) (l new old victim : Nat) : Bool × State :=
  if mapGet s l = old then
    let (w2, w3) := mapWords l new old
    let q := s.ftla.jseq
    (true, mapPut (journalAdd s 2 [w2, w3, BitVec.ofNat 32 new, BitVec.ofNat 32 old, put victim 15 0]) l new q)
  else (false, s)

/-- A granule that fails read-back is rebuilt and rewritten at its new home, and its member becomes absent (R318); beyond the
budget its block is lost (R332). -/
def rehome (s : State) (sb : Nat) (e : Nat × Nat) : State :=
  let (g, new) := e
  let v := tget s.ftla.media {} g
  let can := canRebuild s g
  let s := if can then putGran s new { v with bad := false } else s
  let s := putGran s g { v with bad := true }
  let s := match v.back with
    | some l =>
      if mapGet s l ≠ g then s
      else if can then (moveRecord s l new g sb).2
      else trimRecord s l 1 vLost
    | none => s
  blockRecord s sb (gChan g) (2 ^ gPlane g) 6

/-- Is page index `p` programmed on every present member of a superblock, or the superblock closed (R318)? -/
def readBackDue (s : State) (sb page : Nat) : Bool :=
  let v := tget s.ftla.sbs {} sb
  v.ev == 3 || (List.range 32).all (fun ch => v.absent.getLsbD ch || (List.range 4).all (fun pl =>
    let b := blk s ch (sb / 2730) pl (sb % 2730)
    b.st == .sealed || decide (page + 32 < b.ptr)))

/-- Q_WINDOW_READBACK (R318): the oldest page index of the window has been read back; its Q is discarded. -/
def execQWindowReadback (sb page : Nat) (bad : List (Nat × Nat)) (s : State) : Res :=
  let v := tget s.ftla.sbs {} sb
  let here := bad.all (fun e => decide (gDie e.1 * 2730 + gBlock e.1 = sb) && decide (gPage e.1 = page) && decide (e.2 < granEnd))
  .next (if v.window.head? = some page ∧ readBackDue s sb page ∧ here ∧ jFull s = false then
    let s := bad.foldl (fun s e => rehome s sb e) s
    modFtla s (fun f => { f with sbs := tmod f.sbs {} sb (fun b => { b with window := b.window.erase page }) })
  else s)

/-! ## Read-around -/

/-- Does NRG consent to a read-around (R321): host reads at 40 W and more always; else by the class 4 account and guard? -/
def consents (s : State) (q : RdReq) : Bool :=
  match q.who with
  | .cmd _ _ _ _ => decide (s.nrg.envelope.toNat ≤ 2) || (decide (0 ≤ s.nrg.svcBal) && !s.nrg.held.getLsbD 1)
  | .desc r _ _ => decide (0 ≤ (acct s (ringStamp s r)).bal) && !s.nrg.held.getLsbD 1
  | .page _ => true

/-- Energy of the 31 peer reads: sensing four granules each, transfer, hard decode (R321), fJ. -/
def aroundFj (s : State) : Nat := 31 * (4 * senseFj s 0 + xferFj s)

/-- Issues a read request again with busy limit 0 (R321). -/
def reissue (s : State) (q : RdReq) : State :=
  let s := modFtla s (fun f => { f with reads := f.reads.map (fun x =>
    if x.id = q.id then { x with withdrawn := false, again := false } else x) })
  match q.who with
  | .page _ => pushRead s q.id q.gran 0 1 0 (15 * 2 ^ (4 * gPlane q.gran))
  | _ => pushRead s q.id q.gran q.polder 0 0 (2 ^ (4 * gPlane q.gran + gSlot q.gran))

/-- Serves a withdrawn or uncorrectable read, or one of a failed member: rebuilt from the stripe; read again with busy limit 0 without
consent or while its peers are missing; lost where parity cannot rebuild it (R320, R321, R331, R332). A failed member is not read
again: its request waits for consent. -/
def around (s : State) (q : RdReq) : State :=
  if !consents s q then (if failedMember s q.gran then s else reissue s q)
  else if canRebuild s q.gran then
    let p := match q.who with
      | .cmd fn _ _ _ => fnPolder fn
      | .desc r _ _ => ringStamp s r
      | .page _ => 0
    let s := match q.who with
      | .desc r _ _ => chargeRing s r (aroundFj s)
      | _ => chargeSvc s (aroundFj s)
    let s := pmonCount (pmonCount s 6 p 1) 3 p 124
    readGot (modFtla s (fun f => { f with raCnt := satInc f.raCnt })) q
  else if q.again then readLost s q
  else reissue s q

/-- The request that a READ_AROUND serves: the withdrawn read of a waiter's block, or of the map page that its lookup waits for. -/
def aroundReq (s : State) (who : Waiter) : Option RdReq :=
  match s.ftla.reads.find? (fun q => q.who == who && q.withdrawn) with
  | some q => some q
  | none =>
    match s.ftla.reads.find? (fun q => q.who == who && q.page) with
    | some q => s.ftla.reads.find? (fun x => x.who == .page (q.lidx / 1024) && x.withdrawn)
    | none => none

/-- READ_AROUND (R320): `fn` of 1,024 and more names the extent READ of ring fn − 1,024 with index `cid`. A logical block waits for the
media path (R201). -/
def execReadAround (fn sq cid lba : Nat) (s : State) : Res :=
  let who : Waiter := if 1024 ≤ fn then .desc (fn - 1024) cid lba else .cmd fn sq cid lba
  .next (match aroundReq s who with
  | some q => if s.isl.mediaReady || q.who != who then around s q else s
  | none => s)

/-! ## Map write-back and recovery -/

/-- Number of map pages (R303). -/
def mapPages : Nat := 54836274

/-- Writes a map page back at a flash location: the MAPPAGE record, the directory, and the end of the page's staging-sequence
memory (R311, R313, R314). -/
def writeBack (s : State) (pg loc : Nat) : State :=
  let q := s.ftla.jseq
  let s := journalAdd s 4 [BitVec.ofNat 32 pg, put (loc / 2 ^ 32) 3 0, BitVec.ofNat 32 loc, BitVec.ofNat 32 q, put (q / 2 ^ 32) 15 0]
  modFtla s (fun f => { f with
    pages := tmod f.pages {} pg (fun p => { p with loc := some loc, dirty := false, seqLo := 0 }),
    applied := tdrop f.applied (fun l _ => decide (l / 1024 = pg)) })

/-- The tail moves on, the write-back mark follows, and what waited for journal space goes on. -/
def journalSettle (s : State) : State :=
  let s := trimJournal s
  settle (modFtla s (fun f => { f with writeback := decide (196608 ≤ f.journal.length) }))

/-- A location of a map page: slot 0 of a flash page, position 0 to 2 (R308). -/
def locOk (loc : Nat) : Bool := decide (loc < granEnd) && decide (loc % 4 ≤ 2)

/-- Are these dirty map pages those with the oldest records (R314)? -/
def oldestPages (s : State) (pgs : List Nat) : Bool :=
  let from_ := fun (p : Nat) => (tget s.ftla.pages {} p).seqLo
  pgs.all (fun p => (tget s.ftla.pages {} p).dirty) &&
  s.ftla.pages.all (fun e => !e.2.dirty || pgs.contains e.1 || pgs.all (fun p => decide (from_ p ≤ e.2.seqLo)))

/-- MAP_WRITE_BACK (R311, R314): from 196,608 records on, or while dirty pages hold every cache slot, dirty pages are written back,
oldest records first; the charge goes to the service account. -/
def execMapWriteBack (pages : List (Nat × Nat)) (s : State) : Res :=
  .next (if s.ftla.ready && (decide (196608 ≤ s.ftla.journal.length) || cacheDirty s)
      && oldestPages s (pages.map Prod.fst) && pages.all (fun e => locOk e.2) then
    let s := pages.foldl (fun s e => writeBack s e.1 e.2) s
    journalSettle (chargeSvc s ((pages.length + 2) / 3 * 4 * progFj s 0))
  else s)

/-- The newest HOLDUP record that no drain release follows (R315). -/
def openHoldup (s : State) : Option JRec :=
  match (s.ftla.journal.filter (fun r => r.typ == 7)).getLast? with
  | some r => if r.w.getD 1 0 = 0 then none else some r
  | none => none

/-- Has a logical index a MAP, GCMOVE or TRIM record after sequence `q`? -/
def mappedAfter (s : State) (q l : Nat) : Bool :=
  s.ftla.journal.any (fun r =>
    let b := (r.w.getD 0 0).toNat + 2 ^ 32 * fld (r.w.getD 1 0) 31 28
    let n := if r.typ = 3 then (r.w.getD 2 0).toNat else 1
    decide (q < r.seq) && decide (r.typ ≤ 3) && decide (b ≤ l) && decide (l < b + n))

/-- Step 4 of recovery: a MAP record for each staged write of the manifest that has none; the drain is released. -/
def replayManifest (s : State) : State :=
  match openHoldup s with
  | none => s
  | some h =>
    let s0 := s
    let mine := s.ftla.staging.filter (fun e => e.drained.isSome)
    let s := mine.foldl (fun s e =>
      if mappedAfter s0 h.seq e.lidx then s else (mapRecord s e.lidx (e.drained.getD 0) e.seq).2) s
    let s := journalAdd s 7 [h.w.getD 0 0, 0, 0, 0, 0]
    let s := modFtla s (fun f => { f with staging := f.staging.filter (fun e => e.drained.isNone) })
    let s := modNrg s (fun n => { n with safety := [], draining := false })
    modNv s (fun v => { v with losses := if s.rst.kind.toNat ≤ 1 then v.losses + 1 else v.losses })

/-- Step 5 of recovery: every superblock that was open is sealed. -/
def sealOpen (s : State) : State :=
  let open_ := s.ftla.sbs.filter (fun e => e.2.ev == 1 || e.2.ev == 2)
  let s := open_.foldl (fun s e => blockRecord s e.1 0 0 3) s
  let s := modFtla s (fun f => { f with sbs := f.sbs.map (fun e => (e.1, { e.2 with window := [] })) |>.filter (fun e => decide (e.2 ≠ {})) })
  { s with flcs := s.flcs.map (fun c => (c.1, { c.2 with
      blks := tmapIf c.2.blks (fun _ b => b.st == .opened) (fun b => { b with st := .sealed, ptr := 0 }) })) }

/-- The present members of a superblock. -/
def presentChans (b : Sb) : List Nat := (List.range 32).filter (fun c => !b.absent.getLsbD c)

/-- Recovery repeats the erases whose intent is journalled without a BLOCK erased record (R328). -/
def repeatErases (s : State) : State :=
  (s.ftla.sbs.filter (fun e => e.2.ev == 4)).foldl (fun s e => (presentChans e.2).foldl (fun s ch =>
    ftlaCommit s ch { q := 3, ftla := true, words :=
      [put 4 31 28 ||| put (e.1 / 2730) 27 24 ||| put 15 23 20, put (e.1 % 2730) 31 20, 0, 0, 0, 0, 0, 0] }) s) s

/-- Ends FTLA's recovery. -/
def recover (s : State) : State :=
  let s := repeatErases (sealOpen (replayManifest s))
  journalSettle (modFtla s (fun f => { f with ready := true, replaying := false }))

/-! ## The command queue of service firmware -/

/-- Byte offset in DRAM of the command that FTLA reads next. -/
def ftlaSqAt (s : State) : Nat := s.ftla.sqBase.toNat * 8192 + s.ftla.sqCons.toNat * 32

/-- The command that FTLA reads next, eight words. -/
def ftlaCmd (s : State) : List W32 :=
  (List.range 8).map (fun i => BitVec.ofNat 32 (ofLe (readBytes s.dram (ftlaSqAt s + 4 * i) 4)))

/-- Word `n` of a command. -/
def cmdW (w : List W32) (n : Nat) : W32 := w.getD n 0

/-- The logical index of words 2 and 3. -/
def cmdL (w : List W32) : Nat := (cmdW w 2).toNat + 2 ^ 32 * fld (cmdW w 3) 31 28

/-- A command's result: status, result, journal sequence, and the state. -/
structure FRes where
  status : Nat := 0
  result : Nat := 0
  seq : Nat := 0
  st : State

/-- Ends the command that FTLA has executed: its completion is written and both indices advance (R334). -/
def ftlaDone (w : List W32) (r : FRes) : State :=
  let s := r.st
  let a := s.ftla.cqBase.toNat * 8192 + s.ftla.cqProd.toNat * 16
  let ws := [put r.status 31 24 ||| put (fld (cmdW w 0) 31 24) 23 16 ||| put (fld (cmdW w 0) 15 0) 15 0,
             BitVec.ofNat 32 r.result, put (r.result / 2 ^ 32) 3 0, BitVec.ofNat 32 r.seq]
  modFtla (dramWrite s a (ws.flatMap (fun (x : W32) => leBytes 4 x.toNat))) (fun f => { f with
    sqCons := f.sqCons + 1, cqProd := f.cqProd + 1 })

/-- Executes the command at the head of FTLA's queue where it is of the row's opcode, or of no known opcode: nothing while the
queue is empty or stopped, or 511 completions are unconsumed; NOT_READY before recovery has ended (R334, R335). A command that
writes a record waits while the journal is full (R314). -/
def ftlaRun (s : State) (op : Nat) (records : Bool) (f : List W32 → State → FRes) : State :=
  let w := ftlaCmd s
  let o := fld (cmdW w 0) 31 24
  if s.ftla.enable = false ∨ s.ftla.sqProd = s.ftla.sqCons ∨ s.ftla.cqProd + 1 = s.ftla.cqCons then s
  else if o ≠ op ∧ 1 ≤ o ∧ o ≤ 8 then s
  else if !s.ftla.ready then ftlaDone w { status := 0x33, st := s }
  else if o ≠ op then ftlaDone w { status := 0x31, st := s }
  else if records && jFull s then s
  else journalSettle (ftlaDone w (f w s))

/-- MAP_GET (R335): the entry. -/
def execMapGet (s : State) : Res :=
  .next (ftlaRun s 1 false (fun w s =>
    if cmdL w < mapEnd then { result := mapGet s (cmdL w), st := s } else { status := 0x31, st := s }))

/-- The new value in words 3 and 4. -/
def cmdNew (w : List W32) : Nat := (cmdW w 4).toNat + 2 ^ 32 * fld (cmdW w 3) 27 24
/-- The old value in words 3 and 5. -/
def cmdOld (w : List W32) : Nat := (cmdW w 5).toNat + 2 ^ 32 * fld (cmdW w 3) 23 20
/-- Is a map value reserved (R306)? -/
def reservedVal (v : Nat) : Bool := decide (granEnd ≤ v) && decide (v < vZeroed)

/-- MAP_SET (R313, R335): the MAP record; the result is the old entry. -/
def execMapSet (s : State) : Res :=
  .next (ftlaRun s 2 true (fun w s =>
    if mapEnd ≤ cmdL w ∨ reservedVal (cmdNew w) then { status := 0x31, st := s }
    else
      let old := mapGet s (cmdL w)
      let q := s.ftla.jseq
      match mapRecord s (cmdL w) (cmdNew w) (cmdW w 6).toNat with
      | (true, s) => { result := old, seq := q, st := s }
      | (false, s) => { status := 0x30, result := old, st := s }))

/-- MAP_MOVE (R326, R335): applied, or NOT_APPLIED where the entry no longer names the old granule. -/
def execMapMove (s : State) : Res :=
  .next (ftlaRun s 3 true (fun w s =>
    if mapEnd ≤ cmdL w ∨ reservedVal (cmdNew w) then { status := 0x31, st := s }
    else
      let q := s.ftla.jseq
      match moveRecord s (cmdL w) (cmdNew w) (cmdOld w) (fld (cmdW w 6) 15 0) with
      | (true, s) => { result := 1, seq := q, st := s }
      | (false, s) => { status := 0x30, st := s }))

/-- TRIM (R335): a run of entries takes a special value. -/
def execTrim (s : State) : Res :=
  .next (ftlaRun s 4 true (fun w s =>
    let n := (cmdW w 4).toNat
    let v := (cmdW w 5).toNat + 2 ^ 32 * fld (cmdW w 6) 3 0
    if mapEnd < cmdL w + n ∨ v < vZeroed then { status := 0x31, st := s }
    else { seq := s.ftla.jseq, st := trimRecord s (cmdL w) n v }))

/-- PAGE_OUT (R335): the map page of word 2 is written back at the location the firmware's placement gives. -/
def execPageOut (loc : Nat) (s : State) : Res :=
  .next (if locOk loc then ftlaRun s 5 true (fun w s =>
    let pg := (cmdW w 2).toNat
    if mapPages ≤ pg then { status := 0x31, st := s }
    else { result := loc, seq := s.ftla.jseq, st := chargeSvc (writeBack s pg loc) (4 * progFj s 0) })
  else s)

/-- The effect of a record of types 5 to 8 that the firmware writes (R312). -/
def recordEffect (s : State) (typ : Nat) (w : List W32) : State :=
  let v := fun (n : Nat) => w.getD n 0
  if typ = 5 then
    modFtla s (fun f => { f with sbs := tmod f.sbs {} (fld (v 0) 15 0) (fun b =>
      let ev := fld (v 0) 31 28
      let b := { b with qlc := (v 1).toNat, pslc := (v 2).toNat }
      if ev = 6 then { b with absent := b.absent ||| BitVec.ofNat 32 (2 ^ fld (v 0) 20 16) }
      else { b with ev := ev, window := if ev = 3 ∨ ev = 1 ∨ ev = 2 then b.window else [] }) })
  else if typ = 7 ∧ v 1 = 0 then
    modNrg (modFtla s (fun f => { f with staging := f.staging.map (fun e => { e with drained := none }) }))
      (fun n => { n with safety := [] })
  else if typ = 8 then
    modFtla s (fun f => { f with
      fail := if (v 3).toNat = 0 then none else some ((v 0).toNat, (v 1).toNat, (v 2).toNat, (v 3).toNat) })
  else s

/-- RECORD (R335): a record of type 5 to 8, the type in bits 31:28 of word 1 as in the record's own word 0. -/
def execRecord (s : State) : Res :=
  .next (ftlaRun s 6 true (fun w s =>
    let typ := fld (cmdW w 1) 31 28
    if typ < 5 ∨ 8 < typ then { status := 0x31, st := s }
    else
      let q := s.ftla.jseq
      { result := q, seq := q, st := recordEffect (journalAdd s typ ((w.drop 2).take 5)) typ ((w.drop 2).take 5) }))

/-- REBUILD (R332, R335): the granule of words 2 and 3 rebuilt from parity at the byte cursor of words 4 and 5. -/
def execRebuild (s : State) : Res :=
  .next (ftlaRun s 7 false (fun w s =>
    let g := (cmdW w 2).toNat + 2 ^ 32 * fld (cmdW w 3) 3 0
    let c := (cmdW w 4).toNat + 2 ^ 32 * fld (cmdW w 5) 3 0
    if granEnd ≤ g then { status := 0x31, st := s }
    else if canRebuild s g then { st := chargeSvc (curWrite s c (granRaw s g)) (aroundFj s) }
    else { status := 0x32, st := s }))

/-- SB_SET (R335): the superblock of word 2 joins the stream of word 3: 0 map, 1 data, 2 hold-up. -/
def execSbSet (s : State) : Res :=
  .next (ftlaRun s 8 false (fun w s =>
    let sb := fld (cmdW w 2) 15 0
    let k := (cmdW w 3).toNat
    if 43680 ≤ sb ∨ 2 < k then { status := 0x31, st := s }
    else { st := modFtla s (fun f => { f with sbs := tmod f.sbs {} sb (fun b => { b with stream := k }) }) }))

/-- A write of FTLA_CQ_CONS (R334). -/
def ftlaConsWrite (s : State) (v : W32) : State := modFtla s (fun f => { f with cqCons := BitVec.ofNat 9 (fld v 8 0) })

/-- FTLA_COMPLETION_WRITE (R334): places come free; FTLA's next command is a step of its own. -/
def execFtlaCompletionWrite (ini : Ini) (v : W32) (s : State) : Res :=
  .next (pageWrite s ini (frameOf 0x0A 0 0) 0x5C (fun s => ftlaConsWrite s v))

/-! ## Read-clear counters -/

/-- A read of FTLA_LA_MISS, which clears it (R10). -/
def laMissVal (s : State) : W32 × State := (s.ftla.laMiss, modFtla s (fun f => { f with laMiss := 0 }))
/-- A read of FTLA_MC_MISS. -/
def mcMissVal (s : State) : W32 × State := (s.ftla.mcMiss, modFtla s (fun f => { f with mcMiss := 0 }))
/-- A read of FTLA_RA_CNT. -/
def raCntVal (s : State) : W32 × State := (s.ftla.raCnt, modFtla s (fun f => { f with raCnt := 0 }))

/-- FTLA_LA_MISS_READ (R10). -/
def execFtlaLaMissRead (ini : Ini) (s : State) : Res :=
  .next (readAnswer (pageRead s ini (frameOf 0x0A 0 0) 0x68 laMissVal))
/-- FTLA_MC_MISS_READ (R10). -/
def execFtlaMcMissRead (ini : Ini) (s : State) : Res :=
  .next (readAnswer (pageRead s ini (frameOf 0x0A 0 0) 0x6C mcMissVal))
/-- FTLA_RA_CNT_READ (R10). -/
def execFtlaRaCntRead (ini : Ini) (s : State) : Res :=
  .next (readAnswer (pageRead s ini (frameOf 0x0A 0 0) 0x70 raCntVal))

end Sys2Proof.Machine
end

