-- ==== Sys2Proof/Machine/HostOps.lean ====
section
/-! DEFINITION. What the commands of the host queues share: which functions exist, the fetch of a command (R36, R77, R84,
R88), namespace checks, who may issue an admin command (R64). -/

namespace Sys2Proof.Machine

open Sys2Proof

/-- Is the module dual-ported: ordering code -OD and port mode 1, which training found (R6, R56)? -/
def dual (s : State) : Bool := s.rst.dual

/-- Does a function exist: the port A PF; VF k while VF Enable is set and NumVFs ≥ k; the port B PF in dual-port mode? -/
def present (s : State) (fn : Nat) : Bool :=
  fn == 0 || (decide (1 ≤ fn) && decide (fn ≤ 63) && s.host.vfEnable && decide (fn ≤ s.host.numVfs)) || (fn == 64 && dual s)

/-- Is the function a VF? -/
def isVf (fn : Nat) : Bool := decide (1 ≤ fn) && decide (fn ≤ 63)

/-- Does a controller process commands: ready and not failed? -/
def running (s : State) (fn : Nat) : Bool :=
  let c := ctrl s fn
  present s fn && c.cc.getLsbD 0 && c.rdy && !c.cfs

/-- May the controller fetch from a queue now: it runs, the queue exists, holds an entry and is not frozen, its polder is
ACTIVE (R36), no activation has stopped fetching (R84)? -/
def canFetch (s : State) (fn sq : Nat) : Bool :=
  running s fn && (polder s (fnPolder fn)).st == .active && s.host.fwAct.isNone && !s.pw.pwrdis &&
  (match sqOf s fn sq with
   | some q => q.head != q.tail && q.frozen.isNone
   | none => false)

/-- Takes an entry off a queue. -/
def fetch (s : State) (fn sq : Nat) : State :=
  match sqOf s fn sq with
  | some q => modHost (setSq s fn sq (some { q with head := (q.head + 1) % q.size })) (fun h =>
      { h with ord := h.ord + 1, idleSince := s.now })
  | none => s

/-- The exit from a non-operational power state begins (R88, R349). -/
def beginExit (s : State) : State :=
  modHost s (fun h => if 4 ≤ h.ps then { h with psExit := true, psEntry := none } else { h with psEntry := none })

/-- Fetches a command and runs it: nothing where none can be fetched; in PS4 and PS5 the exit begins and the entry stays in
its queue until the module is operational (R88). -/
def fetched (s : State) (fn sq : Nat) (body : State → State) : State :=
  if !canFetch s fn sq then s
  else if 4 ≤ s.host.ps then beginExit s
  else body (fetch (beginExit s) fn sq)

/-- An I/O command of the NVM command set. -/
def ioCmd (s : State) (fn sq : Nat) (body : State → State) : State := if sq = 0 then s else fetched s fn sq body

/-- The queue becomes a compute queue (R77). -/
def markCompute (s : State) (fn sq : Nat) : State :=
  match sqOf s fn sq with
  | some q => setSq s fn sq (some { q with compute := true })
  | none => s

/-- An I/O command of the Computational Programs or SLM command set: its queue is a compute queue from its fetch on (R77), and it
ends Invalid Command Opcode with CC.CSS = 0 (R58). -/
def computeCmd (s : State) (fn sq cid : Nat) (body : State → State) : State :=
  ioCmd s fn sq (fun s =>
    let s := markCompute s fn sq
    if fld (ctrl s fn).cc 6 4 = 0 then complete s fn sq cid .invalidOpcode else body s)

/-- An admin command. -/
def adminCmd (s : State) (fn : Nat) (body : State → State) : State := fetched s fn 0 body

/-- An admin command that VFs do not have (R64). -/
def pfCmd (s : State) (fn cid : Nat) (body : State → State) : State :=
  adminCmd s fn (fun s => if isVf fn then complete s fn 0 cid .invalidOpcode else body s)

/-- A namespace attached to the controller (R32). -/
def attached (s : State) (fn nsid : Nat) : Option Ns :=
  match nsOf s nsid with
  | some v => if v.ctrl = some fn then some v else none
  | none => none

/-- Most blocks of a command with a data transfer: MDTS 2 MiB. -/
def mdtsBlocks : Nat := 512

/-- The checks of a command on `n` logical blocks from `slba`: namespace, count, transfer size, range. -/
def spanCheck (s : State) (fn nsid slba n : Nat) (data : Bool) : Except NStat Ns :=
  match attached s fn nsid with
  | none => .error .invalidNs
  | some v =>
    if n = 0 ∨ (data = true ∧ mdtsBlocks < n) then .error .invalidField
    else if v.blocks < slba + n then .error .lbaRange
    else .ok v

/-- Adds an outstanding command. -/
def addCmd (s : State) (fn sq cid nsid : Nat) (op : CmdOp) (parts : List Part := []) (pi : PiChk := ⟨false, false, 0⟩) : State :=
  modHost s (fun h => { h with cmds := h.cmds ++
    [{ fn := fn, sq := sq, cid := cid, nsid := nsid, t := s.now, ord := h.ord, pi := pi, op := op, parts := parts }] })

/-- The outstanding command of an identifier. -/
def findCmd (s : State) (fn sq cid : Nat) : Option Cmd := s.host.cmds.find? (fun c => cmdOn c fn sq && c.cid == cid)

/-- Has a function an I/O command outstanding, or does a program run (R88)? -/
def idleNow (s : State) : Bool :=
  !s.host.cmds.any (fun c => c.sq != 0) && !s.jobs.any (fun e => e.2.isSome)

end Sys2Proof.Machine
end

