-- ==== Sys2Proof/Machine/HostIo.lean ====
section
/-! DEFINITION. The I/O commands of the NVM command set: host writes through protected staging (R22, R23, R376, R377), reads
(R24), flush (R80), map changes (R463), copies, and the 3.5 ms rule (R92). -/

namespace Sys2Proof.Machine

open Sys2Proof

/-! ## Writes -/

/-- Step 2 of a write: every block enters protected staging, and the write completes (R22, R23). -/
def stageAll (s : State) (fn sq cid nsid ord slba : Nat) (v : Ns) (blocks : List Bytes) : State :=
  let p := fnPolder fn
  let s := (List.range blocks.length).foldl (fun s i =>
    match lidx v (slba + i) with
    | some l => stage s nsid (slba + i) l p ord (padTo (blockLen v) (blocks.getD i []))
    | none => s) s
  let n := blocks.length
  complete (charge (pmonCount (dramCount s p (n * 4096)) 2 p n) p (n * (hostLinkFj s 4096 + dramFj s 4096)) true) fn sq cid .success

/-- Bytes of protected staging that a write takes. -/
def stageSize (v : Ns) (blocks : List Bytes) : Nat := blocks.length * blockLen v

/-- A write whose data has arrived: into staging where it fits, else it waits at step 1 (R23, R376). -/
def writeGo (s : State) (fn sq cid nsid slba : Nat) (v : Ns) (blocks : List Bytes) : State :=
  if fits s (stageSize v blocks) then stageAll s fn sq cid nsid s.host.ord slba v blocks
  else addCmd s fn sq cid nsid (.write slba blocks)

/-- WRITE (R22): with protection information a guard or reference tag mismatch completes the command and leaves its
blocks unchanged (R67); with a staging limit of 0 it is refused (R377). -/
def execWrite (fn sq cid nsid slba : Nat) (blocks : List Bytes) (pi : PiChk) (s : State) : Res :=
  .next (ioCmd s fn sq (fun s =>
    match spanCheck s fn nsid slba blocks.length true with
    | .error e => complete s fn sq cid e
    | .ok v =>
      if s.nrg.limit = 0 then complete s fn sq cid .writeProtected
      else if let some e := piFail v pi slba blocks then complete s fn sq cid e
      else writeGo s fn sq cid nsid slba v blocks))

/-- STAGING_ADMIT (R376): a write that waits at step 1 enters protected staging where it fits now. -/
def execStagingAdmit (fn sq cid : Nat) (s : State) : Res :=
  .next (match findCmd s fn sq cid with
  | none => s
  | some c =>
    match c.op, nsOf s c.nsid with
    | .write slba blocks, some v =>
      if fits s (stageSize v blocks) then stageAll s fn sq cid c.nsid c.ord slba v blocks else s
    | _, _ => s)

/-! ## Reads -/

/-- Starts a command that reads `n` blocks from `slba`. -/
def startReads (s : State) (fn sq cid nsid slba n : Nat) (v : Ns) (pi : PiChk) (op : CmdOp) : State :=
  let lbas := (List.range n).map (fun i => slba + i)
  let s := addCmd s fn sq cid nsid op (lbas.map (fun b => { lba := b, bad := (lidx v b).isNone })) pi
  readParts s fn sq cid (lbas.filterMap (fun b => (lidx v b).map (fun l => (b, l))))

/-- READ (R24). -/
def execRead (fn sq cid nsid : Nat) (start : FromLba) (count : Nat) (s : State) : Res :=
  .next (ioCmd s fn sq (fun s =>
    match spanCheck s fn nsid start.slba count true with
    | .error e => complete s fn sq cid e
    | .ok v => startReads s fn sq cid nsid start.slba count v start.pi .read))

/-- COMPARE (R91). -/
def execCompare (fn sq cid nsid : Nat) (start : FromLba) (blocks : List Bytes) (s : State) : Res :=
  .next (ioCmd s fn sq (fun s =>
    match spanCheck s fn nsid start.slba blocks.length true with
    | .error e => complete s fn sq cid e
    | .ok v => startReads s fn sq cid nsid start.slba blocks.length v start.pi (.compare blocks)))

/-- VERIFY (R91). -/
def execVerify (fn sq cid nsid : Nat) (start : FromLba) (count : Nat) (s : State) : Res :=
  .next (ioCmd s fn sq (fun s =>
    match spanCheck s fn nsid start.slba count false with
    | .error e => complete s fn sq cid e
    | .ok v => startReads s fn sq cid nsid start.slba count v start.pi .verify))

/-- The source blocks of a Copy in order: namespace, LBA, logical index; an error where a range is outside its namespace. -/
def copySources (s : State) (fn : Nat) : List (Nat × Nat × Nat) → Except NStat (List (Nat × Nat × Nat))
  | [] => .ok []
  | (src, slba, n) :: r =>
    match spanCheck s fn src slba n false with
    | .error e => .error e
    | .ok v =>
      match copySources s fn r with
      | .error e => .error e
      | .ok ls => .ok ((List.range n).filterMap (fun i => (lidx v (slba + i)).map (fun l => (src, slba + i, l))) ++ ls)

/-- COPY (R91): formats 0 and 2; format 0 names blocks of the destination's own namespace. The blocks are read in order, then
written as a write. -/
def execCopy (fn sq cid nsid : Nat) (start : FromLba) (format : Nat) (ranges : List (Nat × Nat × Nat)) (s : State) : Res :=
  .next (ioCmd s fn sq (fun s =>
    let rs := if format = 0 then ranges.map (fun r => (nsid, r.2)) else ranges
    if format ≠ 0 ∧ format ≠ 2 then complete s fn sq cid .invalidField
    else
      match copySources s fn rs with
      | .error e => complete s fn sq cid e
      | .ok ls =>
        match spanCheck s fn nsid start.slba ls.length false with
        | .error e => complete s fn sq cid e
        | .ok _ =>
          if s.nrg.limit = 0 then complete s fn sq cid .writeProtected
          else
            let idx := List.range ls.length
            let s := addCmd s fn sq cid nsid (.copy start.slba)
              ((idx.zip ls).map (fun e => { lba := e.1, src := some (e.2.1, e.2.2.1) })) start.pi
            readParts s fn sq cid (idx.zip (ls.map (fun e => e.2.2)))))

/-! ## Flush and map changes -/

/-- FLUSH (R80): it covers the staged writes of its namespace, or of every namespace attached to its controller, and those
writes that an earlier command of the same queue brings. -/
def execFlush (fn sq cid nsid : Nat) (s : State) : Res :=
  .next (ioCmd s fn sq (fun s =>
    let all := decide (nsid = 0xFFFFFFFF)
    let mine := fun (n : Nat) => if all then (attached s fn n).isSome else n == nsid
    if !all && (attached s fn nsid).isNone then complete s fn sq cid .invalidNs
    else
      let seqs := (s.ftla.staging.filter (fun e => mine e.nsid)).map (fun e => e.seq)
      let ords := (s.host.cmds.filter (fun c => cmdOn c fn sq && mine c.nsid && (match c.op with
        | .write _ _ => true
        | .copy _ => true
        | _ => false))).map (fun c => c.ord)
      settle (addCmd s fn sq cid nsid (.flush seqs ords))))

/-- A command that changes the map through TRIM records (R463). -/
def mapCmd (s : State) (fn sq cid nsid : Nat) (ranges : List (Nat × Nat)) (v : Nat) (zeroes : Bool := false) : State :=
  settle (addCmd s fn sq cid nsid (.mapChange ranges v zeroes))

/-- WRITE_UNCORRECTABLE (R463): the blocks become lost. -/
def execWriteUncorrectable (fn sq cid nsid slba count : Nat) (s : State) : Res :=
  .next (ioCmd s fn sq (fun s =>
    match spanCheck s fn nsid slba count false with
    | .error e => complete s fn sq cid e
    | .ok _ => mapCmd s fn sq cid nsid [(slba, count)] vLost))

/-- WRITE_ZEROES (R463): the blocks become deallocated with DEAC, else zeroed; refused with a staging limit of 0 (R377). -/
def execWriteZeroes (fn sq cid nsid slba count : Nat) (deac : Bool) (s : State) : Res :=
  .next (ioCmd s fn sq (fun s =>
    match spanCheck s fn nsid slba count false with
    | .error e => complete s fn sq cid e
    | .ok _ =>
      if s.nrg.limit = 0 then complete s fn sq cid .writeProtected
      else mapCmd s fn sq cid nsid [(slba, count)] (if deac then vDealloc else vZeroed) true))

/-- DATASET_MANAGEMENT (R463): deallocate, 1 to 256 ranges. -/
def execDatasetManagement (fn sq cid nsid : Nat) (ranges : List (Nat × Nat)) (s : State) : Res :=
  .next (ioCmd s fn sq (fun s =>
    match attached s fn nsid with
    | none => complete s fn sq cid .invalidNs
    | some v =>
      if ranges.length = 0 ∨ 256 < ranges.length then complete s fn sq cid .invalidField
      else if ranges.any (fun r => decide (v.blocks < r.1 + r.2)) then complete s fn sq cid .lbaRange
      else mapCmd s fn sq cid nsid (ranges.filter (fun r => decide (r.2 ≠ 0))) vDealloc))

/-! ## Flexible data placement -/

/-- IO_MANAGEMENT_RECEIVE (R91): the reclaim unit handle status in the standard's layout (assumption 5). -/
def execIoManagementReceive (fn sq cid nsid mo len : Nat) (s : State) : Res :=
  .next (ioCmd s fn sq (fun s =>
    if (attached s fn nsid).isNone then complete s fn sq cid .invalidNs
    else if mo ≠ 1 then complete s fn sq cid .invalidField
    else
      let (n, s) := takeFree s
      complete s fn sq cid .success 0 0 (span (Config.stdBytes 0x12 n) 0 len)))

/-- IO_MANAGEMENT_SEND (R91): a reclaim unit handle update changes no state that the spec names. -/
def execIoManagementSend (fn sq cid nsid mo : Nat) (_data : Bytes) (s : State) : Res :=
  .next (ioCmd s fn sq (fun s =>
    if (attached s fn nsid).isNone then complete s fn sq cid .invalidNs
    else if mo ≠ 1 then complete s fn sq cid .invalidField
    else complete s fn sq cid .success))

/-! ## The bound -/

/-- May the 3.5 ms rule end a command: any I/O command but an Execute Program (R92)? -/
def interruptible (c : Cmd) : Bool :=
  c.sq != 0 && (match c.op with
    | .exec _ => false
    | .activate => false
    | _ => true)

/-- COMMAND_INTERRUPTED (R92): a command that has not ended 3.5 ms after its fetch completes with Command Interrupted, DNR 0. -/
def execCommandInterrupted (fn sq cid : Nat) (s : State) : Res :=
  .next (match findCmd s fn sq cid with
  | none => s
  | some c =>
    if interruptible c ∧ c.t + 3500 ≤ s.now then
      settle (complete s fn sq cid .interrupted)
    else s)

end Sys2Proof.Machine
end

