-- ==== Sys2Proof/Machine/HostAdmin.lean ====
section
/-! DEFINITION. The admin queue: doorbells (R36, R50), I/O queues (R61, R79), Abort (R86, R87), asynchronous event requests
(R76), features (R63, R65, R74, R75, R77-R79, R88, R89, R378). -/

namespace Sys2Proof.Machine

open Sys2Proof

/-! ## Doorbells -/

/-- SQ_TAIL_DOORBELL (R36): accepted in QUIESCING and from a frozen queue, discarded in TEARDOWN (R50). A command that can be fetched
then ends an entry to PS4 or PS5, or lets the exit begin (R88, R348). -/
def execSqTailDoorbell (fn sq tail : Nat) (s : State) : Res :=
  .next (if running s fn && decide ((polder s (fnPolder fn)).st ≠ .teardown) then
    match sqOf s fn sq with
    | some q =>
      if tail < q.size then
        let s := setSq s fn sq (some { q with tail := tail })
        if canFetch s fn sq then beginExit s else s
      else s
    | none => s
  else s)

/-- Moves held completions into a queue while it has room. -/
def refill (c : Cq) : Nat → Cq
  | 0 => c
  | n + 1 =>
    match c.held with
    | [] => c
    | k :: r => if c.posted.length + 1 < c.size then refill { c with posted := c.posted ++ [k], held := r } n else c

/-- CQ_HEAD_DOORBELL (R36): the host has consumed entries. It counts in TEARDOWN too, so that the entries committed before step 1
are posted (R52); the doorbell writes that step 1 discards are read as those that bring commands (DEDUCED, assumption 42). -/
def execCqHeadDoorbell (fn cq head : Nat) (s : State) : Res :=
  .next (if running s fn then
    match cqOf s fn cq with
    | some c =>
      let n := (head + c.size - c.head) % c.size
      if head < c.size ∧ n ≤ c.posted.length then
        setCq s fn cq (some (refill { c with head := head, posted := c.posted.drop n } c.held.length))
      else s
    | none => s
  else s)

/-! ## I/O queues -/

/-- I/O queues that a controller may hold (R61-R63). -/
def queueLimit (s : State) (fn : Nat) : Nat :=
  match (ctrl s fn).numQ with
  | some n => n.1
  | none => if isVf fn then (ctrl s fn).vq - 1 else 63

/-- Interrupt vectors that a controller holds (R61). -/
def vectorCount (s : State) (fn : Nat) : Nat := if isVf fn then (ctrl s fn).vi else 64

/-- CREATE_IO_SUBMISSION_QUEUE (R61). -/
def execCreateIoSubmissionQueue (fn cid qid size cqid : Nat) (s : State) : Res :=
  .next (adminCmd s fn (fun s =>
    if qid = 0 ∨ queueLimit s fn < qid ∨ (sqOf s fn qid).isSome then complete s fn 0 cid .invalidQueue
    else if cqid = 0 ∨ (cqOf s fn cqid).isNone then complete s fn 0 cid .invalidCq
    else if size < 2 ∨ 4096 < size then complete s fn 0 cid .invalidQueueSize
    else complete (setSq s fn qid (some { size := size, cq := cqid })) fn 0 cid .success))

/-- Ends the outstanding commands of a queue that is deleted; its jobs end without a completion. -/
def endQueue (s : State) (fn qid : Nat) : State :=
  (s.host.cmds.filter (fun c => cmdOn c fn qid)).foldl (fun s c =>
    match c.op with
    | .exec j => dropCmd (endJob s j none) fn qid c.cid
    | _ => post (dropCmd s fn qid c.cid) { fn := fn, sq := qid, cid := c.cid, stat := .abortedSq, dnr := true }) s

/-- DELETE_IO_SUBMISSION_QUEUE (R79): deleting a queue also ends its freeze. -/
def execDeleteIoSubmissionQueue (fn cid qid : Nat) (s : State) : Res :=
  .next (adminCmd s fn (fun s =>
    if qid = 0 ∨ (sqOf s fn qid).isNone then complete s fn 0 cid .invalidQueue
    else complete (settle (setSq (endQueue s fn qid) fn qid none)) fn 0 cid .success))

/-- CREATE_IO_COMPLETION_QUEUE (R61). -/
def execCreateIoCompletionQueue (fn cid qid size vector : Nat) (s : State) : Res :=
  .next (adminCmd s fn (fun s =>
    if qid = 0 ∨ queueLimit s fn < qid ∨ (cqOf s fn qid).isSome then complete s fn 0 cid .invalidQueue
    else if size < 2 ∨ 4096 < size then complete s fn 0 cid .invalidQueueSize
    else if vectorCount s fn ≤ vector then complete s fn 0 cid .invalidVector
    else complete (setCq s fn qid (some { size := size, vector := vector })) fn 0 cid .success))

/-- Does a submission queue of a function post to a completion queue? -/
def cqUsed (s : State) (fn qid : Nat) : Bool :=
  s.host.sqs.any (fun e => e.1 / 65536 == fn && (match e.2 with
    | some q => q.cq == qid
    | none => false))

/-- DELETE_IO_COMPLETION_QUEUE (R61). -/
def execDeleteIoCompletionQueue (fn cid qid : Nat) (s : State) : Res :=
  .next (adminCmd s fn (fun s =>
    if qid = 0 ∨ (cqOf s fn qid).isNone then complete s fn 0 cid .invalidQueue
    else if cqUsed s fn qid then complete s fn 0 cid .queueDeletion
    else complete (setCq s fn qid none) fn 0 cid .success))

/-! ## Abort and event requests -/

/-- Ends an Abort: CDW0 bit 0 says whether the command named was not aborted. -/
def abortEnd (s : State) (fn cid : Nat) (notAborted : Bool) : State :=
  complete s fn 0 cid .success (putB notAborted 0)

/-- Can an Abort commit against a job now: before its ENDING state (R86, R103)? -/
def jobAbortable (s : State) (j : Nat) : Bool :=
  match job s j with
  | some v => v.st != .ending
  | none => false

/-- ABORT (R86, R87): eight may be outstanding. An aborted Execute Program ends as its job settles, and the Abort with it. -/
def execAbort (fn cid sq acid : Nat) (s : State) : Res :=
  .next (adminCmd s fn (fun s =>
    if 8 ≤ (ctrl s fn).aborts.length then complete s fn 0 cid .abortLimit
    else if sq = 0 then
      if (ctrl s fn).aers.contains acid then
        let s := modCtrl s fn (fun c => { c with aers := c.aers.erase acid })
        abortEnd (complete s fn 0 acid .abortedByRequest) fn cid false
      else abortEnd s fn cid true
    else
      match findCmd s fn sq acid with
      | none => abortEnd s fn cid true
      | some c =>
        match c.op with
        | .exec j =>
          if jobAbortable s j then
            let s := modCtrl s fn (fun c => { c with aborts := c.aborts ++ [(cid, sq, acid)] })
            endJob (modJob s j (fun v => { v with aborted := some (fn, cid) })) j (some (.abortedByRequest, 0))
          else abortEnd s fn cid true
        | _ => abortEnd (settle (complete s fn sq acid .abortedByRequest)) fn cid false))

/-- ASYNCHRONOUS_EVENT_REQUEST (R76): eight may be outstanding; a waiting event completes the request at once. -/
def execAsynchronousEventRequest (fn cid : Nat) (s : State) : Res :=
  .next (adminCmd s fn (fun s =>
    let c := ctrl s fn
    if 8 ≤ c.aers.length then complete s fn 0 cid .aerLimit
    else
      match c.events with
      | e :: r => post (modCtrl s fn (fun c => { c with events := r })) { fn := fn, sq := 0, cid := cid, dw0 := aenDw0 e }
      | [] => modCtrl s fn (fun c => { c with aers := c.aers ++ [cid] })))

/-- A notice event of type 2 (standard): information code `info`, log page, enabled by a bit of feature 0x0B (assumption 5). -/
def notice (s : State) (fn info log bit : Nat) : State :=
  if (tget (ctrl s fn).feats 0 0x0B).getLsbD bit then deliver s fn { typ := 2, info := info, log := log } else s

/-! ## Features -/

/-- Module-wide features (R65). -/
def moduleWide (fid : Nat) : Bool := [0x02, 0x0C, 0x0E, 0xC2, 0xC3, 0xC4].contains fid

/-- A Set Features: Save is refused, a module-wide one is the port A PF's (R65, R74). Where both apply the spec does not say which
status wins: Save comes first (DESIGN CHOICE, assumption 65). -/
def setFeature (s : State) (fn cid fid : Nat) (sv : Bool) (body : State → State) : State :=
  adminCmd s fn (fun s =>
    if sv then complete s fn 0 cid .notSaveable
    else if moduleWide fid ∧ fn ≠ 0 then complete s fn 0 cid .notChangeable
    else body s)

/-- Power Management (R88): an operational state takes effect at the next epoch boundary, PS4 and PS5 once the module is
idle. -/
def setPs (s : State) (fn cid ps : Nat) : State :=
  if 5 < ps then complete s fn 0 cid .invalidField
  else complete (modHost s (fun h =>
    if ps ≤ 3 then { h with psNext := some ps, psEntry := none } else { h with psEntry := some ps })) fn 0 cid .success

/-- SET_POWER_MANAGEMENT (R88). -/
def execSetPowerManagement (fn cid : Nat) (sv : Bool) (ps : Nat) (s : State) : Res :=
  .next (setFeature s fn cid 0x02 sv (fun s => setPs s fn cid ps))

/-- The default APST table (R89). -/
def apstDefault : List (Nat × Nat) := [(4, 100), (4, 100), (4, 100), (4, 100), (5, 2000)]

/-- APST (R89): an entry may name a non-operational state only. A table of all-zero entries counts as the empty table (DESIGN CHOICE,
assumption 65). -/
def setApst (s : State) (fn cid : Nat) (enable : Bool) (table : List (Nat × Nat)) : State :=
  if table.any (fun e => decide (e ≠ (0, 0)) && (decide (e.1 < 4) || decide (5 < e.1))) then complete s fn 0 cid .invalidField
  else complete (modHost s (fun h => { h with
    apstEn := enable, apst := if table.all (fun e => e == (0, 0)) then (if enable then apstDefault else h.apst) else table })) fn 0 cid .success

/-- SET_APST (R89). -/
def execSetApst (fn cid : Nat) (sv enable : Bool) (table : List (Nat × Nat)) (s : State) : Res :=
  .next (setFeature s fn cid 0x0C sv (fun s => setApst s fn cid enable table))

/-- Timestamp (R378, R379): the calendar takes the value, Synch clears. -/
def setTime (s : State) (fn cid ms : Nat) : State :=
  let s := { s with time := { s.time with cal := ms % 2 ^ 64, st := 1, synch := false } }
  complete (modNv s (fun v => { v with calSet := true })) fn 0 cid .success

/-- SET_TIMESTAMP (R378). -/
def execSetTimestamp (fn cid : Nat) (sv : Bool) (ms : Nat) (s : State) : Res :=
  .next (setFeature s fn cid 0x0E sv (fun s => setTime s fn cid ms))

/-- The count that Number of Queues reports, of I/O queues (R63). -/
def queueDw0 (n : Nat) : W32 := put (n - 1) 15 0 ||| put (n - 1) 31 16

/-- Number of Queues (R63): the counts assigned now stay fixed until the next controller reset. -/
def setQueues (s : State) (fn cid nsq ncq : Nat) : State :=
  if nsq = 65535 ∨ ncq = 65535 then complete s fn 0 cid .invalidField
  else
    let n := queueLimit s fn
    complete (modCtrl s fn (fun c => { c with numQ := some (n, n) })) fn 0 cid .success (queueDw0 n)

/-- SET_NUMBER_OF_QUEUES (R63). -/
def execSetNumberOfQueues (fn cid nsq ncq : Nat) (sv : Bool) (s : State) : Res :=
  .next (setFeature s fn cid 0x07 sv (fun s => setQueues s fn cid nsq ncq))

/-- SET_FREEZE_ON_ERROR (R77). -/
def execSetFreezeOnError (fn cid : Nat) (sv freeze : Bool) (s : State) : Res :=
  .next (setFeature s fn cid 0xC0 sv (fun s =>
    complete (modCtrl s fn (fun c => { c with freeze := freeze })) fn 0 cid .success))

/-- Queue thaw (R79): CDW0 bit 0 says whether the queue was frozen. -/
def thaw (s : State) (fn cid sq : Nat) : State :=
  match sqOf s fn sq with
  | none => complete s fn 0 cid .invalidQueue
  | some q => complete (setSq s fn sq (some { q with frozen := none })) fn 0 cid .success (putB q.frozen.isSome 0)

/-- QUEUE_THAW (R79). -/
def execQueueThaw (fn cid sq : Nat) (sv : Bool) (s : State) : Res :=
  .next (setFeature s fn cid 0xC1 sv (fun s => thaw s fn cid sq))

/-- SET_POWER_ENVELOPE (R74). -/
def execSetPowerEnvelope (fn cid : Nat) (sv : Bool) (ceiling : BitVec 2) (s : State) : Res :=
  .next (setFeature s fn cid 0xC2 sv (fun s =>
    complete (modHost s (fun h => { h with ceiling := ceiling })) fn 0 cid .success))

/-- Polder energy share (R75, R364): from the next boundary; polder 0's weight is at least 1. -/
def setShare (s : State) (fn cid p w cap : Nat) : State :=
  let p := p % 64
  if (polder s p).st = .teardown then complete s fn 0 cid .tornDown (BitVec.ofNat 32 p)
  else
    let w := if p = 0 ∧ w % 256 = 0 then 1 else w % 256
    complete (modAcct s p (fun a => { a with weightNext := some (BitVec.ofNat 8 w, BitVec.ofNat 32 cap) })) fn 0 cid .success

/-- SET_POLDER_ENERGY_SHARE (R75). -/
def execSetPolderEnergyShare (fn cid : Nat) (sv : Bool) (polder weight cap : Nat) (s : State) : Res :=
  .next (setFeature s fn cid 0xC3 sv (fun s => setShare s fn cid polder weight cap))

/-- Read-around policy (R74): a threshold outside 100 to 2,400 µs is refused. -/
def setAround (s : State) (fn cid : Nat) (enable : Bool) (threshold : Nat) : State :=
  if threshold < 100 ∨ 2400 < threshold then complete s fn 0 cid .invalidField
  else complete (modHost s (fun h => { h with raEn := enable, raThreshold := threshold })) fn 0 cid .success

/-- SET_READ_AROUND_POLICY (R74). -/
def execSetReadAroundPolicy (fn cid : Nat) (sv enable : Bool) (threshold : Nat) (s : State) : Res :=
  .next (setFeature s fn cid 0xC4 sv (fun s => setAround s fn cid enable threshold))

/-- Features kept per controller: their identifiers. -/
def plainFeatures : List Nat := [0x01, 0x04, 0x05, 0x08, 0x09, 0x0A, 0x0B, 0x1D]

/-- Where a controller keeps a feature: Temperature Threshold by sensor and type, vector configuration by vector. -/
def featKey (fid : Nat) (cdw11 : W32) : Nat :=
  if fid = 0x04 then fid + 256 * fld cdw11 21 16
  else if fid = 0x09 then fid + 256 * fld cdw11 15 0
  else fid

/-- SET_FEATURES (R65): the features without a row of their own, kept per controller; the others as their own rows, with the
values that CDW11 and CDW12 give. -/
def execSetFeatures (fn cid fid : Nat) (sv : Bool) (cdw11 cdw12 : W32) (s : State) : Res :=
  .next (setFeature s fn cid fid sv (fun s =>
    if plainFeatures.contains fid then
      complete (modCtrl s fn (fun c => { c with feats := tset c.feats 0 (featKey fid cdw11) cdw11 })) fn 0 cid .success
    else if fid = 0x02 then setPs s fn cid (fld cdw11 4 0)
    else if fid = 0x07 then setQueues s fn cid (fld cdw11 15 0) (fld cdw11 31 16)
    else if fid = 0x0C then setApst s fn cid (bitOf cdw11 0) []
    else if fid = 0x0E then setTime s fn cid (cdw11.toNat + 2 ^ 32 * cdw12.toNat)
    else if fid = 0xC0 then complete (modCtrl s fn (fun c => { c with freeze := bitOf cdw11 0 })) fn 0 cid .success
    else if fid = 0xC1 then thaw s fn cid (fld cdw11 15 0)
    else if fid = 0xC2 then complete (modHost s (fun h => { h with ceiling := BitVec.ofNat 2 (fld cdw11 1 0) })) fn 0 cid .success
    else if fid = 0xC3 then setShare s fn cid (fld cdw11 5 0) (fld cdw11 15 8) cdw12.toNat
    else if fid = 0xC4 then setAround s fn cid (bitOf cdw11 0) (fld cdw11 27 16)
    else complete s fn 0 cid .invalidField))

/-- Frozen queues of a function. -/
def frozenCount (s : State) (fn : Nat) : Nat :=
  (s.host.sqs.filter (fun e => e.1 / 65536 == fn && (match e.2 with
    | some q => q.frozen.isSome
    | none => false))).length

/-- The value of a feature: CDW0 and CDW1 (R65, R74); none where it is not supported. -/
def featVal (s : State) (fn fid : Nat) (cdw11 : W32) : Option (W32 × W32) :=
  let h := s.host
  if plainFeatures.contains fid then some (tget (ctrl s fn).feats 0 (featKey fid cdw11), 0)
  else if fid = 0x02 then some (BitVec.ofNat 32 ((h.psEntry.or h.psNext).getD h.ps), 0)
  else if fid = 0x07 then some (queueDw0 (queueLimit s fn), 0)
  else if fid = 0x0C then some (putB h.apstEn 0, 0)
  else if fid = 0x0E then some (0, 0)
  else if fid = 0xC0 then some (putB (ctrl s fn).freeze 0, 0)
  else if fid = 0xC1 then some (BitVec.ofNat 32 (frozenCount s fn), 0)
  else if fid = 0xC2 then some (put h.ceiling.toNat 1 0 ||| put s.nrg.envelope.toNat 5 4, 0)
  else if fid = 0xC3 then
    let a := acct s (if isVf fn then fnPolder fn else fld cdw11 5 0)
    some (put a.weight.toNat 15 8, a.cap)
  else if fid = 0xC4 then some (putB h.raEn 0 ||| put h.raThreshold 27 16, 0)
  else none

/-- The data of a Get Features: the APST table of 32 eight-byte entries, the 8-byte Timestamp (assumption 5). -/
def featData (s : State) (fid : Nat) : Bytes :=
  if fid = 0x0C then
    padTo 256 (s.host.apst.flatMap (fun e => leBytes 8 (if e = (0, 0) then 0 else e.1 * 8 + e.2 * 256)))
  else if fid = 0x0E then
    leBytes 6 s.time.cal ++ [BitVec.ofNat 8 (b2n s.time.synch + (if s.time.st = 0 then 0 else 2)), 0]
  else []

/-- GET_FEATURES (R65). Select 1 on a vendor feature is not saveable (R74); the spec is silent on Select 2 and 3, and on Select 1 for
another feature: Invalid Field in Command (DESIGN CHOICE, assumption 65). -/
def execGetFeatures (fn cid fid sel : Nat) (cdw11 : W32) (s : State) : Res :=
  .next (adminCmd s fn (fun s =>
    match featVal s fn fid cdw11 with
    | none => complete s fn 0 cid .invalidField
    | some (d0, d1) =>
      if sel = 1 ∧ 0xC0 ≤ fid then complete s fn 0 cid .notSaveable
      else if sel ≠ 0 then complete s fn 0 cid .invalidField
      else complete s fn 0 cid .success d0 d1 (featData s fid)))

end Sys2Proof.Machine
end

