-- ==== Sys2Proof/Machine/HostLogs.lean ====
section
/-! DEFINITION. Log pages (R66, R69-R73, R76, R382) and Identify (R3, the Identify table). Vendor pages are built as the spec
lays them out; pages and structures of the NVM Express standards are free bytes with the values that the spec gives put at
the standard's offsets (assumption 5). -/

namespace Sys2Proof.Machine

open Sys2Proof

/-- Bytes put over a string at an offset. -/
def patch (b : Bytes) (o : Nat) (p : Bytes) : Bytes := padTo o b ++ p ++ b.drop (o + p.length)

/-- The patches in turn. -/
def patches (b : Bytes) (ps : List (Nat × Bytes)) : Bytes := ps.foldl (fun b p => patch b p.1 p.2) b

/-- Little-endian two's complement of a signed value. -/
def leInt (n : Nat) (i : Int) : Bytes := leBytes n (i % (2 ^ (8 * n) : Int)).toNat

/-- The 8-byte header of a vendor page. -/
def vendorHead (count len : Nat) : Bytes := leBytes 2 1 ++ leBytes 2 count ++ leBytes 4 len

/-! ## 0xC0 -/

/-- Entry of a polder in 0xC0. -/
def c0Entry (s : State) (p : Nat) : Bytes :=
  let a := acct s p
  leBytes 1 p ++ leBytes 1 (b2n a.snapDef) ++ leBytes 2 0 ++ leBytes 4 a.snapRefill ++ leInt 8 a.snapBal ++ leBytes 8 a.snapEst
    ++ leInt 8 a.snapRec ++ leBytes 4 a.snapDeferrals.toNat ++ leBytes 4 0 ++ leBytes 8 a.snapLife ++ List.replicate 16 0

/-- Log page 0xC0 as a function sees it (R69). -/
def logC0 (s : State) (fn : Nat) : Bytes :=
  let n := s.nrg
  let head := if isVf fn then List.replicate 33 0
    else leBytes 8 (n.epoch - 1) ++ leBytes 8 n.lastMeas ++ leBytes 8 n.lastA ++ leInt 8 n.lastRes ++ leBytes 1 n.lastEnv.toNat
  vendorHead 64 4160 ++ head ++ List.replicate 23 0 ++
    (List.range 64).flatMap (fun p => if isVf fn ∧ p ≠ fnPolder fn then List.replicate 64 0 else c0Entry s p)

/-! ## 0xC1, 0xC2, 0xC3, 0xC4, 0xC5 -/

/-- An entry of 0xC1. -/
def c1Entry (e : FEnt) : Bytes :=
  leBytes 4 e.seq ++ leBytes 8 e.t ++ leBytes 1 e.kind ++ leBytes 1 e.cls ++ leBytes 2 e.inst ++ leBytes 1 e.blk
    ++ leBytes 1 e.binst ++ leBytes 2 e.cause ++ leBytes 4 e.count ++ leBytes 2 e.extra ++ List.replicate 6 0

/-- Log page 0xC1, newest first (R70). -/
def logC1 (s : State) : Bytes :=
  padTo 8168 (vendorHead s.nv.faults.length 8168 ++ s.nv.faults.flatMap c1Entry)

/-- A leak record in 0xC2. -/
def leakEntry (l : Leak) : Bytes := leBytes 1 l.owner ++ leBytes 1 l.pool ++ leBytes 2 0 ++ leBytes 4 l.out ++ leBytes 8 l.age

/-- Log page 0xC2 (R71). -/
def logC2 (s : State) (fn : Nat) : Bytes :=
  let ls := if isVf fn then s.bpm.leaks.filter (fun l => l.owner == fnPolder fn) else s.bpm.leaks
  vendorHead ls.length (40 + 16 * ls.length) ++
    (if isVf fn then List.replicate 32 0
     else [0, 1, 2, 3].flatMap (fun p => leBytes 4 (poolCount p) ++ leBytes 4 (poolFree s p))) ++ ls.flatMap leakEntry

/-- Minimum, mean and maximum of a count over the 43,680 superblocks. -/
def eraseStats (s : State) (f : Sb → Nat) : Bytes :=
  let ns := s.ftla.sbs.map (fun e => f e.2)
  let lo := if ns.length < 43680 then 0 else ns.foldl min (ns.headD 0)
  leBytes 4 lo ++ leBytes 4 (ns.sum / 43680) ++ leBytes 4 (ns.foldl max 0)

/-- Log page 0xC3. -/
def logC3 (s : State) : Bytes :=
  let h := padTo 256 (s.nv.history.flatMap (fun e => leBytes 4 e.1 ++ leBytes 4 e.2.1 ++ leBytes 4 e.2.2.1 ++ leBytes 4 e.2.2.2))
  vendorHead s.nv.history.length 352 ++ leBytes 8 s.time.cal ++ leBytes 1 s.time.st.toNat ++ List.replicate 7 0
    ++ leBytes 8 s.nv.posSeconds ++ leBytes 8 s.nv.energyUj ++ leBytes 8 s.nv.cycles ++ leBytes 8 s.nv.losses
    ++ eraseStats s (fun b => b.qlc) ++ eraseStats s (fun b => b.pslc)
    ++ leBytes 4 s.nrg.capUf.toNat ++ leBytes 4 s.nrg.esr.toNat ++ leBytes 4 s.nrg.eMj.toNat ++ leBytes 4 s.nrg.limit ++ h

/-- Code of a polder state. -/
def polCode : PolSt → Nat
  | .empty => 0
  | .provisioning => 1
  | .active => 2
  | .quiescing => 3
  | .teardown => 4

/-- POL_STATE of a polder. -/
def polStateReg (v : Polder) : W32 := put v.gen.toNat 15 8 ||| putB v.drained 4 ||| put (polCode v.st) 2 0

/-- Namespaces attached to a polder's controllers. -/
def attachedCount (s : State) (p : Nat) : Nat :=
  (s.ftla.nss.filter (fun e => match e.2 with
    | some v => match v.ctrl with
      | some c => fnPolder c == p
      | none => false
    | none => false)).length

/-- Entry of a polder in 0xC4. -/
def c4Entry (s : State) (p : Nat) : Bytes :=
  let v := polder s p
  leBytes 1 p ++ leBytes 1 (fld (polStateReg v) 7 0) ++ leBytes 1 v.gen.toNat ++ leBytes 1 v.progress.toNat
    ++ leBytes 4 v.breaches.toNat ++ leBytes 2 (attachedCount s p) ++ leBytes 1 (b2n v.tdDone) ++ leBytes 1 0
    ++ leBytes 8 v.tdTime ++ leBytes 4 (if p = 0 then s.pol.fifo.length else 0) ++ List.replicate 8 0

/-- Log page 0xC4 (R72). -/
def logC4 (s : State) (fn : Nat) : Bytes :=
  vendorHead 64 2056 ++
    (List.range 64).flatMap (fun p => if isVf fn ∧ p ≠ fnPolder fn then List.replicate 32 0 else c4Entry s p)

/-- Length of a calibration set; a set without a valid header is exported to its last byte (R382). -/
def calLen (b : Bytes) : Nat := if leAt b 8 4 ≤ 65536 ∧ 68 ≤ leAt b 8 4 then leAt b 8 4 else 0

/-- Log page 0xC5 over a snapshot of the area: bytes beyond the set's length read as zero (R382). -/
def logC5 (snap : Bytes) : Bytes :=
  let n := calLen snap
  vendorHead 0 (8 + n) ++ padTo 65536 (snap.take n)

/-! ## Standard pages -/

/-- Composite temperature in kelvin (R370). -/
def compositeK (s : State) : Nat := ((s.nrg.temps.foldl max (s.nrg.temps.headD 0)) / 10 + 273).toNat

/-- An Error Information entry of 64 bytes: queue, command identifier and status at the standard's offsets (assumption 5). -/
def errEntry (base : Bytes) (e : Nat × Nat × NStat) : Bytes :=
  patches (padTo 64 base) [(8, leBytes 2 e.1), (10, leBytes 2 e.2.1), (12, leBytes 2 (2 * statField e.2.2))]

/-- Error Information (R66): the controller's own entries, newest first, in 256 places; a place without an entry is zero. -/
def errorLog (s : State) (fn : Nat) (free : Bytes) : Bytes :=
  let es := (ctrl s fn).errLog
  padTo 16384 ((List.range es.length).flatMap (fun i => errEntry (span free (64 * i) 64) (es.getD i (0, 0, .success))))

/-- Is a log page one of the Computational Programs set: Program List, Downloadable Program Types List, Memory Range Set List
(R66; the numbers are PRESUMED, assumption 5)? -/
def cpLog (lid : Nat) : Bool := [0x82, 0x83, 0x84].contains lid

/-- Is a core a service core? -/
def isService (s : State) (c : Nat) : Bool := s.rst.service.contains c

/-- The tenant cores of compute engine 0 of a polder (R93): POL_CORES; for polder 0 those of no other polder. -/
def engineCores (s : State) (p : Nat) : List Nat :=
  (List.range 32).filter (fun c => !isService s c && !(core s c).absent && !(core s c).out &&
    (if p = 0 then ownerBy s (fun v => ownsCore v c) == 0 else ownsCore (polder s p) c))

/-- What a controller reports of its two compute engines (R93, R94): engine, cores, program indexes, loadable. -/
def engineReport (s : State) (p : Nat) : List (List Nat) := [[0, (engineCores s p).length, 16, 1], [1, 0, 4, 0]]

/-- What a polder's programs and range sets are: engine, index, loaded, active; set, ranges. -/
def programReport (s : State) (p : Nat) : List (List Nat) :=
  ((List.range 16).map (fun i => let v := tget s.progs {} (progKey p i); [0, i, b2n v.image.isSome, b2n v.active])) ++
  ((List.range 4).map (fun i => [1, i, 1, 1]))

/-- The memory range sets of a polder: identifier, then the ranges. -/
def rangeReport (s : State) (p : Nat) : List (List Nat) :=
  (s.rsets.filter (fun e => e.1 / 65536 == p)).filterMap (fun e =>
    e.2.map (fun v => e.1 % 65536 :: v.ranges.flatMap (fun r => [r.1, r.2])))

/-- A Computational Programs log page of a function's polder, in the layout of that specification (assumption 5). -/
def cpPage (s : State) (fn lid : Nat) : Bytes :=
  let p := fnPolder fn
  Config.cpLayout lid (if lid = 0x82 then engineReport s p ++ programReport s p
    else if lid = 0x83 then engineReport s p else rangeReport s p)

/-- A standard log page: free bytes with what the spec states put in. -/
def stdLog (s : State) (fn lid : Nat) : Bytes × State :=
  let (n, s) := takeFree s
  let b := Config.stdBytes (0x200 + lid) n
  let b := if lid = 1 then errorLog s fn b
    else if lid = 2 then patches (padTo 512 b) [(0, [s.host.smart]), (1, leBytes 2 (compositeK s))]
    else if lid = 3 then patches (padTo 512 b) [(0, leBytes 1 (b2n s.rst.slot + 1))]
    else if lid = 6 then (if s.host.selfTest = 0 then b else patches (padTo 564 b) [(4, leBytes 1 (16 * s.host.selfTest))])
    else if lid = 4 then padTo 4096 ((ctrl s fn).changedNs.flatMap (fun i => leBytes 4 i))
    else b
  (b, s)

/-! ## Get Log Page -/

/-- May a function read a page (R66, R73)? -/
def logAllowed (fn lid : Nat) : Bool :=
  if [0x06, 0x07, 0x0D, 0x81].contains lid then !isVf fn
  else if lid = 0xC5 then fn == 0
  else [0x00, 0x01, 0x02, 0x03, 0x04, 0x05, 0x20, 0x21, 0x22, 0x23, 0xC0, 0xC1, 0xC2, 0xC3, 0xC4].contains lid || cpLog lid

/-- The content of a page as a function sees it; 0xC5 takes its snapshot (R382). -/
def logPage (s : State) (fn lid off : Nat) : Bytes × State :=
  if lid = 0xC0 then (logC0 s fn, s)
  else if lid = 0xC1 then (logC1 s, s)
  else if lid = 0xC2 then (logC2 s fn, s)
  else if lid = 0xC3 then (logC3 s, s)
  else if lid = 0xC4 then (logC4 s fn, s)
  else if lid = 0xC5 then
    match s.host.calSnap with
    | some b => if off = 0 then (logC5 s.nv.cal, modHost s (fun h => { h with calSnap := some s.nv.cal })) else (logC5 b, s)
    | none => (logC5 s.nv.cal, modHost s (fun h => { h with calSnap := some s.nv.cal }))
  else if cpLog lid then (cpPage s fn lid, s)
  else stdLog s fn lid

/-- The FIFO is armed again once it is empty and no event 0x00 is outstanding (R44). -/
def rearm (s : State) : State :=
  if s.pol.fifo.isEmpty ∧ s.host.evOut.getLsbD 0 = false then { s with pol := { s.pol with armed := true } } else s

/-- What a read with RAE = 0 acknowledges: the vendor events of the page for the port A PF (R72, R76), the changed namespace
list of its own controller (assumption 5). -/
def acknowledge (s : State) (fn lid : Nat) : State :=
  let s := if lid = 4 then modCtrl s fn (fun c => { c with changedNs := [] }) else s
  if fn ≠ 0 then s
  else if lid = 0xC4 then
    let s := modHost s (fun h => { h with evOut := h.evOut &&& 0xC })
    rearm { s with pol := { s.pol with tab := s.pol.tab.map (fun e => (e.1, { e.2 with tdDone := false })) |>.filter (fun e => decide (e.2 ≠ {})) } }
  else if lid = 0xC1 then modHost s (fun h => { h with evOut := h.evOut &&& 0xB })
  else if lid = 0xC2 then modHost s (fun h => { h with evOut := h.evOut &&& 0x7 })
  else s

/-- Get Log Page: `len` bytes from `off`, zeros past the end. -/
def getLog (s : State) (fn cid lid off len : Nat) (rae : Bool) : State :=
  if !logAllowed fn lid then complete s fn 0 cid .invalidLogPage
  else if off % 4 ≠ 0 then complete s fn 0 cid .invalidField
  else
    let (b, s) := logPage s fn lid off
    complete (if rae then s else acknowledge s fn lid) fn 0 cid .success 0 0 (span b off len)

/-- GET_LOG_PAGE (R66). -/
def execGetLogPage (fn cid lid off len : Nat) (rae : Bool) (s : State) : Res :=
  .next (adminCmd s fn (fun s => getLog s fn cid lid off len rae))

/-- GET_LOG_POLDER_STATUS (R72). -/
def execGetLogPolderStatus (fn cid off len : Nat) (rae : Bool) (s : State) : Res :=
  .next (adminCmd s fn (fun s => getLog s fn cid 0xC4 off len rae))

/-- GET_LOG_CALIBRATION_EXPORT (R382). -/
def execGetLogCalibrationExport (fn cid off len : Nat) (s : State) : Res :=
  .next (adminCmd s fn (fun s => getLog s fn cid 0xC5 off len true))

/-! ## Identify -/

/-- The ordering code, 16 ASCII characters padded with spaces (R1, R3). -/
def orderingCode (s : State) : String :=
  match s.fuse.code with
  | 0 => "GLM-256-E3L-V"
  | 1 => "GLM-256-E3L-O"
  | _ => "GLM-256-E3L-OD"

/-- ASCII padded with spaces. -/
def asciiPad (t : String) (n : Nat) : Bytes := (ascii t ++ List.replicate n 0x20).take n

/-- A power state descriptor of the table: maximum power, kind, latencies (R88). -/
def psDesc (n : Nat) : Bytes :=
  let w := [70, 55, 40, 25, 8, 4].getD n 0
  patches (List.replicate 32 0) [(0, leBytes 2 (w * 100)), (3, leBytes 1 (if 4 ≤ n then 2 else 0)),
    (4, leBytes 4 ([0, 0, 0, 0, 2000, 20000].getD n 0)), (8, leBytes 4 ([0, 0, 0, 0, 8000, 60000].getD n 0))]

/-- Identify Controller: the fields of the spec's table at the offsets of NVM Express Base 2.1. -/
def identCtrl (s : State) (fn : Nat) : Bytes × State :=
  let (n, s) := takeFree s
  (patches (padTo 4096 (Config.stdBytes 0x101 n))
    ([(0, leBytes 2 0x1F3C), (2, leBytes 2 0x1F3C), (4, padTo 20 s.fuse.serial), (24, asciiPad (orderingCode s) 40),
      (72, [6]), (76, [BitVec.ofNat 8 (6 + b2n (dual s))]), (77, [9]), (78, leBytes 2 fn), (80, leBytes 4 0x20100),
      (84, leBytes 4 8000000), (88, leBytes 4 1000000), (92, leBytes 4 0x700), (258, [7]), (259, [7]), (260, [0x14]),
      (262, [255]), (263, [5]), (265, [1]), (266, leBytes 2 351), (268, leBytes 2 358), (270, leBytes 2 2),
      (280, leBytes 16 230000000000000), (512, [0x66]), (513, [0x44]), (516, leBytes 4 1024), (520, leBytes 2 0x1CF),
      (522, leBytes 2 0), (525, [0]), (526, leBytes 2 0), (528, leBytes 2 0), (536, leBytes 4 0x10002)]
     ++ (List.range 6).map (fun i => (2048 + 32 * i, psDesc i))), s)

/-- Identify Namespace: size, capacity, formats (R67). -/
def identNs (s : State) (v : Ns) : Bytes × State :=
  let (n, s) := takeFree s
  (patches (padTo 4096 (Config.stdBytes 0x100 n))
    [(0, leBytes 8 v.blocks), (8, leBytes 8 v.blocks), (25, [2]), (26, leBytes 1 (v.lbaf + 16 * b2n v.ext)), (27, [3]), (28, [0x17]),
     (29, leBytes 1 v.pi), (128, leBytes 4 0xC0000),
     (132, leBytes 4 0xC0040), (136, leBytes 4 0xC0040)], s)

/-- Active namespaces of a controller above an NSID, ascending. -/
def activeList (s : State) (fn nsid : Nat) : List Nat :=
  (s.ftla.nss.filter (fun e => decide (nsid < e.1) && (attached s fn e.1).isSome)).map Prod.fst

/-- What Identify answers a function: controller, namespace, active list, and for CNS 6 the Computational Programs identify data (R93,
R94; PRESUMED number and layout, assumption 5); the other structures are the standards' (assumption 5). -/
def identData (s : State) (fn cns nsid : Nat) : NStat × Bytes × State :=
  if cns = 1 then
    let (b, s) := identCtrl s fn
    (.success, b, s)
  else if cns = 0 then
    match attached s fn nsid with
    | some v =>
      let (b, s) := identNs s v
      (.success, b, s)
    | none =>
      if nsid = 0 ∨ (1024 < nsid ∧ nsid ≠ 0xFFFFFFFF) then (.invalidNs, [], s)
      else if nsid = 0xFFFFFFFF then
        let (b, s) := identNs s { blocks := 0 }
        (.success, b, s)
      else (.success, List.replicate 4096 0, s)
  else if cns = 6 then (.success, padTo 4096 (Config.cpLayout 6 (engineReport s (fnPolder fn))), s)
  else if cns = 2 then (.success, padTo 4096 ((activeList s fn nsid).flatMap (fun i => leBytes 4 i)), s)
  else
    let (n, s) := takeFree s
    (.success, padTo 4096 (Config.stdBytes (0x100 + cns) n), s)

/-- IDENTIFY (R3). -/
def execIdentify (fn cid cns nsid : Nat) (s : State) : Res :=
  .next (adminCmd s fn (fun s =>
    let (st, b, s) := identData s fn cns nsid
    complete s fn 0 cid st 0 0 b))

end Sys2Proof.Machine
end

