-- ==== Sys2Proof/Machine/Kloed.lean ====
section
/-! DEFINITION. Kloed images and firmware images: the format check (R96 order 1, R163, R401), the signature (R95), and the
decode table and microwords of a type 5 section. -/

namespace Sys2Proof.Machine

open Sys2Proof

/-! ## Packed words -/

/-- Words of a packed section, `n` of them. -/
def unpack (b : Bytes) (n : Nat) : List W36 := (List.range n).map (packedWord b)

/-- Words of a section of an image. -/
def sectWords (im : Bytes) (e : Sect) : List W36 := unpack (span im e.off e.len) e.words

/-- Bits hi:lo of a 36-bit word, as a number. -/
def wbits (w : W36) (hi lo : Nat) : Nat := (w.toNat / 2 ^ lo) % 2 ^ (hi - lo + 1)

/-! ## The decode table and microwords (R163) -/

/-- Long opcodes of format R. -/
def opIsR (op : Nat) : Bool := [0, 0o10, 0o12, 0o13, 0o14, 0o22, 0o23, 0o50].contains op

/-- Long opcodes that write no rd. -/
def opNoRd (op : Nat) : Bool := [0o13, 0o21, 0o50].contains op

/-- Is a microword acceptable? -/
def microOk (w : W36) : Bool :=
  let op := wbits w 32 26
  let d := wbits w 25 22
  match wbits w 35 34 with
  | 0 =>
    (decide (op ≤ 0o23) || (op == 0o50 && (wbits w 12 0 == 1 || wbits w 12 0 == 4))) &&
    decide (wbits w 21 18 ≤ 8) && decide (d ≤ 8) && (d != 8 || opNoRd op) &&
    (!opIsR op || (decide (wbits w 17 14 ≤ 8) && wbits w 13 13 == 0))
  | 1 => decide (wbits w 32 29 ≤ 7)
  | 2 => decide (wbits w 31 28 ≤ 8) && wbits w 27 22 == 0 && wbits w 21 18 == 0 && wbits w 17 12 == 0
  | _ => false

/-- Is a decode entry acceptable with `n` microwords supplied? -/
def entryOk (n : Nat) (w : W36) : Bool :=
  if w.getLsbD 35 then
    wbits w 34 33 == 0 && wbits w 11 0 == 0 && decide (1 ≤ wbits w 20 12) && decide (wbits w 20 12 ≤ 256) &&
      decide (wbits w 32 21 + wbits w 20 12 ≤ n) && decide (wbits w 32 21 + wbits w 20 12 ≤ 4096)
  else w == 0

/-- Are the contents of a type 5 section acceptable (R163)? -/
def ucodeOk (ws : List W36) : Bool :=
  decide (65 ≤ ws.length) && decide (ws.length ≤ 4160) && (ws.take 64).all (entryOk (ws.length - 64)) &&
    (ws.drop 64).all microOk

/-! ## The format check -/

/-- Are the bytes of a span zero? -/
def zeroSpan (b : Bytes) (o n : Nat) : Bool := ((b.drop o).take n).all (fun x => x == 0)

/-- No two spans of a list meet. -/
def disjoint : List (Nat × Nat) → Bool
  | [] => true
  | a :: r => r.all (fun b => !spansMeet a b) && disjoint r

/-- Word after the last that a data section may use: 0o375700. -/
def dataEnd : Nat := 0o375700

/-- Is one section table entry acceptable, in an image whose contents lie between `lo` and `hi`? -/
def sectOk (im : Bytes) (fw : Bool) (ver lo hi : Nat) (e : Sect) : Bool :=
  decide (1 ≤ e.typ) && decide (e.typ ≤ 5) && decide (e.attr ≤ 1) && (e.attr == 0 || e.typ == 1) && e.rsvd == 0 && e.rsvd2 == 0 &&
  decide (e.load < 2 ^ 36) &&
  (if e.typ = 4 then e.off == 0 && e.len == 0 else e.len == 9 * ((e.words + 1) / 2)) &&
  (e.len == 0 || (decide (lo ≤ e.off) && decide (e.off + e.len ≤ hi))) &&
  (if e.typ = 3 ∨ e.typ = 4 then decide (e.load + e.words ≤ dataEnd) else true) &&
  (if e.typ = 5 then !fw && ver == 2 && e.load == 0 && ucodeOk (sectWords im e) else true)

/-- The spans of the sections of the types that a test picks. -/
def sectSpans (ss : List Sect) (pick : Nat → Bool) : List (Nat × Nat) :=
  (ss.filter (fun e => pick e.typ)).map (fun e => (e.load, e.words))

/-- Entry point: an image-relative word offset. -/
def imEntry (im : Bytes) : Nat := leAt im 16 8
/-- Version of an image. -/
def imVersion (im : Bytes) : Nat := leAt im 4 2
/-- Signed bytes of an image (R95). -/
def imSigned (im : Bytes) : Bytes := im.take (im.length - 112)

/-- Header fields of a Kloed image, or of a firmware image (R401). -/
def headOk (im : Bytes) (fw : Bool) : Bool :=
  let limit := if fw then 33554432 else 67108864
  (im.take 4 == if fw then ascii "KLFW" else ascii "KLOE") && (imVersion im == 1 || imVersion im == 2) &&
  decide (1 ≤ leAt im 6 2) && decide (leAt im 6 2 ≤ 16) && leAt im 8 4 == im.length && decide (im.length ≤ limit) &&
  decide (leAt im 12 4 ≤ 1) && decide (imEntry im < 2 ^ 36) && decide (leAt im 52 4 ≤ 129984) &&
  (if fw then zeroSpan im 40 12 && decide (leAt im 58 2 ≤ 1) && zeroSpan im 60 68
   else decide (1 ≤ leAt im 40 1) && decide (leAt im 40 1 ≤ 32) && zeroSpan im 41 3 && decide (2 ≤ leAt im 44 4) &&
     decide (leAt im 44 4 ≤ 3600000) && zeroSpan im 56 72)

/-- The format check: order 1 of R96, as R401 modifies it for a firmware image. -/
def formatOk (im : Bytes) (fw : Bool) : Bool :=
  let ss := sections im
  let lo := 128 + 32 * ss.length
  let hi := im.length - 112
  decide (128 + 112 ≤ im.length) && headOk im fw && decide (lo ≤ hi) && ss.all (sectOk im fw (imVersion im) lo hi) &&
  disjoint (ss.map (fun e => (e.off, e.len))) && disjoint (sectSpans ss (fun t => t == 1 || t == 2)) &&
  disjoint (sectSpans ss (fun t => t == 3 || t == 4)) &&
  (ss.filter (fun e => e.typ == 5)).length == leAt im 12 4 &&
  ss.any (fun e => e.typ == 1 && decide (e.load ≤ imEntry im) && decide (imEntry im < e.load + e.words)) &&
  ((im.drop hi).take 4 == ascii "KSIG") && leAt im (hi + 4) 2 == 1 && leAt im (hi + 6) 2 == 0

/-- The key identifier of a public key (R95). -/
def keyId (key : Bytes) : Bytes := (Config.sha384 key).take 8

/-- Does the signature block name a key and verify under it (R95)? -/
def signedBy (im key : Bytes) : Bool :=
  let hi := im.length - 112
  (im.drop (hi + 8)).take 8 == keyId key && Config.ecdsaVerify key (imSigned im) ((im.drop (hi + 16)).take 96)

/-- The decode table and control store of an image's type 5 section. -/
def imUcode (im : Bytes) : Option (List W36) :=
  ((sections im).find? (fun e => e.typ == 5)).map (sectWords im)

/-- A table of a list's words from key `a` on. -/
def wordTbl (a : Nat) (ws : List W36) : Tbl W36 :=
  ((List.range ws.length).map (fun i => (a + i, ws.getD i 0))).filter (fun e => e.2 != 0)

end Sys2Proof.Machine
end

