-- ==== Sys2Proof/Machine/Search.lean ====
section
/-! DEFINITION. Range search (R251-R271): matching, rows and banks, lookups and steps, updates, buckets and masks, class 7
descriptors, core search operations, the entry snapshot. -/

namespace Sys2Proof.Machine

open Sys2Proof

/-! ## Entries and partitions -/

/-- Changes the SRCH block. -/
def modSrch (s : State) (f : Srch → Srch) : State := { s with srch := f s.srch }
/-- An entry by absolute index. -/
def sent (s : State) (e : Nat) : SEnt := tget s.srch.ents {} e
/-- Bucket shift of a polder. -/
def shiftOf (s : State) (p : Nat) : Nat := tget s.srch.shift 0 p
/-- Is an absolute index in the partition of a stamp: its own range, or outside every partition under stamp 0 (R252)? -/
def inPart (s : State) (p e : Nat) : Bool := srchOwner s e == p

/-- Does an entry match a key for a stamp (R251)? -/
def matchesKey (s : State) (p key : Nat) (e : Nat × SEnt) : Bool :=
  e.2.valid && e.2.polder == p && inPart s p e.1 && decide (e.2.lo ≤ key) && decide (key ≤ e.2.hi)

/-- The entries that match, in rising index order. -/
def hits (s : State) (p key : Nat) : List (Nat × SEnt) := s.srch.ents.filter (matchesKey s p key)

/-- What a lookup returns (R260). -/
structure Found where
  idx : Nat
  ent : SEnt
  multi : Bool
  count : Nat

/-- A lookup: highest priority, lowest index among equals. -/
def lookupKey (s : State) (p key : Nat) : Option Found :=
  let h := hits s p key
  match h with
  | [] => none
  | _ =>
    let top := (h.map (fun e => e.2.prio)).foldl max 0
    let best := h.filter (fun e => e.2.prio == top)
    match best with
    | e :: _ => some { idx := e.1, ent := e.2, multi := decide (1 < best.length), count := min best.length 255 }
    | [] => none

/-- A STEP: the lowest index above `i` that matches at priority exactly `prio` (R262). -/
def stepKey (s : State) (p key prio i : Nat) : Option (Nat × SEnt) :=
  (hits s p key).find? (fun e => e.2.prio == prio && decide (i < e.1))

/-! ## Rows, masks and counts -/

/-- Rows of a stamp's partition. -/
def partRows (s : State) (p : Nat) : List Nat :=
  if p = 0 then (List.range 1024).filter (fun r => srchOwner s (64 * r) == 0)
  else (List.range (srchCount (polder s p) / 64)).map (fun i => srchFirst (polder s p) / 64 + i)

/-- The bucket set of an entry as a 256-bit mask (R256). -/
def bucketMask (sh lo hi : Nat) : Nat :=
  let a := lo / 2 ^ sh
  let b := hi / 2 ^ sh
  if 255 ≤ b - a then 2 ^ 256 - 1
  else ((List.range (b - a + 1)).map (fun i => (a + i) % 256)).foldl (fun m k => if nbit m k then m else m + 2 ^ k) 0

/-- The OR of two masks. -/
def orMask (a b : Nat) : Nat := Nat.lor a b

/-- The mask of a row from its valid entries. -/
def rowMask (s : State) (row : Nat) : Nat :=
  (s.srch.ents.filter (fun e => e.1 / 64 == row && e.2.valid)).foldl (fun m e =>
    orMask m (bucketMask (shiftOf s e.2.polder) e.2.lo e.2.hi)) 0

/-- Rows that a lookup compares (R257, R259). -/
def rowsCompared (s : State) (p key : Nat) : Nat :=
  let rows := partRows s p
  let k := key / 2 ^ shiftOf s p % 256
  let taken := rows.filter (fun r => nbit (tget s.srch.masks 0 r) k)
  let bank := fun (r : Nat) => r / 64
  if s.srch.nofilter || tget s.srch.busy false p then
    (rows.map bank).dedup.length * 64
  else if taken.length ≤ 16 then taken.length
  else (taken.map bank).dedup.length * 64

/-- Counts a lookup of a stamp and charges it (R270). -/
def countLookup (s : State) (p key : Nat) (chg : State → Nat → State) : State :=
  let n := rowsCompared s p key
  let s := modSrch s (fun c => { c with lkp := tmod c.lkp 0 p (· + 1), rows := tmod c.rows 0 p (· + BitVec.ofNat 32 n) })
  chg (pmonCount s 8 p 1) (lookupFj s n)

/-- Notes that a row's mask is to be recomputed, and the polder whose write or SHIFT made it so, which pays for it (R270); of several the
last (DESIGN CHOICE, assumption 68). -/
def notePending (s : State) (row payer : Nat) : State :=
  modSrch s (fun c => { c with pending := if c.pending.contains row then c.pending else c.pending ++ [row],
                               payer := tset c.payer 0 row payer })

/-- Writes an entry: its polder is the owner of the index; the mask takes the new buckets before the entry becomes valid,
and an overwritten entry's row is recomputed (R253, R258). -/
def putEntry (s : State) (p e : Nat) (v : SEnt) : State :=
  let old := sent s e
  let v := { v with polder := srchOwner s e }
  let row := e / 64
  let s := if old.valid then notePending s row p else s
  modSrch s (fun c => { c with
    ents := tset c.ents {} e v,
    masks := if v.valid then tmod c.masks 0 row (fun m => orMask m (bucketMask (shiftOf s v.polder) v.lo v.hi)) else c.masks })

/-- Invalidates the entries that a test picks, for a polder. -/
def dropEntries (s : State) (p : Nat) (pick : Nat → SEnt → Bool) : State :=
  let rows := ((s.srch.ents.filter (fun e => e.2.valid && pick e.1 e.2)).map (fun e => e.1 / 64)).dedup
  let s := rows.foldl (fun s row => notePending s row p) s
  modSrch s (fun c => { c with ents := tdrop c.ents pick })

/-! ## Class 7 descriptors -/

/-- The absolute index of a stamp's relative index, where `n` entries from it lie in the range (R252, R268). -/
def absEntry (s : State) (p i n : Nat) : Option Nat :=
  if p = 0 then (if i + n ≤ 65536 then some i else none)
  else if i + n ≤ srchCount (polder s p) then some (srchFirst (polder s p) + i) else none

/-- The index that a stamp sees for an absolute one. -/
def relEntry (s : State) (p e : Nat) : Nat := if p = 0 then e else e - srchFirst (polder s p)

/-- A breach of the search-partition dike. -/
def srchBreach (s : State) (r : Nat) (f : Flight) (i : Nat) (write : Bool) : State :=
  stopFlight (ringBreach s r f (srchOwner s (srchFirst (polder s (ringStamp s r)) + i)) 8 i write) r f { status := 7 }

/-- The records of a LOOKUP's input. -/
def records (n : Nat) (bs : Bytes) : Nat → List Bytes
  | 0 => []
  | k + 1 => bs.take n :: records n (bs.drop n) k

/-- The output of one key (R267): mode, record, position, what was found. -/
def lookupOut (s : State) (p mode : Nat) (rec_ : Bytes) (pos : Nat) (f : Option Found) : Bytes :=
  match mode, f with
  | 0, some v => leBytes 8 (v.ent.result.toNat + 2 ^ 36 + (if v.multi then 2 ^ 37 else 0) + v.count * 2 ^ 40 + relEntry s p v.idx * 2 ^ 48)
  | 0, none => leBytes 8 0
  | 1, some _ => rec_
  | 2, some _ => leBytes 8 pos
  | _, _ => []

/-- What a LOOKUP has so far: output not yet cut, matches (in the descriptor's working state). -/
def lookupSoFar (f : Flight) : Bytes × Nat := ((f.work.map Strm.input).getD [], (f.work.map Strm.count).getD 0)

/-- Looks up the records of a LOOKUP's input that have arrived and are not looked up yet, in order; the output fills buffers of the 4 KiB
pool (R267, R462). The output with what is left of it, the matches, the records, the state. -/
def lookupRun (s : State) (r : Nat) (f : Flight) (data : Bytes) (quar : List Nat) (last : Bool) : List OutBuf × Nat × Nat × State :=
  let p := ringStamp s r
  let w6 := fw f 6
  let n := fld w6 31 20 + 1
  let recs := records n (data.drop (f.eaten * n)) (data.length / n - f.eaten)
  let keys := recs.map (fun d => leAt d (fld w6 19 8) (fld w6 7 4))
  let found := keys.map (lookupKey s p)
  let s := keys.foldl (fun s k => countLookup s p k (fun s fj => chargeRing s r fj)) s
  let out := (lookupSoFar f).1 ++ (List.range recs.length).flatMap (fun i =>
    lookupOut s p (fld w6 1 0) (recs.getD i []) (f.eaten + i) (found.getD i none))
  let m := (lookupSoFar f).2 + (found.filter Option.isSome).length
  let all := chunks 4096 out (out.length / 4096 + 1)
  let full := all.filter (fun d => last || d.length == 4096)
  let rest := if last then [] else out.drop (4096 * full.length)
  let s := modFlight s r f.idx (fun d => { d with eaten := f.eaten + recs.length, work := some { input := rest, count := m } })
  (full.map (fun d => { size := 4096, data := d, quar := quar }), m, f.eaten + recs.length, s)

/-- LOOKUP (R267): a chained input is looked up as it arrives; words 6 and 7 count the matches and the records. -/
def execLookup (r idx : Nat) (s : State) : Res :=
  .next (opStep r idx 7 0 s (fun f s =>
    if !inputReady f then
      let s := absorb s r f
      match flightOf s r idx with
      | none => s
      | some f =>
        let (os, _, _, s) := lookupRun s r f f.acc f.accQ false
        moreOut s r idx os
    else
      let a := opInput s r f
      if a.status = 2 then shortInput s r f a
      else if 3 ≤ a.status then badInput s r f a
      else
        let (os, m, n, s) := lookupRun s r f a.data a.quar true
        finishOut s r f a os { produced := f.sent + outLen os, w6 := BitVec.ofNat 32 m, w7 := BitVec.ofNat 32 n }))

/-- The entry that words 8 to 13 of a WRITE spell. -/
def entryOf (f : Flight) : SEnt :=
  { valid := bitOf (fw f 13) 31, lo := w64 (fw f 8) (fw f 9), hi := w64 (fw f 10) (fw f 11),
    result := BitVec.ofNat 36 ((fw f 12).toNat + 2 ^ 32 * fld (fw f 13) 3 0), prio := fld (fw f 13) 15 8 }

/-- WRITE (R264). -/
def execSearchWrite (r idx : Nat) (s : State) : Res :=
  .next (opStep r idx 7 1 s (fun f s =>
    let i := fld (fw f 7) 15 0
    match absEntry s (ringStamp s r) i 1 with
    | none => srchBreach s r f i true
    | some e => endFlight (chargeRing (putEntry s (ringStamp s r) e (entryOf f)) r (entryFj s)) r idx {}))

/-- INVALIDATE (R264). -/
def execInvalidate (r idx : Nat) (s : State) : Res :=
  .next (opStep r idx 7 2 s (fun f s =>
    let i := fld (fw f 7) 15 0
    let n := (fw f 8).toNat
    match absEntry s (ringStamp s r) i n with
    | none => srchBreach s r f i true
    | some e =>
      let s := dropEntries s (ringStamp s r) (fun k _ => decide (e ≤ k) && decide (k < e + n))
      endFlight (chargeRing s r (n * (entryFj s))) r idx {}))

/-- The six words of an entry. -/
def entryWords (v : SEnt) : List W32 :=
  [BitVec.ofNat 32 v.lo, BitVec.ofNat 32 (v.lo / 2 ^ 32), BitVec.ofNat 32 v.hi, BitVec.ofNat 32 (v.hi / 2 ^ 32),
   v.result.setWidth 32,
   putB v.valid 31 ||| put v.polder 29 24 ||| put v.prio 15 8 ||| put (v.result.toNat / 2 ^ 32) 3 0]

/-- READ (R269): the entries, 24 bytes each, in a 512-byte buffer. -/
def execSearchRead (r idx : Nat) (s : State) : Res :=
  .next (opStep r idx 7 3 s (fun f s =>
    let i := fld (fw f 7) 15 0
    let n := (fw f 8).toNat
    match absEntry s (ringStamp s r) i n with
    | none => srchBreach s r f i false
    | some e =>
      let out := (List.range n).flatMap (fun k => (entryWords (sent s (e + k))).flatMap (fun (w : W32) => leBytes 4 w.toNat))
      giveOut s r idx (oneOut 512 [] out) { produced := out.length }))

/-- STEP (R262). -/
def execStep (r idx : Nat) (s : State) : Res :=
  .next (opStep r idx 7 4 s (fun f s =>
    let p := ringStamp s r
    let i := fld (fw f 7) 15 0
    let key := w64 (fw f 8) (fw f 9)
    match absEntry s p i 1 with
    | none => srchBreach s r f i false
    | some e =>
      let v := stepKey s p key (fld (fw f 10) 7 0) e
      let s := countLookup s p key (fun s fj => chargeRing s r fj)
      endFlight s r idx (match v with
        | some (k, t) => { w6 := t.result.setWidth 32,
                           w7 := putB true 31 ||| put (t.result.toNat / 2 ^ 32) 19 16 ||| put (relEntry s p k) 15 0 }
        | none => {})))

/-- SHIFT (R259): takes effect now; the descriptor completes when the partition's masks are recomputed. -/
def execShift (r idx : Nat) (s : State) : Res :=
  .next (opStep r idx 7 5 s (fun f s =>
    let p := ringStamp s r
    if s.srch.shifting.any (fun e => e.1 == some (r, idx)) then s
    else
      let rows := partRows s p
      let s := modSrch s (fun c => { c with shift := tset c.shift 0 p (fld (fw f 7) 5 0) })
      if rows.isEmpty then endFlight s r idx {}
      else
        let s := rows.foldl (fun s row => notePending s row p) s
        modSrch s (fun c => { c with busy := tset c.busy false p true, shifting := c.shifting ++ [(some (r, idx), p, rows)] })))

/-- The SHIFTs with no row left to recompute are done: busy is cleared where none of the polder's is left, and the descriptors complete. -/
def shiftsDone (s : State) : State :=
  let done := s.srch.shifting.filter (fun e => e.2.2.isEmpty)
  let left := s.srch.shifting.filter (fun e => !e.2.2.isEmpty)
  let s := modSrch s (fun c => { c with
    shifting := left,
    busy := done.foldl (fun t e => if left.any (fun x => x.2.1 == e.2.1) then t else tset t false e.2.1 false) c.busy })
  done.foldl (fun s e =>
    match e.1 with
    | none => s
    | some (r, idx) =>
      match flightOf s r idx with
      | some f => if f.res.isNone then endFlight s r idx {} else s
      | none => s) s

/-- MASK_RECOMPUTE_DONE (R258, R259): a row's mask is recomputed from its valid entries; with the last row of a partition a
waiting SHIFT completes. The work is charged at 64 entries to the polder whose write it follows (R270). -/
def execMaskRecomputeDone (row : Nat) (s : State) : Res :=
  .next (if !s.srch.pending.contains row then s
  else
    let m := rowMask s row
    let payer := tget s.srch.payer 0 row
    let s := modSrch s (fun c => { c with
      pending := c.pending.erase row, payer := tset c.payer 0 row 0, masks := tset c.masks 0 row m,
      shifting := c.shifting.map (fun e => (e.1, e.2.1, e.2.2.erase row)) })
    shiftsDone (charge s payer (64 * (entryFj s))))

/-- A write of SRCH_E_IDX: the six words of the entry are held (R271). -/
def eIdxWrite (s : State) (v : W32) : State :=
  modSrch s (fun c => { c with eIdx := BitVec.ofNat 16 (fld v 15 0), snap := entryWords (sent s (fld v 15 0)) })

/-- SEARCH_ENTRY_SNAPSHOT (R271). -/
def execSearchEntrySnapshot (ini : Ini) (v : W32) (s : State) : Res :=
  .next (pageWrite s ini (frameOf 8 0 0) 0x50 (fun s => eIdxWrite s v))

/-! ## Core search operations (R133, R262) -/

/-- What a search operation of a core answers: rd, whether it matched, MULTI, and the events it counts. -/
structure CoreHit where
  val : W36 := 0
  hit : Bool := false
  multi : Bool := false
  evs : List Nat := []

/-- RSL and RSLT on the key of two words (R133): looks the key up for the context's polder and notes the entry returned; `val` gives
rd on a match. -/
def coreLookup (s : State) (c : Nat) (a b : W36) (val : SEnt → W36) : CoreHit × State :=
  let k := core s c
  let p := k.polder
  let key := w64 (dataOf a) (dataOf b)
  let s := countLookup s p key (fun s fj => chargeJob s p k.job fj)
  match lookupKey s p key with
  | some v =>
    ({ val := val v.ent, hit := true, multi := v.multi, evs := [0x0E, 0x0F] },
     modCore s c (fun k => { k with search := some { key := key, prio := v.ent.prio, idx := v.idx } }))
  | none => ({ evs := [0x0E] }, modCore s c (fun k => { k with search := none }))

/-- Counts and charges a lookup that compares no row. -/
def countNone (s : State) (p : Nat) (chg : State → Nat → State) : State :=
  chg (pmonCount (modSrch s (fun c => { c with lkp := tmod c.lkp 0 p (· + 1) })) 8 p 1) (lookupFj s 0)

/-- RSN (R133, R262): the next match of the context's last lookup. Without one it counts as a lookup that compares no row (R261, R270; what
it compares is open, DESIGN CHOICE, assumption 68). -/
def coreNext (s : State) (c : Nat) : CoreHit × State :=
  let k := core s c
  let p := k.polder
  match k.search with
  | none => ({ evs := [0x0E] }, countNone s p (fun s fj => chargeJob s p k.job fj))
  | some l =>
    let s := countLookup s p l.key (fun s fj => chargeJob s p k.job fj)
    match stepKey s p l.key l.prio l.idx with
    | none => ({ evs := [0x0E] }, modCore s c (fun k => { k with search := none }))
    | some (e, v) =>
      ({ val := v.result, hit := true, evs := [0x0E, 0x0F] }, modCore s c (fun k => { k with search := some { l with idx := e } }))

/-- A search word: rd and flag t from the answer; flag m too unless it is kept. -/
def searchWord (c : Nat) (rd : BitVec 5) (keepM : Bool) (f : State → CoreHit × State) (s : State) : State :=
  runWord c s (fun s =>
    let (r, s) := f s
    let k := core s c
    let g := setTM k.flags r.hit (if keepM then flagM k.flags else r.multi)
    .ok (setCore s c { rset k rd r.val with flags := g, pc := k.pc + 1 }) ([2, 3] ++ r.evs) none)

/-- RSL (R133). -/
def execIRsl (c : Nat) (rd ra rb : BitVec 5) (s : State) : Res :=
  .next (searchWord c rd false (fun s => coreLookup s c (rget (core s c) ra) (rget (core s c) rb) (fun e => e.result)) s)

/-- RSLT (R133, R147): all four tags set on a match; a version 1 image takes the illegal-instruction trap. -/
def execIRslt (c : Nat) (rd ra rb : BitVec 5) (s : State) : Res :=
  .next (if (core s c).v1 then runWord c s illegal
  else searchWord c rd false (fun s => coreLookup s c (rget (core s c) ra) (rget (core s c) rb) (fun _ => tagMask)) s)

/-- RSN (R133, R147, R262): flag m is unchanged. -/
def execIRsn (c : Nat) (rd _ra _rb : BitVec 5) (s : State) : Res :=
  .next (if (core s c).v1 then runWord c s illegal else searchWord c rd true (fun s => coreNext s c) s)

end Sys2Proof.Machine
end

