-- ==== Sys2Proof/Machine/Jobs.lean ====
section
/-! DEFINITION. What jobs share (chapter "Compute programs and the Kloed image"): compute engines, the start of a job's cores
(R153), the device-defined programs (R114, R115), NRG's grant (R116) and the settlement of outputs (R105). -/

namespace Sys2Proof.Machine

open Sys2Proof

/-! ## Cores and ranges -/

/-- Does a job hold a core? A job in ENDING holds none: its cores are free as the job end frees them (R162). -/
def coreTaken (s : State) (c : Nat) : Bool := s.jobs.any (fun e => match e.2 with
  | some v => v.st != .ending && v.cores.contains c
  | none => false)

/-- The free cores of compute engine 0 of a polder, ascending (R102, R162). -/
def freeCores (s : State) (p : Nat) : List Nat :=
  (engineCores s p).filter (fun c => (coreNow s c).st == .free && !coreTaken s c)

/-! ## Job start (R153, "Job start, each core of the job") -/

/-- First word of a namespace offset of a polder in the DRAM window. -/
def slmWord (s : State) (p o : Nat) : Nat := dramWin + (slmBase + slmFirst (polder s p) + o) / 4

/-- The region entries of a tenant context (R153). -/
def jobRegions (s : State) (p : Nat) (im : Bytes) (ranges : List (Nat × Nat)) : Tbl (Option Rgn) :=
  let code := (sections im).filter (fun e => e.typ == 1 || e.typ == 2)
  let ents := (List.range code.length).filterMap (fun i => (code[i]?).map (fun e =>
    let xo := e.typ == 1 && e.attr == 1
    (i + 1, some ({ base := imageWin + e.load, limit := imageWin + e.load + e.words - 1, xo := xo, x := e.typ == 1, r := !xo } : Rgn))))
  let rs := (List.range ranges.length).filterMap (fun i => (ranges[i]?).map (fun g =>
    (17 + i, some ({ base := slmWord s p g.1, limit := slmWord s p g.1 + g.2 / 4 - 1, r := true, w := true } : Rgn))))
  (0, some { base := 0, limit := 131071, r := true, w := true }) :: ents ++ rs ++
    [(49, some { base := sramWin, limit := sramWin + 12582911, r := true, w := true })]

/-- The local data memory of a starting core: data sections, parameters, range table. -/
def jobLdm (s : State) (p : Nat) (im params : Bytes) (ranges : List (Nat × Nat)) : Tbl W36 :=
  let data := ((sections im).filter (fun e => e.typ == 3)).flatMap (fun e => wordTbl e.load (sectWords im e))
  let table := wordTbl 0o375700 (ranges.flatMap (fun g => [BitVec.ofNat 36 (slmWord s p g.1), BitVec.ofNat 36 (g.2 / 4)]))
  let pars := wordTbl 0o376000 ((List.range ((params.length + 3) / 4)).map (fun i => BitVec.ofNat 36 (leAt params (4 * i) 4)))
  (data ++ table ++ pars).foldl (fun t e => tset t 0 e.1 e.2) []

/-- A core of a job as it starts to run. -/
def jobCore (s : State) (j : Nat) (v : Job) (im : Bytes) (rel : Nat) (k : Core) : Core :=
  let uc := imUcode im
  { emptyCore k with
    st := .running, user := true, polder := v.polder, prog := v.index, job := some j, rel := rel, v1 := imVersion im == 1,
    csLoaded := uc.isSome,
    dec := match uc with
      | some ws => wordTbl 0 (ws.take 64)
      | none => []
    cs := match uc with
      | some ws => wordTbl 0 (ws.drop 64)
      | none => []
    rgn := jobRegions s v.polder im v.ranges, ldm := jobLdm s v.polder im v.params v.ranges,
    pc := BitVec.ofNat 36 (imageWin + imEntry im) }

/-- Starts the cores of a job. -/
def startCores (s : State) (j : Nat) (v : Job) : State :=
  let im := (prog s v.polder v.index).image.getD []
  (List.range v.cores.length).foldl (fun s i =>
    modCore (clearLdm s (v.cores.getD i 0)) (v.cores.getD i 0) (jobCore s j v im i)) s

/-! ## Device-defined programs (R114, R115) -/

/-- What a logical block holds for an extent, at once: none where it is lost. -/
def blockNow (s : State) (l : Nat) : Option Bytes :=
  match stagedOf s l with
  | some e => if stagedLost s e then none else some e.data
  | none =>
    match gotOf s l with
    | .flash g => if failedMember s g && !canRebuild s g then none else some (granPlain s l g)
    | .unwritten => some zeroBlock
    | .zeroed => some zeroBlock
    | _ => none

/-- Energy of one logical block read from flash (R361), fJ. -/
def blockFj (s : State) : Nat := senseFj s 0 + xferFj s + mediaFj s

/-- Blocks up to the first that is lost. -/
def goodPrefix : List (Option Bytes) → List Bytes
  | some b :: r => padTo 4096 b :: goodPrefix r
  | _ => []

/-- The IV of a chunk: four zero bytes, its start LBA big-endian (R114). -/
def chunkIv (lba : Nat) : Bytes := [0, 0, 0, 0] ++ (leBytes 8 lba).reverse

/-- Decrypts a chunk: its plaintext where the tag passes. -/
def chunkOpen (key : Bytes) (lba : Nat) (b : Bytes) : Option Bytes :=
  let ct := b.take (b.length - 16)
  if Config.gcmTag key (chunkIv lba) [] ct = b.drop (b.length - 16) then some (Config.gcmCrypt key (chunkIv lba) 0 ct) else none

/-- The chunk under another key: ciphertext and tag. -/
def chunkSeal (key : Bytes) (lba : Nat) (pt : Bytes) : Bytes :=
  let ct := Config.gcmCrypt key (chunkIv lba) 0 pt
  ct ++ Config.gcmTag key (chunkIv lba) [] ct

/-- Groups of `n` blocks, each with its first LBA. -/
def blockGroups (n lba : Nat) (bs : List Bytes) : Nat → List (Nat × Bytes)
  | 0 => []
  | k + 1 => if bs.isEmpty then [] else (lba, (bs.take n).flatten) :: blockGroups n (lba + n) (bs.drop n) k

/-- What a device-defined program produces: output, CDW0, an error. -/
structure DevOut where
  out : Bytes := []
  dw0 : W32 := 0
  err : Option NStat := none
  keys : List Nat := []

/-- A polder's cipher key by relative slot. -/
def polKey (s : State) (p n : Nat) : Option Bytes :=
  match keySlot s p n with
  | some a => (tget s.isl.keys {} a).key
  | none => none

/-- A polder's HMAC key by relative slot, where it is loaded for the algorithm. -/
def polHmac (s : State) (p n alg : Nat) : Option Bytes :=
  match hmacSlot s p n with
  | some a => let k := tget s.isl.hmacs {} a; if k.alg.toNat = alg + 1 then k.key else none
  | none => none

/-- Decompresses a whole stream: none on any error of R246. -/
def inflate (fmt : Nat) (b : Bytes) : Option Bytes :=
  if fmt = 0 then some b
  else
    let d := decodeFrag fmt true (b.length + 1) b 0 [] 0 false
    if d.status = 0 then some d.out else none

/-- Joins optional pieces. -/
def joinAll : List (Option Bytes) → Option Bytes
  | [] => some []
  | some b :: r => (joinAll r).map (fun t => b ++ t)
  | none :: _ => none

/-- Scan-filter by range: index 0. -/
def devScan (s : State) (p lba : Nat) (a : Bytes) (bs : List Bytes) : DevOut :=
  let rs := leAt a 16 2
  let w := leAt a 20 1
  let gcm := leAt a 22 2
  let pieces : Option (List (Option Bytes)) :=
    if gcm = 0xFFFF then some [some bs.flatten]
    else (polKey s p gcm).map (fun k =>
      (blockGroups (leAt a 28 4) lba bs (bs.length + 1)).map (fun g => some ((chunkOpen k g.1 g.2).getD [])))
  match pieces with
  | none => { err := some .internalError }
  | some ps =>
    match joinAll (ps.map (fun b => b.bind (fun x => if x.isEmpty then some [] else inflate (leAt a 21 1) x))) with
    | none => { err := some .internalError }
    | some d =>
      let recs := records rs d (d.length / rs)
      let key := fun (r : Bytes) => leAt r (leAt a 18 2) w
      let hit := (List.range recs.length).filter (fun i => (lookupKey s p (key (recs.getD i []))).isSome)
      { out := hit.flatMap (fun i => if leAt a 25 1 = 0 then recs.getD i [] else leBytes 8 i),
        dw0 := BitVec.ofNat 32 (satN 32 hit.length), keys := recs.map key }

/-- Decompress-to-SLM: index 1. -/
def devInflate (a : Bytes) (bs : List Bytes) : DevOut :=
  match inflate (leAt a 21 1) bs.flatten with
  | none => { err := some .internalError }
  | some d => { out := d, dw0 := BitVec.ofNat 32 ((d.length + 4095) / 4096) }

/-- Hash-extents: index 2. -/
def devHash (s : State) (p lba : Nat) (a : Bytes) (bs : List Bytes) : DevOut :=
  let alg := leAt a 16 1
  let per := if leAt a 20 4 = 0 then bs.length else leAt a 20 4
  let gs := blockGroups per lba bs (bs.length + 1)
  let go := fun (key : Option Bytes) => ({ out := gs.flatMap (fun g => digestValue alg key g.2), dw0 := BitVec.ofNat 32 gs.length } : DevOut)
  if leAt a 18 2 = 0xFFFF then go none
  else
    match polHmac s p (leAt a 18 2) alg with
    | some k => go (some k)
    | none => { err := some .internalError }

/-- Re-encrypt: index 3. A failed chunk and its tag are zeros. -/
def devCrypt (s : State) (p lba : Nat) (a : Bytes) (bs : List Bytes) : DevOut :=
  match polKey s p (leAt a 16 2), polKey s p (leAt a 18 2) with
  | some k1, some k2 =>
    let gs := blockGroups (leAt a 28 4) lba bs (bs.length + 1)
    let fails := (gs.filter (fun g => (chunkOpen k1 g.1 g.2).isNone)).length
    { out := gs.flatMap (fun g => match chunkOpen k1 g.1 g.2 with
        | some pt => chunkSeal k2 g.1 pt
        | none => List.replicate g.2.length 0),
      dw0 := putB (decide (fails ≠ 0)) 31 ||| put fails 30 0 }
  | _, _ => { err := some .internalError }

/-- Are the parameters of a device-defined program in their ranges and free of the failures of R115? -/
def devOk (index : Nat) (a : Bytes) (ranges : Nat) : Bool :=
  let n := leAt a 12 4
  let chunk := leAt a 28 4
  let chunked := decide (chunk ≠ 0) && n % chunk == 0
  decide (1 ≤ n) && decide (leAt a 24 1 < ranges) &&
  (match index with
   | 0 =>
     let rs := leAt a 16 2
     let w := leAt a 20 1
     decide (8 ≤ rs) && decide (rs ≤ 4096) && 4096 % rs == 0 && decide (1 ≤ w) && decide (w ≤ 8) &&
       decide (leAt a 18 2 + w ≤ rs) && decide (leAt a 21 1 ≤ 4) && decide (leAt a 25 1 ≤ 1) &&
       (leAt a 22 2 == 0xFFFF || chunked)
   | 1 => decide (1 ≤ leAt a 21 1) && decide (leAt a 21 1 ≤ 4)
   | 2 => decide (leAt a 16 1 ≤ 3) && (leAt a 18 2 == 0xFFFF || decide (leAt a 16 1 ≤ 2))
   | _ => chunked)

/-- What a device-defined program produces from its blocks. -/
def devRun (s : State) (index p lba : Nat) (a : Bytes) (bs : List Bytes) : DevOut :=
  match index with
  | 0 => devScan s p lba a bs
  | 1 => devInflate a bs
  | 2 => devHash s p lba a bs
  | _ => devCrypt s p lba a bs

/-- The blocks of a device-defined program's extent: an error where the namespace or the range is not the polder's. -/
def devBlocks (s : State) (p : Nat) (a : Bytes) : Except NStat (List (Option Bytes)) :=
  match nsOf s (leAt a 0 4) with
  | none => .error .invalidNs
  | some v =>
    if p ≠ 0 ∧ v.owner ≠ p then .error .internalError
    else if v.blocks < leAt a 4 8 + leAt a 12 4 then .error .lbaRange
    else .ok ((List.range (leAt a 12 4)).map (fun i => (lidx v (leAt a 4 8 + i)).bind (blockNow s)))

/-- Runs a device-defined program to its end (assumption 7): its output goes to its range as far as it fits; what was written
before a failure is voided as the job settles. An extent of another polder is a breach; the initiator that its record names, which the
list of R461 does not give for a program without a ring, is FTLA (DESIGN CHOICE, assumption 64). -/
def runDevice (s : State) (j : Nat) (v : Job) : State :=
  let a := v.params.drop 32
  let p := v.polder
  if !devOk v.index a v.ranges.length then endJob s j (some (.invalidField, 0))
  else
    match devBlocks s p a with
    | .error e =>
      let s := if e = .internalError then breach s p (match nsOf s (leAt a 0 4) with
        | some w => w.owner
        | none => 0) 0x0A 0 false (leAt a 0 4) (.block 0x0A 0) else s
      endJob s j (some (e, 0))
    | .ok obs =>
      let bs := goodPrefix obs
      let d := devRun s v.index p (leAt a 4 8) a bs
      let g := v.ranges.getD (leAt a 24 1) (0, 0)
      let s := chargeJob s p (some j) (bs.length * blockFj s)
      let s := d.keys.foldl (fun s k => countLookup s p k (fun s fj => chargeJob s p (some j) fj)) s
      let s := jobSlmWrite s (some j) (slmFirst (polder s p) + g.1) (d.out.take g.2)
      let res : NStat × W32 :=
        match d.err with
        | some e => (e, 0)
        | none => if bs.length < obs.length then (.unrecoveredRead, 0)
                  else if g.2 < d.out.length then (.invalidField, 0) else (.success, d.dw0)
      endJob s j (some res)

/-! ## The grant (R116) and the end of a job -/

/-- Can NRG grant a job's reservation now (R116, R365)? -/
def canGrant (s : State) (v : Job) : Bool :=
  let a := acct s v.polder
  v.st == .admitting && !s.nrg.held.getLsbD 0 && decide ((v.reservation : Int) ≤ a.bal) && decide (v.reservation ≤ 255 * a.refill)

/-- Grants the reservation: the job runs. -/
def grant (s : State) (j : Nat) : State :=
  match job s j with
  | none => s
  | some v =>
    if canGrant s v then
      let s := modAcct s v.polder (fun a => { a with bal := a.bal - v.reservation })
      let v := { v with st := .running, reserve := v.reservation, startT := s.now }
      let s := setJob s j (some v)
      if v.engine = 0 then startCores s j v else s
    else s

/-- The unspent reserve returns to the balance; what the job has spent beyond it counts for the balance (R365). -/
def returnReserve (s : State) (v : Job) : State :=
  let used := min v.reserve (v.pend / 1000000000)
  modAcct s v.polder (fun a => { a with bal := a.bal + ((v.reserve - used : Nat) : Int), pend := a.pend + (v.pend - used * 1000000000) })

/-- Removes an outstanding Abort of a controller. -/
def dropAbort (s : State) (fn cid : Nat) : State :=
  modCtrl s fn (fun c => { c with aborts := c.aborts.filter (fun a => a.1 != cid) })

/-- The completion of a job's Execute Program, with that of the Abort that ended it. -/
def jobCompletion (s : State) (v : Job) : State :=
  match v.result with
  | none => dropCmd s v.fn v.sq v.cid
  | some (st, dw0) =>
    let s := completeDnr s v.fn v.sq v.cid st (st == .interrupted || statDnr st) dw0
    match v.aborted with
    | some (fn, cid) => complete (dropAbort s fn cid) fn 0 cid .success
    | none => s

/-- A core that has reached FREE leaves its job for good; one still in the job end goes on with it (R162). -/
def leaveJob (s : State) (j c : Nat) : State :=
  if (core s c).job = some j ∧ (core s c).stopT.isSome = true ∧ (coreNow s c).st = .free then clearLdm (modCore s c emptyCore) c else s

/-- The rings and streams of a job are given back (R176, R216). -/
def releaseJob (s : State) (j : Nat) : State :=
  freeStreams ((jobRings s j).foldl releaseRing s) (fun _ i => i == some j)

/-- A job is DONE (R105, R162, R365): blocks written by a job that did not succeed become void; the cores that have not left it yet
are given back; its completion is posted. -/
def closeJob (s : State) (j : Nat) (v : Job) : State :=
  let ok := match v.result with
    | some (.success, _) => true
    | _ => false
  let s := if ok then s else markVoid s v.wrote
  let s := v.cores.foldl (fun s c => leaveJob s j c) s
  jobCompletion (setJob (returnReserve s v) j none) v

/-- The outputs of a job settle and it is DONE: its rings, streams and buffers are given back first (R105, R176, R190). -/
def settleJob (s : State) (j : Nat) (v : Job) : State :=
  closeJob (auditFree (releaseJob s j) v.polder (fun b => b.job == some j)) j v

end Sys2Proof.Machine
end

