-- ==== Sys2Proof/Machine/Compute.lean ====
section
/-! DEFINITION. The commands of the Computational Programs and SLM command sets and the events of jobs: loading (R94-R101),
Execute Program (R102-R107), memory range sets and SLM access (R105-R110). -/

namespace Sys2Proof.Machine

open Sys2Proof

/-! ## Loading and activation -/

/-- Changes a program index of a polder. -/
def modProg (s : State) (p i : Nat) (f : Prog → Prog) : State := { s with progs := tmod s.progs {} (progKey p i) f }

/-- A command that names a loadable program index: Invalid Field in Command for any other (R93, R94). -/
def progCmd (s : State) (fn sq cid engine index : Nat) (body : State → State) : State :=
  computeCmd s fn sq cid (fun s =>
    if engine ≠ 0 ∨ 15 < index then complete s fn sq cid .invalidField else body s)

/-- Bytes of a polder's image region (R151): POL_IMG; for polder 0 the rest of the image area. -/
def imgRegion (s : State) (p : Nat) : Nat :=
  if p = 0 then 1610612736 - ((s.pol.tab.filter (fun e => e.1 != 0 && decide (e.2.st ≠ .empty))).map (fun e => imgSize e.2)).sum
  else imgSize (polder s p)

/-- Bytes of it that loaded images take. -/
def imgUsed (s : State) (p : Nat) : Nat :=
  ((List.range 16).map (fun i => match (prog s p i).image with
    | some b => roundUp b.length 65536
    | none => 0)).sum

/-- The load checks of R96: 0, or the reason of the first that fails. -/
def loadReason (s : State) (p : Nat) (im : Bytes) : Nat :=
  let keys := [tget s.isl.imageKey none p, s.nv.opImageKey].filterMap id
  if !formatOk im false then 2
  else if (imUcode im).isSome && !(polder s p).perm.getLsbD 2 then 3
  else if !keys.any (signedBy im) then 1
  else if imgRegion s p < imgUsed s p + roundUp im.length 65536 then 4
  else 0

/-- The first `need` of up to `n` 64 KiB blocks of the images region from block `b` on that lie in polder `p`'s part and hold no
image. -/
def takeBlks (s : State) (p b need : Nat) : Nat → List Nat
  | 0 => []
  | n + 1 =>
    if need = 0 then []
    else if dramOwner s (imgBase + b * 65536) = p ∧ s.progs.all (fun e => !e.2.blks.contains b) = true then
      b :: takeBlks s p (b + 1) (need - 1) n
    else takeBlks s p (b + 1) need n

/-- The 64 KiB blocks that an image of `n` bytes takes: the lowest free ones of the polder's image region (R96, R151; which blocks the
spec does not say: assumption 21). -/
def imgPlace (s : State) (p n : Nat) : List Nat :=
  let need := roundUp n 65536 / 65536
  if p = 0 then takeBlks s 0 8192 need 24576
  else takeBlks s p (imgFirst (polder s p) / 65536) need (imgSize (polder s p) / 65536)

/-- Stores an image in its blocks. -/
def imgStore (s : State) (im : Bytes) (blks : List Nat) : State :=
  (blks.zip (chunks 65536 im (im.length / 65536 + 1))).foldl (fun s e => dramWrite s (imgBase + e.1 * 65536) e.2) s

/-- The checks on a whole image, and the load: the index is empty while they are made (R96, R97). -/
def loadImage (s : State) (fn sq cid p index : Nat) (im : Bytes) : State :=
  let s := modProg s p index (fun _ => {})
  let r := loadReason s p im
  if r ≠ 0 then complete s fn sq cid .imageRejected (BitVec.ofNat 32 r)
  else
    let blks := imgPlace s p im.length
    let s := extendMeas (imgStore s im blks) (8 + p) (Config.sha384 (imSigned im))
    complete (modProg s p index (fun _ => { image := some im, blks := blks })) fn sq cid .success

/-- LOAD_PROGRAM (R94-R99): pieces in order; the checks run when the last byte of the header's image length arrives. -/
def execLoadProgram (fn sq cid engine index off : Nat) (data : Bytes) (s : State) : Res :=
  .next (progCmd s fn sq cid engine index (fun s =>
    let p := fnPolder fn
    let g := prog s p index
    if g.active then complete s fn sq cid .sequenceError
    else if 2097152 < data.length then complete s fn sq cid .invalidField
    else if off ≠ 0 ∧ (g.partialLoad.isEmpty ∨ off ≠ g.partialLoad.length) then
      complete (modProg s p index (fun g => { g with partialLoad := [] })) fn sq cid .invalidField
    else
      let b := (if off = 0 then [] else g.partialLoad) ++ data
      let n := leAt b 8 4
      if b.length < 12 ∨ b.length < n then
        complete (modProg s p index (fun _ => { partialLoad := b })) fn sq cid .success
      else loadImage s fn sq cid p index (b.take n)))

/-- PROGRAM_UNLOAD (R99): empties an inactive index. -/
def execProgramUnload (fn sq cid engine index : Nat) (s : State) : Res :=
  .next (progCmd s fn sq cid engine index (fun s =>
    let p := fnPolder fn
    if (prog s p index).active then complete s fn sq cid .sequenceError
    else complete (modProg s p index (fun _ => {})) fn sq cid .success))

/-- A command of Program Activation Management: the device-defined programs are always active (R93). -/
def activationCmd (s : State) (fn sq cid engine index : Nat) (dev : NStat) (body : Nat → Prog → State → State) : State :=
  computeCmd s fn sq cid (fun s =>
    if engine = 1 ∧ index < 4 then complete s fn sq cid dev
    else if engine ≠ 0 ∨ 15 < index then complete s fn sq cid .invalidField
    else body (fnPolder fn) (prog s (fnPolder fn) index) s)

/-- PROGRAM_ACTIVATE (R100): only a fully loaded index. -/
def execProgramActivate (fn sq cid engine index : Nat) (s : State) : Res :=
  .next (activationCmd s fn sq cid engine index .success (fun p g s =>
    if g.image.isNone then complete s fn sq cid .sequenceError
    else complete (modProg s p index (fun g => { g with active := true })) fn sq cid .success))

/-- PROGRAM_DEACTIVATE (R100): not while a job of the index is outside DONE (DNR 0, R456). -/
def execProgramDeactivate (fn sq cid engine index : Nat) (s : State) : Res :=
  .next (activationCmd s fn sq cid engine index .invalidField (fun p g s =>
    if g.image.isNone then complete s fn sq cid .sequenceError
    else if s.jobs.any (fun e => match e.2 with
        | some v => v.polder == p && v.engine == 0 && v.index == index
        | none => false) then completeDnr s fn sq cid .sequenceError false
    else complete (modProg s p index (fun g => { g with active := false })) fn sq cid .success))

/-! ## Execute Program -/

/-- The job header of parameter data (check 1 of R102). -/
def headerOk (b : Bytes) (engine : Nat) : Bool :=
  let t := leAt b 4 4
  decide (32 ≤ b.length) && decide (b.length ≤ 4096) && leAt b 0 2 == 1 && zeroSpan b 3 1 && zeroSpan b 12 20 &&
    (t == 0 || (decide (2 ≤ t) && decide (t ≤ 3600000))) && (engine == 0 || leAt b 2 1 == 0)

/-- A memory range set of a polder. -/
def rangeSet (s : State) (p i : Nat) : Option RSet := tget s.rsets none (p * 65536 + i)

/-- The checks of R94, R102 and R110 on an Execute Program: the job that passes them, or status, DNR and CDW0. -/
def execCheck (s : State) (fn sq cid engine index rs : Nat) (b : Bytes) : Except (NStat × Bool × W32) Job :=
  let p := fnPolder fn
  let im := (prog s p index).image.getD []
  let all := engineCores s p
  let asked := leAt b 2 1
  let want := if engine = 1 then 0 else if asked = 0 then leAt im 40 1 else asked
  let free := freeCores s p
  if 1 < engine ∨ headerOk b engine = false then .error (.invalidField, true, 0)
  else if engine = 0 ∧ all.isEmpty then .error (.invalidField, true, 0)
  else if (engine = 0 ∧ (15 < index ∨ (prog s p index).active = false)) ∨ (engine = 1 ∧ 3 < index) then .error (.sequenceError, true, 0)
  else if engine = 0 ∧ (all.length < want ∨ want < leAt im 40 1) then .error (.invalidField, true, 0)
  else
    match rangeSet s p rs with
    | none => .error (.sequenceError, true, 0)
    | some g =>
      if g.stale then .error (.sequenceError, true, 0)
      else if g.ranges.any (fun r => rangeHeld s p r.1 r.2) then .error (.sequenceError, false, 0)
      else if free.length < want then .error (.sequenceError, false, BitVec.ofNat 32 free.length)
      else
        let dev := engine == 1
        .ok { polder := p, fn := fn, sq := sq, cid := cid, engine := engine, index := index, rset := rs, ranges := g.ranges,
              params := b, cores := free.take want, fetchT := s.now,
              limitMs := if leAt b 4 4 ≠ 0 then leAt b 4 4 else if dev then 0 else leAt im 44 4,
              reservation := if leAt b 8 4 ≠ 0 then leAt b 8 4 else if dev then 0 else leAt im 48 4 }

/-- EXECUTE_PROGRAM (R102, R116): the job is admitted to ADMITTING, and runs at once where NRG grants its reservation. -/
def execExecuteProgram (fn sq cid engine index rset : Nat) (params : Bytes) (s : State) : Res :=
  .next (computeCmd s fn sq cid (fun s =>
    match execCheck s fn sq cid engine index rset params with
    | .error (st, dnr, dw0) => completeDnr s fn sq cid st dnr dw0
    | .ok v =>
      let j := s.nextJob
      let s := addCmd s fn sq cid 0 (.exec j)
      grant { setJob s j (some v) with nextJob := j + 1 } j))

/-- CDW0 of status 0x81 (R116): epochs until the reservation is covered. -/
def deferDw0 (a : Acct) (reservation : Nat) : Nat :=
  if a.refill = 0 ∨ 255 * a.refill < reservation then 255
  else min 255 (max 1 (((reservation - a.bal).toNat + a.refill - 1) / a.refill))

/-- EXECUTE_PROGRAM_DEFERRED (R116): still ungranted 4 ms after its fetch. -/
def execExecuteProgramDeferred (job_ : Nat) (s : State) : Res :=
  .next (match job s job_ with
  | none => s
  | some v =>
    if v.st = .admitting ∧ v.fetchT + 4000 ≤ s.now then
      let a := acct s v.polder
      let s := modAcct s v.polder (fun a => { a with deferrals := satInc a.deferrals, deferred := true })
      complete (setJob s job_ none) v.fn v.sq v.cid .deferredEnergy (BitVec.ofNat 32 (deferDw0 a v.reservation))
    else s)

/-- JOB_TIME_LIMIT (R104): the run ends 1 ms before the limit, pauses not counted. -/
def execJobTimeLimit (job_ : Nat) (s : State) : Res :=
  .next (match job s job_ with
  | none => s
  | some v =>
    if (v.st = .running ∨ v.st = .held) ∧ limitReached s v = true then
      endJob s job_ (some (.interrupted, putB true 31))
    else s)

/-- A device-defined program that is still running has finished: it ends by itself, or against its time limit where that expired
first; its media reads wait for the media path (R103, R104, R201; assumption 7). -/
def finishDevice (s : State) (j : Nat) (v : Job) : State :=
  if v.engine ≠ 0 ∧ v.st = .running then
    (if limitReached s v then endJob s j (some (.interrupted, putB true 31))
     else if s.isl.mediaReady then runDevice s j v else s)
  else s

/-- JOB_OUTPUTS_SETTLED (R105): the job is DONE. -/
def execJobOutputsSettled (job_ : Nat) (s : State) : Res :=
  .next (match job s job_ with
  | none => s
  | some v =>
    let t := finishDevice s job_ v
    match job t job_ with
    | none => s
    | some w => if w.st = .ending then settleJob t job_ w else s)

/-- VOID_BLOCK_ZEROED (R105): the background zeroing of a void 64 KiB block ends. -/
def execVoidBlockZeroed (block : Nat) (s : State) : Res :=
  .next (if s.void.contains block then
    { s with void := s.void.filter (fun b => b != block), dram := zeroBytes s.dram (slmBase + block * 65536) 65536 }
  else s)

/-! ## Memory range sets (R108) -/

/-- Number of range sets of a polder. -/
def rsetCount (s : State) (p : Nat) : Nat := (s.rsets.filter (fun e => e.1 / 65536 == p && e.2.isSome)).length

/-- Do ranges obey R108 in a memory namespace of `size` bytes? -/
def rangesOk (size : Nat) (rs : List (Nat × Nat)) : Bool :=
  decide (1 ≤ rs.length) && decide (rs.length ≤ 32) &&
  rs.all (fun r => r.1 % 4096 == 0 && r.2 % 4096 == 0 && decide (r.1 + r.2 ≤ size)) && disjoint rs

/-- MEMORY_RANGE_SET_CREATE (R108). -/
def execMemoryRangeSetCreate (fn sq cid rset_ : Nat) (ranges : List (Nat × Nat)) (s : State) : Res :=
  .next (computeCmd s fn sq cid (fun s =>
    let p := fnPolder fn
    if 65535 < rset_ ∨ (rangeSet s p rset_).isSome ∨ 16 ≤ rsetCount s p ∨ rangesOk (memSize s p) ranges = false then
      complete s fn sq cid .invalidField
    else complete { s with rsets := tset s.rsets none (p * 65536 + rset_) (some { ranges := ranges }) } fn sq cid .success))

/-- MEMORY_RANGE_SET_DELETE (R108): not while a job holds the set (DNR 0, R456). -/
def execMemoryRangeSetDelete (fn sq cid rset_ : Nat) (s : State) : Res :=
  .next (computeCmd s fn sq cid (fun s =>
    let p := fnPolder fn
    if 65535 < rset_ ∨ (rangeSet s p rset_).isNone then complete s fn sq cid .invalidField
    else if s.jobs.any (fun e => match e.2 with
        | some v => v.polder == p && v.rset == rset_
        | none => false) then completeDnr s fn sq cid .sequenceError false
    else complete { s with rsets := tset s.rsets none (p * 65536 + rset_) none } fn sq cid .success))

/-! ## Memory Read, Write and Copy (R105, R106) -/

/-- The checks of an access to the memory namespace: its span, MDTS for a host transfer, held ranges. -/
def memCheck (s : State) (p off len : Nat) (host : Bool) : Option (NStat × Bool) :=
  if memSize s p < off + len ∨ (host = true ∧ 2097152 < len) then some (.invalidField, true)
  else if rangeHeld s p off len then some (.sequenceError, false)
  else none

/-- Energy of `n` bytes over the host link, and of `m` bytes of DRAM accesses (R361), fJ. -/
def memFj (s : State) (n m : Nat) : Nat := hostLinkFj s n + dramFj s m

/-- MEMORY_READ (R105, R106, R356). -/
def execMemoryRead (fn sq cid off len : Nat) (s : State) : Res :=
  .next (computeCmd s fn sq cid (fun s =>
    let p := fnPolder fn
    let o := slmFirst (polder s p) + off
    match memCheck s p off len true with
    | some (st, dnr) => completeDnr s fn sq cid st dnr
    | none =>
      let s := dramRead s (slmBase + o) len
      if slmPoison s o len then complete (ueCur s (dramCur + slmBase + o) len 5 p) fn sq cid .unrecoveredRead
      else complete (charge (dramCount s p len) p (memFj s len len) true) fn sq cid .success 0 0 (slmBytes s o len)))

/-- MEMORY_WRITE (R105, R106). -/
def execMemoryWrite (fn sq cid off : Nat) (data : Bytes) (s : State) : Res :=
  .next (computeCmd s fn sq cid (fun s =>
    let p := fnPolder fn
    match memCheck s p off data.length true with
    | some (st, dnr) => completeDnr s fn sq cid st dnr
    | none =>
      let s := slmWrite s (slmFirst (polder s p) + off) data
      complete (charge (dramCount s p data.length) p (memFj s data.length data.length) true) fn sq cid .success))

/-- Memory Copy within SLM: the source is read before the destination is written. -/
def copySlm (s : State) (fn sq cid dst off len : Nat) : State :=
  let p := fnPolder fn
  let base := slmFirst (polder s p)
  match memCheck s p off len false, memCheck s p dst len false with
  | some (st, dnr), _ => completeDnr s fn sq cid st dnr
  | none, some (st, dnr) => completeDnr s fn sq cid st dnr
  | none, none =>
    let s := dramRead s (slmBase + base + off) len
    if slmPoison s (base + off) len then complete (ueCur s (dramCur + slmBase + base + off) len 5 p) fn sq cid .unrecoveredRead
    else
      let t := slmWrite s (base + dst) (slmBytes s (base + off) len)
      complete (charge (dramCount t p (2 * len)) p (memFj s 0 (2 * len)) true) fn sq cid .success

/-- Memory Copy from a namespace of the polder: its blocks are read as a host read is. -/
def copyNvm (s : State) (fn sq cid dst nsid slba count : Nat) : State :=
  let p := fnPolder fn
  match nsOf s nsid with
  | none => complete s fn sq cid .invalidNs
  | some v =>
    if v.owner ≠ p then complete s fn sq cid .invalidNs
    else if count = 0 then complete s fn sq cid .invalidField
    else if v.blocks < slba + count then complete s fn sq cid .lbaRange
    else
      match memCheck s p dst (count * 4096) false with
      | some (st, dnr) => completeDnr s fn sq cid st dnr
      | none => startReads s fn sq cid nsid slba count v { guard := false, ref := false } (.memCopy dst)

/-- MEMORY_COPY (R106). -/
def execMemoryCopy (fn sq cid dst : Nat) (src : CopySrc) (s : State) : Res :=
  .next (computeCmd s fn sq cid (fun s =>
    match src with
    | .slm off len => copySlm s fn sq cid dst off len
    | .nvm nsid slba count => copyNvm s fn sq cid dst nsid slba count))

end Sys2Proof.Machine
end

