-- ==== Sys2Proof/Machine/Namespaces.lean ====
section
/-! DEFINITION. Namespace management and attachment (R32, R304), Format and Sanitize (R64, R200), device self-test. -/

namespace Sys2Proof.Machine

open Sys2Proof

/-! ## Allocation of map pages (R304) -/

/-- The pages that namespaces hold, as (first, count), ascending. -/
def usedSegs (s : State) : List (Nat × Nat) :=
  ((s.ftla.nss.flatMap (fun e => match e.2 with
    | some v => v.segs
    | none => [])).insertionSort (fun a b => a.1 ≤ b.1))

/-- The free runs between used ones, from page `at_` on. -/
def freeRuns (at_ : Nat) : List (Nat × Nat) → List (Nat × Nat)
  | [] => if at_ < mapPages then [(at_, mapPages - at_)] else []
  | (p, n) :: r => (if at_ < p then [(at_, p - at_)] else []) ++ freeRuns (max at_ (p + n)) r

/-- Takes `n` pages from free runs, lowest first: the segments, none when too few are free. -/
def takePages (n : Nat) : List (Nat × Nat) → Option (List (Nat × Nat))
  | [] => if n = 0 then some [] else none
  | (p, k) :: r => if n = 0 then some [] else if n ≤ k then some [(p, n)] else (takePages (n - k) r).map (fun t => (p, k) :: t)

/-- Segments for a namespace of `blocks` blocks: none where a 17th would be needed, pages are short, or its last block would lie
outside the logical space. -/
def allocSegs (s : State) (blocks : Nat) : Option (List (Nat × Nat)) :=
  match takePages ((blocks + 1023) / 1024) (freeRuns 0 (usedSegs s)) with
  | none => none
  | some g =>
    if 16 < g.length then none
    else
      match segIdx g (blocks - 1) with
      | some l => if l < mapEnd then some g else none
      | none => none

/-- The lowest free NSID. -/
def freeNsid (s : State) : Option Nat := ((List.range 1024).map (· + 1)).find? (fun n => (nsOf s n).isNone)

/-- Every entry of a namespace's pages takes a special value, with its TRIM records (R312). -/
def resetEntries (s : State) (segs : List (Nat × Nat)) (v : Nat) : State :=
  segs.foldl (fun s g =>
    let a := g.1 * 1024
    let n := min (g.2 * 1024) (mapEnd - a)
    trimRecord s a n v) s

/-- Changes the namespace table, journalled first (R304, R312). -/
def setNs (s : State) (n : Nat) (v : Option Ns) : State :=
  let s := journalAdd s 6 [BitVec.ofNat 32 n, 0, match v with
    | some x => BitVec.ofNat 32 x.blocks
    | none => 0, 0, 0]
  modFtla s (fun f => { f with nss := tset f.nss none n v })

/-- Staged writes of a namespace are dropped. -/
def dropStaged (s : State) (pick : Nat → Bool) : State :=
  modFtla s (fun f => { f with staging := f.staging.filter (fun e => !pick e.nsid) })

/-- A controller's list of changed namespaces gains an entry, with its notice. -/
def nsChanged (s : State) (fn nsid : Nat) : State :=
  let fresh := (ctrl s fn).changedNs.isEmpty
  let s := modCtrl s fn (fun c => { c with changedNs := if c.changedNs.contains nsid then c.changedNs else c.changedNs ++ [nsid] })
  if fresh then notice s fn 0 4 8 else s

/-- The parts of a format number as CDW10 of Format NVM lays them out: LBA format 3:0, metadata as an extended LBA 4, protection
information type 7:5 (assumption 5). -/
def fmtLbaf (n : Nat) : Nat := n % 16
/-- Metadata as an extended LBA. -/
def fmtExt (n : Nat) : Bool := n / 16 % 2 == 1
/-- Protection information type. -/
def fmtPi (n : Nat) : Nat := n / 32 % 8
/-- Is a format supported: LBAF 0 to 2, types 0 to 3, protection information only with metadata (R67)? -/
def fmtOk (n : Nat) : Bool :=
  decide (n < 256) && decide (fmtLbaf n ≤ 2) && decide (fmtPi n ≤ 3) && (decide (fmtPi n = 0) || decide (fmtLbaf n ≠ 0))

/-- NAMESPACE_CREATE (R304, R200): the lowest free NSID and pages, unmapped, with a fresh key pair; it belongs to polder 0. -/
def execNamespaceCreate (fn cid blocks lbaf : Nat) (s : State) : Res :=
  .next (pfCmd s fn cid (fun s =>
    if blocks = 0 then complete s fn 0 cid .invalidField
    else if !fmtOk lbaf then complete s fn 0 cid .invalidFormat
    else
      match freeNsid s, allocSegs s blocks with
      | none, _ => complete s fn 0 cid .nsidUnavailable
      | _, none => complete s fn 0 cid .insufficientCapacity
      | some n, some g =>
        let s := setNs s n (some { blocks := blocks, lbaf := fmtLbaf lbaf, pi := fmtPi lbaf, ext := fmtExt lbaf, segs := g })
        let s := newMediaKey (resetEntries s g vUnmapped) n
        complete s fn 0 cid .success (BitVec.ofNat 32 n)))

/-- Removes a namespace. -/
def deleteNs (s : State) (n : Nat) (v : Ns) : State :=
  let s := resetEntries (dropStaged s (fun i => i == n)) v.segs vUnmapped
  let s := setNs s n none
  match v.ctrl with
  | some c => nsChanged s c n
  | none => s

/-- NAMESPACE_DELETE (R304): one namespace, or every one with NSID 0xFFFF_FFFF. -/
def execNamespaceDelete (fn cid nsid : Nat) (s : State) : Res :=
  .next (pfCmd s fn cid (fun s =>
    if nsid = 0xFFFFFFFF then
      complete (s.ftla.nss.foldl (fun s e => match e.2 with
        | some v => deleteNs s e.1 v
        | none => s) s) fn 0 cid .success
    else
      match nsOf s nsid with
      | none => complete s fn 0 cid .invalidNs
      | some v => complete (deleteNs s nsid v) fn 0 cid .success))

/-- Is a controller identifier one of the module's: 0 to 63, and 64 in dual-port mode? -/
def cntlidOk (s : State) (c : Nat) : Bool := decide (c ≤ 63) || (c == 64 && dual s)

/-- The checks that attach and detach share: the controller list, and a polder in TEARDOWN (status 0x82). -/
def attachCmd (s : State) (fn cid nsid cntlid : Nat) (body : Ns → State → State) : State :=
  pfCmd s fn cid (fun s =>
    if !cntlidOk s cntlid then complete s fn 0 cid .controllerList
    else if (polder s (fnPolder cntlid)).st = .teardown then
      complete s fn 0 cid .tornDown (BitVec.ofNat 32 (fnPolder cntlid))
    else
      match nsOf s nsid with
      | none => complete s fn 0 cid .invalidNs
      | some v => body v s)

/-- NAMESPACE_ATTACH (R32): to one controller at most; the namespace belongs to that controller's polder. -/
def execNamespaceAttach (fn cid nsid cntlid : Nat) (s : State) : Res :=
  .next (attachCmd s fn cid nsid cntlid (fun v s =>
    if v.ctrl.isSome then complete s fn 0 cid .alreadyAttached
    else
      let s := setNs s nsid (some { v with ctrl := some cntlid, owner := fnPolder cntlid })
      complete (nsChanged s cntlid nsid) fn 0 cid .success))

/-- NAMESPACE_DETACH (R32): a detached namespace belongs to polder 0. -/
def execNamespaceDetach (fn cid nsid cntlid : Nat) (s : State) : Res :=
  .next (attachCmd s fn cid nsid cntlid (fun v s =>
    if v.ctrl ≠ some cntlid then complete s fn 0 cid .notAttached
    else
      let s := setNs s nsid (some { v with ctrl := none, owner := 0 })
      complete (nsChanged s cntlid nsid) fn 0 cid .success))

/-! ## Format, sanitize, self-test -/

/-- Formats one namespace: its blocks are unmapped, its format set, with SES 2 a new key pair (R200). -/
def formatNs (s : State) (n lbaf ses : Nat) (v : Ns) : State :=
  let s := resetEntries (dropStaged s (fun i => i == n)) v.segs vUnmapped
  let s := setNs s n (some { v with lbaf := fmtLbaf lbaf, pi := fmtPi lbaf, ext := fmtExt lbaf })
  if ses = 2 then newMediaKey s n else s

/-- FORMAT_NVM (R200): a VF formats its own namespaces; a PF any. -/
def execFormatNvm (fn cid nsid lbaf ses : Nat) (s : State) : Res :=
  .next (adminCmd s fn (fun s =>
    let may := fun (n : Nat) (v : Option Ns) => match v with
      | some _ => !isVf fn || (attached s fn n).isSome
      | none => false
    if !fmtOk lbaf then complete s fn 0 cid .invalidFormat
    else if 2 < ses then complete s fn 0 cid .invalidField
    else if nsid = 0xFFFFFFFF then
      complete ((s.ftla.nss.filter (fun e => may e.1 e.2)).foldl (fun s e => match e.2 with
        | some v => formatNs s e.1 lbaf ses v
        | none => s) s) fn 0 cid .success
    else
      match nsOf s nsid with
      | none => complete s fn 0 cid .invalidNs
      | some v =>
        if may nsid (some v) then complete (formatNs s nsid lbaf ses v) fn 0 cid .success
        else complete s fn 0 cid .invalidNs))

/-- Sanitize needs polders 1 to 63 EMPTY (R64). -/
def sanitizeCmd (s : State) (fn cid : Nat) (body : State → State) : State :=
  pfCmd s fn cid (fun s =>
    if s.pol.tab.any (fun e => e.1 != 0 && decide (e.2.st ≠ .empty)) then complete s fn 0 cid .sequenceError
    else complete (body s) fn 0 cid .success)

/-- SANITIZE_BLOCK_ERASE (R64): every block of flash is erased and every logical block deallocated; protected staging is
dropped with them. -/
def execSanitizeBlockErase (fn cid : Nat) (s : State) : Res :=
  .next (sanitizeCmd s fn cid (fun s =>
    let s := s.ftla.nss.foldl (fun s e => match e.2 with
      | some v => resetEntries s v.segs vDealloc
      | none => s) (dropStaged s (fun _ => true))
    let s := modFtla s (fun f => { f with media := [], pages := tmapIf f.pages (fun _ _ => true) (fun p => { p with loc := none }) })
    { s with flcs := s.flcs.map (fun c => (c.1, { c.2 with
        blks := tmapIf c.2.blks (fun _ b => b.st != .unknown) (fun _ => { st := .erased }) })) }))

/-- SANITIZE_CRYPTO_ERASE (R200): a new key pair for every namespace, so that the old data is unreadable. -/
def execSanitizeCryptoErase (fn cid : Nat) (s : State) : Res :=
  .next (sanitizeCmd s fn cid (fun s =>
    s.ftla.nss.foldl (fun s e => match e.2 with
      | some _ => newMediaKey s e.1
      | none => s) (dropStaged s (fun _ => true))))

/-- DEVICE_SELF_TEST (R64): the test of a code 1 or 2 runs within the command; 15 finds none to abort. -/
def execDeviceSelfTest (fn cid : Nat) (code : Nat) (s : State) : Res :=
  .next (pfCmd s fn cid (fun s =>
    if code = 1 ∨ code = 2 then complete (modHost s (fun h => { h with selfTest := code })) fn 0 cid .success
    else if code = 15 then complete s fn 0 cid .success
    else complete s fn 0 cid .invalidField))

end Sys2Proof.Machine
end

