-- ==== Sys2Proof/Machine/Security.lean ====
section
/-! DEFINITION. Security Send and Receive (R202-R209, R457, R460): the key-blob protocol 0xF2 over the transport key, the KEK,
the key slots and the image keys of the function's polder. -/

namespace Sys2Proof.Machine

open Sys2Proof

/-- SECURITY_PROTOCOL_LIST (R457): protocol 0x00, which a Receive with SPSP 0 lists in SPC's layout (six reserved bytes, a
big-endian length, assumption 4); any other protocol, and SPSPs of 0xF2 without a row, are Invalid Field in Command. -/
def execSecurityProtocolList (fn cid : Nat) (send : Bool) (secp spsp : Nat) (s : State) : Res :=
  .next (adminCmd s fn (fun s =>
    if send ∨ secp ≠ 0 ∨ spsp ≠ 0 then complete s fn 0 cid .invalidField
    else complete s fn 0 cid .success 0 0 [0, 0, 0, 0, 0, 0, 0, 2, 0, 0xF2]))

/-- An operation of protocol 0xF2: NSSF is 0 and a Send's transfer length is the operation's, where one is given (R460). -/
def keyCmd (s : State) (fn cid nssf : Nat) (len : Option (Nat × Nat)) (body : State → State) : State :=
  adminCmd s fn (fun s =>
    let bad := match len with
      | some (a, b) => decide (a ≠ b)
      | none => false
    if nssf ≠ 0 ∨ bad = true then complete s fn 0 cid .invalidField else body s)

/-- Answers a Receive with data. -/
def received (s : State) (fn cid : Nat) (data : Bytes) : State := complete s fn 0 cid .success 0 0 data

/-- TRANSPORT_KEY (R205): the transport public key of the function's polder, signed by the attestation key. -/
def execTransportKey (fn cid nssf : Nat) (s : State) : Res :=
  .next (keyCmd s fn cid nssf none (fun s =>
    let p := fnPolder fn
    let b := leBytes 1 p ++ leBytes 1 (tget s.isl.transGen 0 p).toNat ++
      padTo 97 (Config.transportPub (tget s.isl.transDraw 0 p)) ++ padTo 8 Config.attestKeyId
    received s fn cid (b ++ padTo 96 (Config.attestSign b))))

/-- ATTESTATION_CHAIN (R460): the certificate chain, up to 8 KiB. -/
def execAttestationChain (fn cid nssf : Nat) (s : State) : Res :=
  .next (keyCmd s fn cid nssf none (fun s => received s fn cid (Config.attestChain.take 8192)))

/-- The four bytes of a slot in SLOT_STATUS. -/
def slotBytes (k : KeySlot) : Bytes :=
  leBytes 1 (b2n k.key.isSome) ++ leBytes 1 k.gen.toNat ++ leBytes 1 (b2n k.shadow.isSome) ++ leBytes 1 k.alg.toNat

/-- Absolute cipher slots of a polder, ascending. -/
def cipherSlots (s : State) (p : Nat) : List Nat := (List.range 256).filter (fun a => keyOwner s a == p)
/-- Absolute HMAC slots of a polder, ascending. -/
def hmacSlots (s : State) (p : Nat) : List Nat := (List.range 64).filter (fun a => hmacOwner s a == p)

/-- SLOT_STATUS (R460). -/
def execSlotStatus (fn cid nssf : Nat) (s : State) : Res :=
  .next (keyCmd s fn cid nssf none (fun s =>
    let p := fnPolder fn
    let kek := tget s.isl.kek none p
    received s fn cid (leBytes 1 (b2n kek.isSome) ++ leBytes 1 (match kek with
        | some k => k.1.toNat
        | none => 0) ++
      (cipherSlots s p).flatMap (fun a => slotBytes (tget s.isl.keys {} a)) ++
      (hmacSlots s p).flatMap (fun a => slotBytes (tget s.isl.hmacs {} a)))))

/-- QUOTE_NONCE (R460): the nonce of the polder's next quotes. -/
def execQuoteNonce (fn cid nssf : Nat) (data : Bytes) (s : State) : Res :=
  .next (keyCmd s fn cid nssf (some (data.length, 32)) (fun s =>
    complete (modHost s (fun h => { h with nonces := tset h.nonces [] (fnPolder fn) data })) fn 0 cid .success))

/-- A measurement register with its extend count. -/
def quoteReg (s : State) (n : Nat) : Bytes := let m := tget s.isl.meas {} n; padTo 48 m.val ++ leBytes 4 m.cnt.toNat

/-- QUOTE (R228): the nonce (free bytes where the polder has sent none, assumption 3), registers 0 to 7 and 8 + p, signed. -/
def execQuote (fn cid nssf : Nat) (s : State) : Res :=
  .next (keyCmd s fn cid nssf none (fun s =>
    let p := fnPolder fn
    let (n, s) := takeFree s
    let nonce := tget s.host.nonces [] p
    let b := (if nonce.isEmpty then padTo 32 (Config.freeBytes n) else nonce) ++
      (List.range 8).flatMap (quoteReg s) ++ quoteReg s (8 + p)
    received s fn cid (b ++ padTo 96 (Config.attestSign b))))

/-- ESTABLISH (R205): the KEK from the host's key and the transport key, then a new transport key. A key that is no point of
the curve is an invalid field; without a transport key, since an alarm, the sequence is wrong. -/
def execEstablish (fn cid nssf : Nat) (data : Bytes) (s : State) : Res :=
  .next (keyCmd s fn cid nssf (some (data.length, 97)) (fun s =>
    let p := fnPolder fn
    let d := tget s.isl.transDraw 0 p
    let g := tget s.isl.transGen 0 p
    if !Config.p384Valid data then complete s fn 0 cid .invalidField
    else if d = 0 then complete s fn 0 cid .sequenceError
    else
      let s := modIsl s (fun l => { l with kek := tset l.kek none p (some (g, establishKek d data p g)) })
      complete (newTransport s p) fn 0 cid .success))

/-- Length of a blob for a key of `n` bytes. -/
def blobLen (n : Nat) : Nat := 8 + 8 * ((8 + n + 7) / 8) + 8

/-- Are version, kind, algorithm, key length and transfer length of a blob valid (R206)? -/
def blobOk (b : Bytes) : Bool :=
  let kind := leAt b 2 1
  let alg := leAt b 3 1
  let n := leAt b 6 1
  8 ≤ b.length && leAt b 0 2 == 1 && ((kind == 1 && alg == 0 && n == 32) ||
    (kind == 2 && decide (1 ≤ alg) && decide (alg ≤ 3) && decide (16 ≤ n) && decide (n ≤ 128))) && b.length == blobLen n

/-- The absolute slot that a kind and a relative slot name for a polder. -/
def slotFor (s : State) (p kind n : Nat) : Option Nat := if kind = 1 then keySlot s p n else hmacSlot s p n

/-- The HMAC key as the hash block takes it: one longer than the block is hashed first (R206, RFC 2104). -/
def hmacKey (alg : Nat) (key : Bytes) : Bytes := if algBlock (alg - 1) < key.length then hash (alg - 1) key else key

/-- LOAD_KEY (R206): the checks in the order of the table, then the load of R202; an HMAC slot takes the inner and outer states. -/
def execLoadKey (fn cid nssf : Nat) (data : Bytes) (s : State) : Res :=
  .next (keyCmd s fn cid nssf none (fun s =>
    let p := fnPolder fn
    let kind := leAt data 2 1
    match slotFor s p kind (leAt data 4 2), tget s.isl.kek none p with
    | none, _ => complete s fn 0 cid .invalidField
    | some a, kek =>
      if !blobOk data then complete s fn 0 cid .invalidField
      else
        match kek with
        | none => complete s fn 0 cid .sequenceError
        | some (g, k) =>
          if g.toNat ≠ leAt data 7 1 then complete s fn 0 cid .sequenceError
          else
            match Config.keyUnwrap k (data.drop 8) with
            | none => complete s fn 0 cid .accessDenied
            | some b =>
              let n := leAt data 6 1
              if b.take 8 ≠ data.take 8 ∨ b.length ≠ 8 + n then complete s fn 0 cid .accessDenied
              else if (polder s p).st = .teardown then complete s fn 0 cid .tornDown (BitVec.ofNat 32 p)
              else
                let key := b.drop 8
                let s := if kind = 1 then loadCipher s a key
                  else loadHmac s a (hmacStates (leAt data 3 1 - 1) (hmacKey (leAt data 3 1) key)) (BitVec.ofNat 2 (leAt data 3 1))
                complete s fn 0 cid .success))

/-- ERASE_KEY (R203, R204): one slot, or every slot of the polder and its KEK. -/
def execEraseKey (fn cid nssf : Nat) (data : Bytes) (s : State) : Res :=
  .next (keyCmd s fn cid nssf (some (data.length, 4)) (fun s =>
    let p := fnPolder fn
    let kind := leAt data 0 1
    if kind = 3 then
      let s := (cipherSlots s p).foldl eraseCipher s
      let s := (hmacSlots s p).foldl eraseHmac s
      complete (modIsl s (fun l => { l with kek := tset l.kek none p none })) fn 0 cid .success
    else if kind = 1 ∨ kind = 2 then
      match slotFor s p kind (leAt data 2 2) with
      | none => complete s fn 0 cid .invalidField
      | some a => complete (if kind = 1 then eraseCipher s a else eraseHmac s a) fn 0 cid .success
    else complete s fn 0 cid .invalidField))

/-- IMAGE_KEY (R207, R209): the polder's image key, or from the port A PF the operator image key in MRAM. -/
def execImageKey (fn cid nssf : Nat) (data : Bytes) (s : State) : Res :=
  .next (keyCmd s fn cid nssf (some (data.length, 98)) (fun s =>
    let k := data.drop 1
    if 1 < leAt data 0 1 ∨ (leAt data 0 1 = 1 ∧ fn ≠ 0) ∨ Config.p384Valid k = false then complete s fn 0 cid .invalidField
    else if leAt data 0 1 = 1 then complete (modNv s (fun v => { v with opImageKey := some k })) fn 0 cid .success
    else complete (modIsl s (fun l => { l with imageKey := tset l.imageKey none (fnPolder fn) (some k) })) fn 0 cid .success))

/-- ERASE_ALL (R212): alarm 0x07 from the port A PF; from any other function Invalid Field in Command. -/
def execEraseAll (fn cid nssf : Nat) (data : Bytes) (s : State) : Res :=
  .next (keyCmd s fn cid nssf (some (data.length, 0)) (fun s =>
    if fn ≠ 0 then complete s fn 0 cid .invalidField else complete (alarm s 7) fn 0 cid .success))

end Sys2Proof.Machine
end

