-- ==== Sys2Proof/Machine/Polders.lean ====
section
/-! DEFINITION. Polders: lifecycle commands and the ACTIVATE checks (R28-R37), Function Level Reset (R49), teardown (R50-R53)
and the breach FIFO (R42-R45). -/

namespace Sys2Proof.Machine

open Sys2Proof

/-! ## What a controller loses -/

/-- Drops every outstanding command of a function with the flash reads that serve it; no completion is posted (R49, R50, R81). What
a write or a map change without a completion leaves in each block is indeterminate (R52, R81, R463): the model keeps the old data
(DESIGN CHOICE, assumption 65). -/
def dropFn (s : State) (fn : Nat) : State :=
  modFtla (modHost s (fun h => { h with cmds := h.cmds.filter (fun c => c.fn != fn) })) (fun f =>
    { f with reads := f.reads.filter (fun q => match q.who with
      | .cmd a _ _ _ => a != fn
      | _ => true) })

/-- The controller of a function after a reset: queues, features and requests are gone; its secondary state and its queue and
vector resources stay (R62, R81). -/
def resetCtrl (s : State) (fn : Nat) (cc : W32) : State :=
  let s := modCtrl s fn (fun c => { cc := cc, online := c.online, vq := c.vq, vi := c.vi })
  modHost s (fun h => { h with
    sqs := tdrop h.sqs (fun k _ => k / 65536 == fn),
    cqs := tdrop h.cqs (fun k _ => k / 65536 == fn),
    enClears := h.enClears.filter (fun f => f != fn) })

/-- The controller of a polder in TEARDOWN commits no further entry: its requests and events are gone. Its queues stay with the
entries committed before step 1, which are still posted (R52; assumption 42). -/
def muteCtrl (s : State) (fn : Nat) : State := modCtrl s fn (fun c => { c with aers := [], events := [], aborts := [] })

/-! ## Stopping a polder -/

/-- Ends a job at once without a completion: the blocks that it wrote become void (R107). Its buffers return through the audit of
the polder (R49, R50). -/
def killJob (s : State) (j : Nat) : State :=
  match job s j with
  | none => s
  | some v => closeJob (releaseJob s j) j { v with st := .ending, result := none, aborted := none }

/-- The jobs of a polder. -/
def polJobs (s : State) (p : Nat) : List Nat :=
  (s.jobs.filter (fun e => match e.2 with
    | some v => v.polder == p
    | none => false)).map Prod.fst

/-- The rings that a polder owns. -/
def polRings (s : State) (p : Nat) : List Nat := (List.range 256).filter (fun r => ringOwner s r == p)

/-- Stops a polder's work (R49; R50 steps 2 to 4, 6 and 7): commands dropped, jobs ended, cores scrubbed, rings released,
contexts erased, buffers returned through the audit. -/
def stopPolder (s : State) (p : Nat) : State :=
  let s := dropFn s p
  let s := (polJobs s p).foldl killJob s
  let own := polder s p
  let mine := fun (e : Nat × Core) => !isService s e.1 && (e.2.polder == p || ownsCore own e.1)
  let cs := s.cores.map (fun e => if mine e then (e.1, emptyCore e.2) else e)
  let s := (s.cores.filter mine).foldl (fun s e => clearLdm s e.1) { s with cores := cs.filter (fun e => decide (e.2 ≠ {})) }
  let s := (polRings s p).foldl releaseRing s
  auditFree s p (fun b => b.owner == p)

/-- FLR of VF k (R36, R49): the polder keeps its state, its keys, its partition, its SLM and its images; in TEARDOWN it is
ignored. -/
def flrPolder (s : State) (p : Nat) : State := if (polder s p).st = .teardown then s else stopPolder s p

/-! ## ACTIVATE -/

/-- Is a range within `cap`, from `lo` up to `hi`, or empty? -/
def rangeIn (first n cap lo hi : Nat) : Bool := decide (n ≤ cap) && (n == 0 || (decide (lo ≤ first) && decide (first + n ≤ hi)))

/-- Check 2: the offset of the first register that fails. -/
def capFail (s : State) (r : PolRes) : Option Nat :=
  if (List.range 32).any (fun c => r.cores.getLsbD c && (core s c).absent) then some 0x48
  else if !rangeIn (fld r.rings 7 0) (fld r.rings 23 16) 64 0 256 then some 0x4C
  else if 12288 < fld r.bufq 13 0 then some 0x50
  else if !rangeIn (fld r.keys 7 0) (fld r.keys 24 16) 256 0 256 then some 0x54
  else if !rangeIn (fld r.hmac 5 0) (fld r.hmac 22 16) 64 0 64 then some 0x58
  else if 64 < fld r.ctx 6 0 then some 0x5C
  else if !rangeIn (fld r.srch 7 0) (fld r.srch 24 16) 256 0 256 then some 0x60
  else if !rangeIn (fld r.slm 12 0) (fld r.slm 28 16) 6144 0 6144 then some 0x64
  else if !rangeIn (fld r.img 11 0) (fld r.img 27 16) 1536 512 2048 then some 0x68
  else none

/-- The ranges of a record, with the register of each, in the order of check 4. -/
def resRanges (r : PolRes) : List (Nat × Nat × Nat) :=
  [(0x4C, fld r.rings 7 0, fld r.rings 23 16), (0x54, fld r.keys 7 0, fld r.keys 24 16),
   (0x58, fld r.hmac 5 0, fld r.hmac 22 16), (0x60, fld r.srch 7 0, fld r.srch 24 16),
   (0x64, fld r.slm 12 0, fld r.slm 28 16), (0x68, fld r.img 11 0, fld r.img 27 16)]

/-- Check 4 against one other polder: the lowest register of a resource that both name. -/
def conflict (r o : PolRes) : Option Nat :=
  if r.cores &&& o.cores ≠ 0 then some 0x48
  else (((resRanges r).zip (resRanges o)).find? (fun x => spansMeet x.1.2 x.2.2 && x.1.2.2 != 0 && x.2.2.2 != 0)).map
    (fun x => x.1.1)

/-- The polders other than 0 and `p` that are not EMPTY, with their records. -/
def otherPolders (s : State) (p : Nat) : List (Nat × Polder) :=
  s.pol.tab.filter (fun e => e.1 != 0 && e.1 != p && decide (e.2.st ≠ .empty))

/-- Check 4 against polders in ascending order: the lowest register that conflicts, then the lowest polder it conflicts with; which
conflict is named where several polders conflict the spec leaves open (DESIGN CHOICE, assumption 41). -/
def firstConflict (r : PolRes) (others : List (Nat × Polder)) : Option (Nat × Nat) :=
  others.foldl (fun best e =>
    match conflict r e.2.own, best with
    | some off, some (o, q) => some (if off < o then (off, e.1) else (o, q))
    | some off, none => some (off, e.1)
    | none, b => b) none

/-- The ACTIVATE checks in order (R33): error code, register offset and other polder of the first that fails. Check 1 is taken
as met for option-area polders (R389). -/
def actCheck (s : State) (p : Nat) (option : Bool) : Option (Nat × Nat × Nat) :=
  let r := (polder s p).res
  let others := otherPolders s p
  if !option && !(s.host.vfEnable && decide (p ≤ s.host.numVfs)) then some (0x46, 0, 0)
  else
    match capFail s r with
    | some off => some (0x43, off, 0)
    | none =>
      if s.rst.service.any (fun c => r.cores.getLsbD c) then some (0x44, 0x48, 0)
      else
        match firstConflict r others with
        | some (off, q) => some (0x42, off, q)
        | none =>
          if 10240 < fld r.bufq 13 0 + (others.map (fun e => fld e.2.own.bufq 13 0)).sum then some (0x45, 0x50, 0)
          else none

/-- The ownership records take effect (R33, R36): range sets that now lie outside POL_SLM are stale (R110), entries that the
partition does not share with the polder are invalidated (R254). -/
def grantPolder (s : State) (p : Nat) : State :=
  let s := modPolder s p (fun v => { v with st := .active, drained := false, own := v.res })
  let size := slmSize (polder s p)
  let out := fun (k : Nat) (v : Option RSet) => k / 65536 == p && (match v with
    | some g => g.ranges.any (fun r => decide (size < r.1 + r.2))
    | none => false)
  let rs := tmapIf s.rsets out (fun v => v.map (fun g => { g with stale := true }))
  let s := { s with rsets := rs }
  dropEntries s p (fun i e => if srchOwner s i = p then e.polder != p else e.polder == p)

/-- Runs ACTIVATE: the error that it records, or the grant. -/
def activatePolder (s : State) (p : Nat) (option : Bool) (stamp : Nat) : State :=
  match actCheck s p option with
  | some (code, off, other) => errRec s (frameOf 2 0 (p + 1)) stamp code (put other 21 16 ||| put off 11 0)
  | none => grantPolder s p

/-! ## PROVISION -/

/-- PROVISION (R35, R205, R209, R366): a new generation with resource registers, breach count and progress cleared, a transport
key pair, no image key, an account of 0 with weight 16 and no cap. -/
def provisionPolder (s : State) (p : Nat) : State :=
  let s := modPolder s p (fun v => { v with
    st := .provisioning, gen := v.gen + 1, drained := false, res := {}, own := {}, breaches := 0, progress := 0 })
  let s := modIsl s (fun l => { l with kek := tset l.kek none p none, imageKey := tset l.imageKey none p none })
  modAcct (newTransport s p) p (fun a => { a with
    bal := 0, refill := 0, pend := 0, est := 0, est12 := 0, weight := 16, cap := 0, weightNext := none })

/-! ## Teardown -/

/-- The key material of a polder is erased (R50 step 5, R208, R209). -/
def eraseKeys (s : State) (p : Nat) : State :=
  let s := (cipherSlots s p).foldl eraseCipher s
  let s := (hmacSlots s p).foldl eraseHmac s
  modIsl s (fun l => { l with
    kek := tset l.kek none p none, transDraw := tset l.transDraw 0 p 0, imageKey := tset l.imageKey none p none,
    cctx := tmapIf l.cctx (fun _ c => c.used && c.polder == p) (fun c => { seq := c.seq }) |>.filter (fun e => decide (e.2 ≠ {})),
    dctx := tmapIf l.dctx (fun _ c => c.used && c.polder == p) (fun c => { seq := c.seq }) |>.filter (fun e => decide (e.2 ≠ {})) })

/-- Teardown of a polder that is not EMPTY: steps 1 to 7 (assumption 7); progress bits 0 to 5. The times of R50 are maximum values:
each of these steps ends with the trigger. -/
def teardownPolder (s : State) (p : Nat) : State :=
  let st := (polder s p).st
  if st = .empty ∨ st = .teardown then s
  else
    let s := modPolder s p (fun v => { v with st := .teardown, drained := false, progress := 0x3F, tdStart := s.now })
    eraseKeys (muteCtrl (stopPolder s p) p) p

/-- The memory instances and lines of a span of DRAM are no longer poisoned: it has been written whole. -/
def clearSpan (s : State) (a n : Nat) : State :=
  let hit := fun (k : Nat) => decide (162 ≤ k / 4294967296) && decide (a ≤ k % 4294967296 * 64) && decide (k % 4294967296 * 64 < a + n)
  modMemi s (fun m => { m with bad := tdrop m.bad (fun k _ => hit k), flips := tdrop m.flips (fun k _ => hit k) })

/-- Zeroes a span of DRAM. -/
def zeroSpanDram (s : State) (a n : Nat) : State :=
  let s := clearSpan s a n
  { s with dram := zeroBytes s.dram a n }

/-- Step 8 of teardown: SLM and images zeroed, the partition invalidated, the bucket shift 0. -/
def zeroPolder (s : State) (p : Nat) : State :=
  let v := polder s p
  let s := zeroSpanDram s (slmBase + slmFirst v) (slmSize v)
  let s := zeroSpanDram s (imgBase + imgFirst v) (imgSize v)
  let inSlm := fun (b : Nat) => decide (slmFirst v ≤ b * 65536) && decide (b * 65536 < slmFirst v + slmSize v)
  let s := { s with void := s.void.filter (fun b => !inSlm b) }
  let s := modIsl s (fun l => { l with fence := tdrop l.fence (fun b _ => inSlm b) })
  let s := dropEntries s p (fun i e => e.polder == p || srchOwner s i == p)
  modSrch s (fun c => { c with
    shift := tset c.shift 0 p 0, busy := tset c.busy false p false, shifting := c.shifting.filter (fun x => x.2.1 != p) })

/-- Namespaces of a controller go back to polder 0, detached (R50 step 9). -/
def detachAll (s : State) (p : Nat) : State :=
  s.ftla.nss.foldl (fun s e => match e.2 with
    | some v => if v.ctrl = some p then setNs s e.1 (some { v with ctrl := none, owner := 0 }) else s
    | none => s) s

/-- Steps 8 and 9 of teardown: the polder's search counters are cleared with the core counters, its controller is reset; state EMPTY,
the event of R76 (R50, R101, R366; assumption 42). -/
def endTeardown (s : State) (p : Nat) : State :=
  let s := resetCtrl (detachAll (zeroPolder s p) p) p 0
  let s := modSrch s (fun c => { c with lkp := tset c.lkp 0 p 0, rows := tset c.rows 0 p 0 })
  let s := { s with progs := tdrop s.progs (fun k _ => k / 16 == p), rsets := tdrop s.rsets (fun k _ => k / 65536 == p) }
  let s := modIsl s (fun l => { l with meas := tset l.meas {} (8 + p) {} })
  let s := modAcct s p (fun a => { a with bal := 0, refill := 0, pend := 0, est := 0, est12 := 0 })
  let s := modPolder s p (fun v => { v with
    st := .empty, own := {}, progress := 0xFF, tdDone := true, tdTime := calNow s })
  postVendor s 1

/-- A resource register takes a value: its rsvd bits stay zero. -/
def resPut (r : PolRes) (n : Nat) (v : W32) : PolRes :=
  match n with
  | 0 => { r with cores := v }
  | 1 => { r with rings := v &&& 0x00FF00FF }
  | 2 => { r with bufq := v &&& 0x3FFF }
  | 3 => { r with keys := v &&& 0x01FF00FF }
  | 4 => { r with hmac := v &&& 0x007F003F }
  | 5 => { r with ctx := v &&& 0x7F }
  | 6 => { r with srch := v &&& 0x01FF00FF }
  | 7 => { r with slm := v &&& 0x1FFF1FFF }
  | _ => { r with img := v &&& 0x0FFF0FFF }

/-! ## The commands of POL_CMD -/

/-- A command of POL_CMD (R35): 1 PROVISION, 2 ACTIVATE, 3 QUIESCE, 4 TEARDOWN; any other value names none. -/
def polCommand (s : State) (ini : Ini) (p n : Nat) : State :=
  let f := frameOf 2 0 (p + 1)
  let st := (polder s p).st
  if n = 0 ∨ 5 ≤ n then errAt s ini f 0x47 0x44
  else if p = 0 then wrongState s ini f 0x44
  else if n = 1 ∧ st = .empty then provisionPolder s p
  else if n = 2 ∧ (st = .provisioning ∨ st = .quiescing) then activatePolder s p false (iniStamp s ini)
  else if n = 3 ∧ st = .active then modPolder s p (fun v => { v with st := .quiescing, drained := false })
  else if n = 4 ∧ st = .teardown then s
  else if n = 4 ∧ st ≠ .empty then teardownPolder s p
  else wrongState s ini f 0x44

/-- A write of POL_CMD, key-gated (R29). -/
def polCmdWrite (s : State) (ini : Ini) (p : Nat) (v : W32) : State :=
  match kgOpen s ini (frameOf 2 0 (p + 1)) 0x44 with
  | (true, s) => polCommand s ini p (fld v 2 0)
  | (false, s) => s

/-- The write of POL_CMD of polder `p` through its page. -/
def polCmdAt (ini : Ini) (p : Nat) (v : W32) (s : State) : State :=
  if p < 64 then pageWrite s ini (frameOf 2 0 (p + 1)) 0x44 (fun s => polCmdWrite s ini p v) else s

/-- PROVISION (R35). -/
def execProvision (ini : Ini) (p : Nat) (s : State) : Res := .next (polCmdAt ini p 1 s)

/-- ACTIVATE (R33, R34). -/
def execActivate (ini : Ini) (p : Nat) (s : State) : Res := .next (polCmdAt ini p 2 s)

/-- QUIESCE (R36). -/
def execQuiesce (ini : Ini) (p : Nat) (s : State) : Res := .next (polCmdAt ini p 3 s)

/-- Has a polder a command, a job or a core in flight (R36)? -/
def polBusy (s : State) (p : Nat) : Bool :=
  s.host.cmds.any (fun c => fnPolder c.fn == p) || !(polJobs s p).isEmpty ||
  s.cores.any (fun e => !isService s e.1 && e.2.polder == p && decide ((coreNow s e.1).st ≠ .free))

/-- POLDER_DRAINED (R36): nothing of a QUIESCING polder is in flight any longer. -/
def execPolderDrained (p : Nat) (s : State) : Res :=
  .next (if p ≠ 0 ∧ p < 64 ∧ (polder s p).st = .quiescing ∧ polBusy s p = false then
    modPolder s p (fun v => { v with drained := true })
  else s)

/-- TEARDOWN (R50-R52). -/
def execTeardown (ini : Ini) (p : Nat) (s : State) : Res := .next (polCmdAt ini p 4 s)

/-- TEARDOWN_HALT_TIMEOUT (R53): a core that reaches no instruction boundary within 2 µs, an engine that reaches no descriptor
boundary within 50 µs, is stopped by force and reported. -/
def execTeardownHaltTimeout (p : Nat) (late : LateUnit) (s : State) : Res :=
  .next (if (polder s p).st ≠ .teardown then s
  else
    match late with
    | .core n =>
      if ownsCore (polder s p) n && decide (n < 32) && decide ((polder s p).tdStart + 2 ≤ s.now) then reportBy s 2 0 8 n 1 else s
    | .engine i =>
      if i ≤ 28 ∧ (polder s p).tdStart + 50 ≤ s.now then reportBy s 2 0 9 i 1 else s)

/-- TEARDOWN_COMPLETE (R50 steps 8 and 9): the times are maximum values, so the end may come at any time after the trigger. -/
def execTeardownComplete (p : Nat) (s : State) : Res :=
  .next (if p ≠ 0 ∧ p < 64 ∧ (polder s p).st = .teardown then endTeardown s p else s)

/-! ## Breach records -/

/-- The read of POL_BR_W0 (R42, R45): word 0 of the oldest record; words 1 to 3 are latched. With an empty FIFO W0 reads zero; that
words 1 to 3 then read zero too, and not the last latched words, is the model's (DESIGN CHOICE, assumption 64). -/
def brW0Read (s : State) : W32 × State :=
  match s.pol.fifo with
  | [] => (0, { s with pol := { s.pol with w1 := 0, w2 := 0, w3 := 0 } })
  | r :: _ => (r.w0, { s with pol := { s.pol with w1 := r.w1, w2 := r.w2, w3 := r.w3 } })

/-- A write of POL_BR_POP (R42-R44): the oldest record goes; the last one clears `lost` and may arm the FIFO again. -/
def brPop (s : State) : State :=
  match s.pol.fifo with
  | [] => s
  | [_] => rearm { s with pol := { s.pol with fifo := [], lost := 0 } }
  | _ :: r => { s with pol := { s.pol with fifo := r } }

/-- BREACH_RECORD_READ (R42). -/
def execBreachRecordRead (ini : Ini) (s : State) : Res := .next (readAnswer (pageRead s ini (frameOf 2 0 0) 0x50 brW0Read))

/-- BREACH_RECORD_POP (R42). -/
def execBreachRecordPop (ini : Ini) (_v : W32) (s : State) : Res :=
  .next (pageWrite s ini (frameOf 2 0 0) 0x60 brPop)

end Sys2Proof.Machine
end

