-- ==== Sys2Proof/Machine/Controllers.lean ====
section
/-! DEFINITION. Controllers and functions: links (R54, R56), CC and CSTS (R58, R60, R81, R82, R391), the narrower resets
(R386-R390), SR-IOV (R28, R50) and Virtualization Management (R61, R62). -/

namespace Sys2Proof.Machine

open Sys2Proof

/-- Is the link of a function's port up (R391: its BAR0 answers from link-up)? -/
def linkUp (s : State) (fn : Nat) : Bool := if fn = 64 then s.host.portB.up else s.host.portA.up

/-- Does the module boot or has it no power: no narrower reset has an effect (R390)? -/
def booting (s : State) : Bool := !s.rst.ready && !s.rst.failed

/-- Changes the port of an instance. -/
def setPort (s : State) (j : Nat) (p : Port) : State := modHost s (fun h => if j = 0 then { h with portA := p } else { h with portB := p })

/-- Lanes that a link of at most `n` trains to. -/
def laneWidth (n : Nat) : Nat := if 8 ≤ n then 8 else if 4 ≤ n then 4 else if 2 ≤ n then 2 else n

/-- LINK_TRAINING (R54, R2, R6): 64 GT/s in FLIT mode where the partner supports it, else 32, else 16 GT/s; below that the link
stays in Detect. -/
def execLinkTraining (port speed width : Nat) (flit : Bool) (s : State) : Res :=
  .next (if 2 ≤ port ∨ (port = 1 ∧ dual s = false) ∨ domainRuns s (1 + port) = false then s
  else
    let w := laneWidth (min width (if dual s then 4 else 8))
    if w = 0 ∨ speed < 16 then setPort s port { detect := true }
    else if 64 ≤ speed ∧ flit = true then setPort s port { up := true, flit := true, width := w, speed := 6 }
    else if 32 ≤ speed then setPort s port { up := true, width := w, speed := 5 }
    else setPort s port { up := true, width := w, speed := 4 })

/-! ## Configuration space (R54, R56, R57) -/

/-- What a function's configuration space shows of the spec's tables; no command of the table reads it (assumption 65). -/
structure PciFn where
  vendor : Nat := 0x1F3C
  device : Nat := 0x0256
  subVendor : Nat := 0x1F3C
  subDevice : Nat := 0x0256
  sriov : Bool := false
  ari : Bool := true
  /-- sizes that BAR0/1, BAR2/3 and BAR4/5 answer to a size probe; 0 reads as zero -/
  bar0 : Nat := 65536
  bar2 : Nat := 0
  bar4 : Nat := 65536
  msix : Nat := 64
  deriving DecidableEq, Repr

/-- The configuration space of a function: the port A PF with SR-IOV, and BAR2/3 of 16 MiB where the option area enables the control
window; a VF with its device ID; the port B PF with neither SR-IOV nor ARI, and no BAR2. -/
def pciFn (s : State) (fn : Nat) : PciFn :=
  if isVf fn then { device := 0x0257, msix := (ctrl s fn).vi }
  else if fn = 64 then { ari := false }
  else { sriov := true, bar2 := if s.rst.bar2 then 16777216 else 0 }

/-- CAP of a controller: MQES, CQR, AMS, TO, DSTRD, NSSRS, CSS; the other fields are 0. -/
def capReg (fn : Nat) : BitVec 64 :=
  BitVec.ofNat 64 (0x0FFF + 2 ^ 16 + 60 * 2 ^ 24 + (if fn = 0 then 2 ^ 36 else 0) + 0x41 * 2 ^ 37)

/-- VS: NVMe 2.1. -/
def vsReg : W32 := 0x00020100

/-- CC.CSS values that the module supports (R58). -/
def cssOk (cc : W32) : Bool := fld cc 6 4 == 0 || fld cc 6 4 == 6

/-- CONTROLLER_ENABLE (R58, R60, R391): CC.EN goes from 0 to 1. The admin queue pair exists from then on. An unsupported CC.CSS, a
boot that failed (R393) or a thermal shutdown (R372) sets CSTS.CFS. -/
def execControllerEnable (fn : Nat) (cc : W32) (s : State) : Res :=
  .next (if present s fn = false ∨ linkUp s fn = false ∨ cc.getLsbD 0 = false ∨ (ctrl s fn).cc.getLsbD 0 = true then s
  else
    let s := modCtrl s fn (fun c => { c with
      cc := cc, rdy := false, shst := 0, cfs := !cssOk cc || s.rst.failed || s.pw.thermal })
    setCq (setSq s fn 0 (some { size := 4096, cq := 0 })) fn 0 (some { size := 4096 }))

/-- CONTROLLER_READY (R60, R391): CSTS.RDY is set once RST_STAT.ready is 1 and, for a VF, its secondary controller is Online and
its polder ACTIVE. -/
def execControllerReady (fn : Nat) (s : State) : Res :=
  .next (let c := ctrl s fn
    if present s fn && c.cc.getLsbD 0 && !c.rdy && !c.cfs && s.rst.ready && s.nv.failedDev == 0 && s.drc.failedCh == 0 &&
        (!isVf fn || (c.online && (polder s fn).st == .active)) then
      modCtrl s fn (fun c => { c with rdy := true })
    else s)

/-- Ends the jobs of a controller without a completion: they go straight to ENDING (R107). -/
def dropJobs (s : State) (fn : Nat) : State :=
  s.jobs.foldl (fun s e => match e.2 with
    | some v => if v.fn = fn then modJob (endJob s e.1 none) e.1 (fun v => { v with result := none, aborted := none }) else s
    | none => s) s

/-- The reach of a controller reset (R81): a VF's has that of an FLR; a PF's ends polder 0's commands on that controller. -/
def ctrlReset (s : State) (fn : Nat) (cc : W32) : State :=
  let s := if isVf fn then flrPolder s fn else dropJobs (dropFn s fn) fn
  resetCtrl s fn cc

/-- Step 1 of a firmware activation (R84): fetching stops on every queue of every function, and each function that has the
notice enabled receives it. -/
def startActivation (s : State) (a : FwAct) : State :=
  let s := modHost s (fun h => { h with fwAct := some a })
  (List.range 65).foldl (fun s f => if running s f then notice s f 1 3 9 else s) s

/-- The switch to the marked image that a controller reset of the port A PF starts (R85, R403). -/
def switchImage (s : State) (fn : Nat) : State :=
  if fn = 0 ∧ s.host.fwPending = true ∧ s.host.fwAct.isNone then
    startActivation (modHost s (fun h => { h with fwPending := false }))
      { fn := 0, cid := 0, slot := b2n s.nv.active + 1, t := s.now, byReset := true }
  else s

/-- CONTROLLER_RESET (R81, R85): CC.EN goes from 1 to 0; during a firmware activation it takes effect after step 6. While a wider
reset is in progress it has no further effect (R390). -/
def execControllerReset (fn : Nat) (s : State) : Res :=
  .next (if present s fn = false ∨ (ctrl s fn).cc.getLsbD 0 = false ∨ booting s = true ∨ s.pol.reactivate = true then s
  else if s.host.fwAct.isSome then
    modHost s (fun h => { h with enClears := if h.enClears.contains fn then h.enClears else h.enClears ++ [fn] })
  else switchImage (ctrlReset s fn ((ctrl s fn).cc &&& 0xFFFFFFFE)) fn)

/-- NORMAL_SHUTDOWN (R82): CC.SHN asks for a normal shutdown; CSTS.SHST reads 0b01 while it is in progress. -/
def execNormalShutdown (fn : Nat) (s : State) : Res :=
  .next (if present s fn && (ctrl s fn).cc.getLsbD 0 && (ctrl s fn).shst == 0 then
    modCtrl s fn (fun c => { c with shst := 1, cc := (c.cc &&& 0xFFFF3FFF) ||| 0x4000 })
  else s)

/-- SHUTDOWN_COMPLETE (R82): protected staging is drained to the medium and the journal is at rest. -/
def execShutdownComplete (fn : Nat) (s : State) : Res :=
  .next (if (ctrl s fn).shst = 1 ∧ s.ftla.staging.isEmpty = true ∧ s.ftla.replaying = false ∧ s.ftla.writeback = false then
    modCtrl s fn (fun c => { c with shst := 2 })
  else s)

/-! ## SR-IOV -/

/-- Tears down the polders of a list, in parallel (R50). -/
def teardownAll (s : State) (ps : List Nat) : State := ps.foldl teardownPolder s

/-- The VFs above a number: 1 to 63. -/
def vfsAbove (n : Nat) : List Nat := (List.range 64).filter (fun k => decide (n < k))

/-- VF_ENABLE_SET (R33): the host sets NumVFs and VF Enable; TotalVFs is 63. -/
def execVfEnableSet (numVfs : Nat) (s : State) : Res :=
  .next (if s.host.vfEnable ∨ 63 < numVfs ∨ s.host.portA.up = false then s
  else modHost s (fun h => { h with vfEnable := true, numVfs := numVfs }))

/-- VF_ENABLE_CLEAR (R50): the VFs disappear and every polder 1 to 63 is torn down. -/
def execVfEnableClear (s : State) : Res :=
  .next (if s.host.vfEnable then
    let s := modHost s (fun h => { h with vfEnable := false })
    (vfsAbove 0).foldl (fun s k => resetCtrl (dropFn s k) k 0) (teardownAll s (vfsAbove 0))
  else s)

/-- NUMVFS_LOWER (R50): every polder numbered above the new value is torn down. -/
def execNumvfsLower (n : Nat) (s : State) : Res :=
  .next (if n < s.host.numVfs then
    let s := modHost s (fun h => { h with numVfs := n })
    (vfsAbove n).foldl (fun s k => resetCtrl (dropFn s k) k 0) (teardownAll s (vfsAbove n))
  else s)

/-! ## The narrower resets (R386-R390) -/

/-- What a port A conventional reset and a port A PF FLR share: every function of port A, VF Enable cleared, polders 1 to 63 torn
down; RST activates the option-area polders again once they are EMPTY (R388). -/
def portAReset (s : State) : State :=
  let s := modHost s (fun h => { h with vfEnable := false, numVfs := 0 })
  let s := teardownAll s (vfsAbove 0)
  let s := (vfsAbove 0).foldl (fun s k => resetCtrl (dropFn s k) k 0) s
  let s := switchImage (ctrlReset s 0 0) 0
  { s with pol := { s.pol with reactivate := true } }

/-- PORT_A_CONVENTIONAL_RESET (R386, R444): the link goes down with it. -/
def execPortAConventionalReset (s : State) : Res :=
  .next (if booting s then s
  else if s.pol.reactivate then setPort s 0 {}
  else setPort (portAReset s) 0 {})

/-- PORT_A_PF_FLR (R386): the link stays up. -/
def execPortAPfFlr (s : State) : Res := .next (if booting s ∨ s.pol.reactivate = true then s else portAReset s)

/-- PORT_B_CONVENTIONAL_RESET (R386): the port B controller, as R81; with `flr` the FLR of the port B PF, which keeps the link. -/
def execPortBConventionalReset (flr : Bool) (s : State) : Res :=
  .next (if dual s = false ∨ booting s = true ∨ s.pol.reactivate = true then s
  else
    let s := ctrlReset s 64 0
    if flr then s else setPort s 1 {})

/-- VF_FLR (R36, R49): polder k keeps its state; in QUIESCING it is drained once the FLR ends. -/
def execVfFlr (k : Nat) (s : State) : Res :=
  .next (if isVf k = false ∨ present s k = false ∨ booting s = true ∨ s.pol.reactivate = true ∨ (polder s k).st = .teardown then s
  else
    let s := resetCtrl (flrPolder s k) k 0
    if (polder s k).st = .quiescing then modPolder s k (fun v => { v with drained := true }) else s)

/-! ## Virtualization Management -/

/-- VQ resources of the flexible pool (R61). -/
def poolVq (s : State) : Nat := if dual s then 3968 else 4032
/-- VI resources of the flexible pool (R61). -/
def poolVi (s : State) : Nat := if dual s then 1920 else 1984
/-- A resource that the other secondary controllers hold. -/
def heldBy (s : State) (k : Nat) (f : Ctrl → Nat) : Nat :=
  ((s.host.ctrls.filter (fun e => isVf e.1 && e.1 != k)).map (fun e => f e.2)).sum

/-- One action on secondary controller `k` (R62). The spec names the status of the Online action only; an assignment above 1,024 or
above the pool ends in the same way (DESIGN CHOICE, assumption 65). -/
def virtAction (s : State) (fn cid k : Nat) : VirtAct → State
  | .offline => complete (modCtrl (ctrlReset s k 0) k (fun c => { c with online := false })) fn 0 cid .success
  | .online =>
    if (ctrl s k).vq < 2 ∨ (ctrl s k).vi < 1 then complete s fn 0 cid .invalidResources
    else complete (modCtrl s k (fun c => { c with online := true })) fn 0 cid .success
  | .assignVq n =>
    if (ctrl s k).online then complete s fn 0 cid .secondaryState
    else if 1024 < n ∨ poolVq s < heldBy s k (fun c => c.vq) + n then complete s fn 0 cid .invalidResources
    else complete (modCtrl s k (fun c => { c with vq := n })) fn 0 cid .success (BitVec.ofNat 32 n)
  | .assignVi n =>
    if (ctrl s k).online then complete s fn 0 cid .secondaryState
    else if 1024 < n ∨ poolVi s < heldBy s k (fun c => c.vi) + n then complete s fn 0 cid .invalidResources
    else complete (modCtrl s k (fun c => { c with vi := n })) fn 0 cid .success (BitVec.ofNat 32 n)

/-- VIRTUALIZATION_MANAGEMENT (R61, R62): the port A PF is the primary controller. -/
def execVirtualizationManagement (fn cid : Nat) (act : VirtAct) (cntlid : Nat) (s : State) : Res :=
  .next (pfCmd s fn cid (fun s =>
    if fn ≠ 0 ∨ isVf cntlid = false then complete s fn 0 cid .invalidController
    else if (polder s cntlid).st = .teardown then complete s fn 0 cid .tornDown (BitVec.ofNat 32 cntlid)
    else virtAction s fn cid cntlid act))

end Sys2Proof.Machine
end

