-- ==== Sys2Proof/Machine/Firmware.lean ====
section
/-! DEFINITION. Firmware images (R5, R401-R403), Firmware Commit and activation without reset (R84, R85), the start of the
service cores. -/

namespace Sys2Proof.Machine

open Sys2Proof

/-! ## Images -/

/-- Security version of a firmware image (R401). -/
def fwVersion (im : Bytes) : Nat := leAt im 56 2
/-- Is "raise the minimum" set? -/
def fwRaises (im : Bytes) : Bool := leAt im 58 2 % 2 == 1

/-- The operator firmware key in force: the fuses of -V permit none (R2, R5). -/
def operatorKey (s : State) : Option Bytes := if s.fuse.code = 0 then none else s.rst.opKey

/-- The checks of R402 in order: the status of the first that fails. -/
def fwCheck (s : State) (im : Bytes) : Option NStat :=
  let keys := [some Config.spagoernKey, operatorKey s].filterMap id
  if !formatOk im true then some .invalidFirmware
  else if !keys.any (signedBy im) then some .invalidFirmware
  else if fwVersion im < s.nv.svnMin.toNat then some .activationProhibited
  else none

/-- The image that the download area holds: as long as its header says. -/
def downloaded (s : State) : Bytes := s.nv.download.take (leAt s.nv.download 8 4)

/-- Bytes of a download area or slot: 32 MiB. -/
def fwArea : Nat := 33554432

/-- FIRMWARE_IMAGE_DOWNLOAD (R401): writes the download area in dwords. -/
def execFirmwareImageDownload (fn cid off : Nat) (data : Bytes) (s : State) : Res :=
  .next (pfCmd s fn cid (fun s =>
    if data.length % 4 ≠ 0 ∨ data.isEmpty = true ∨ off % 4 ≠ 0 ∨ 2097152 < data.length ∨ fwArea < off + data.length then
      complete s fn 0 cid .invalidField
    else complete (modNv s (fun v => { v with download := patch v.download off data })) fn 0 cid .success))

/-! ## Slots -/

/-- The image of slot 1 or 2. -/
def slotImage (s : State) (n : Nat) : Bytes := if n = 2 then s.nv.slot2 else s.nv.slot1
/-- Writes a slot. -/
def putSlot (s : State) (n : Nat) (im : Bytes) : State :=
  modNv s (fun v => if n = 2 then { v with slot2 := im } else { v with slot1 := im })
/-- The slot that a Firmware Commit names: 0 is the one that is not running. -/
def slotNo (s : State) (n : Nat) : Nat := if n = 0 then (if s.rst.slot then 1 else 2) else n
/-- Marks a slot active (R390). -/
def markSlot (s : State) (n : Nat) : State := modNv s (fun v => { v with active := n == 2 })

/-- A Firmware Commit of a slot: the image that the action names passes the checks of R402, or the command ends. -/
def commitCmd (s : State) (fn cid slot : Nat) (im : State → Nat → Bytes) (body : Nat → Bytes → State → State) : State :=
  pfCmd s fn cid (fun s =>
    if 2 < slot then complete s fn 0 cid .invalidField
    else
      let n := slotNo s slot
      match fwCheck s (im s n) with
      | some e => complete s fn 0 cid e
      | none => body n (im s n) s)

/-- FIRMWARE_COMMIT_REPLACE (R402): action 0 copies the download area into the slot. -/
def execFirmwareCommitReplace (fn cid slot : Nat) (s : State) : Res :=
  .next (commitCmd s fn cid slot (fun s _ => downloaded s) (fun n im s => complete (putSlot s n im) fn 0 cid .success))

/-- FIRMWARE_COMMIT_REPLACE_ACTIVATE (R402, R390): action 1 also marks the slot active for the next reset. -/
def execFirmwareCommitReplaceActivate (fn cid slot : Nat) (s : State) : Res :=
  .next (commitCmd s fn cid slot (fun s _ => downloaded s) (fun n im s =>
    complete (modHost (markSlot (putSlot s n im) n) (fun h => { h with fwPending := true })) fn 0 cid .success))

/-- FIRMWARE_COMMIT_ACTIVATE (R402, R390): action 2 marks an already stored slot active. -/
def execFirmwareCommitActivate (fn cid slot : Nat) (s : State) : Res :=
  .next (commitCmd s fn cid slot (fun s n => slotImage s n) (fun n _ s =>
    complete (modHost (markSlot s n) (fun h => { h with fwPending := true })) fn 0 cid .success))

/-- FIRMWARE_ACTIVATION_WITHOUT_RESET (R84): action 3; fetching stops on every queue of every function, and each function that has
the notice enabled receives it. -/
def execFirmwareActivationWithoutReset (fn cid slot : Nat) (s : State) : Res :=
  .next (commitCmd s fn cid slot (fun s _ => downloaded s) (fun n im s =>
    startActivation (addCmd (putSlot s n im) fn 0 cid 0 .activate) { fn := fn, cid := cid, slot := n, t := s.now }))

/-! ## The service cores -/

/-- A service core as it starts on an image: system mode, polder 0, at the entry point; types 3 and 4 fill its local data
memory (R401). -/
def serviceCore (im : Bytes) (k : Core) : Core :=
  { emptyCore k with
    st := .running, v1 := imVersion im == 1, pc := BitVec.ofNat 36 (imageWin + imEntry im),
    ldm := ((sections im).filter (fun e => e.typ == 3)).flatMap (fun e => wordTbl e.load (sectWords im e)) |>.foldl
      (fun t e => tset t 0 e.1 e.2) [] }

/-- The service cores start on the running image, which stands in the firmware data area (R151). -/
def startService (s : State) (im : Bytes) (slot : Nat) : State :=
  let s := modRst (dramWrite s fwBase im) (fun r => { r with image := im, slot := slot == 2, svnRun := BitVec.ofNat 16 (fwVersion im) })
  s.rst.service.foldl (fun s c => modCore s c (serviceCore im)) s

/-! ## Activation -/

/-- Pauses the cores of a job (R84 step 3, R138). -/
def pauseJob (s : State) (j : Nat) : State :=
  match job s j with
  | none => s
  | some v =>
    if v.st = .running ∨ v.st = .held then
      v.cores.foldl (fun s c => modCore s c (fun k =>
        if k.st = .running ∨ k.st = .waiting then { k with st := .paused } else k))
        (setJob s j (some { v with st := .paused, prev := v.st, pauseT := s.now }))
    else s

/-- Resumes the cores of a job; its time limit is extended by the pause (R85). -/
def resumeJob (s : State) (j : Nat) : State :=
  match job s j with
  | none => s
  | some v =>
    if v.st = .paused then
      v.cores.foldl (fun s c => wakeCore (modCore s c (fun k =>
        if k.st = .paused then { k with st := if k.wfe.isSome then .waiting else .running } else k)) c)
        (setJob s j (some { v with st := v.prev, pausedUs := v.pausedUs + (s.now - v.pauseT) }))
    else s

/-- The identifiers of the jobs. -/
def jobIds (s : State) : List Nat := s.jobs.map Prod.fst

/-- Every fetched I/O command other than Execute Program has completed (R84 step 2). -/
def ioQuiet (s : State) : Bool := !s.host.cmds.any (fun c => c.sq != 0 && (match c.op with
  | .exec _ => false
  | _ => true))

/-- Is every descriptor in flight finished or at a boundary: it waits for no buffer and for no flash read (R84 step 4, R194)? -/
def enginesDrained (s : State) : Bool :=
  s.bpm.rings.all (fun e => e.2.flight.all (fun f =>
    f.res.isSome || (f.waitBuf.isNone && f.parts.all (fun p => p.data.isSome || p.bad))))

/-- Steps 2 and 3 of an activation: once every fetched I/O command has completed, the tenant cores are paused (R84). -/
def pauseAll (s : State) (a : FwAct) : State :=
  if a.paused ∨ ioQuiet s = false then s
  else modHost ((jobIds s).foldl pauseJob s) (fun h => { h with fwAct := some { a with paused := true, pauseT := s.now } })

/-- FW_ACTIVATION_QUIESCED (R84 steps 2 to 4): the tenant cores are paused; where the engines are drained with each job at a descriptor
boundary, step 4 is reached. -/
def execFwActivationQuiesced (s : State) : Res :=
  .next (match s.host.fwAct with
  | none => s
  | some a =>
    let s := pauseAll s a
    match s.host.fwAct with
    | some a =>
      if a.paused = true ∧ enginesDrained s = true then modHost s (fun h => { h with fwAct := some { a with quiesced := true } }) else s
    | none => s)

/-- A descriptor held for energy does not count the pause (R85, R368). -/
def shiftHolds (s : State) (d : Nat) : State :=
  modBpm s (fun b => { b with rings := b.rings.map (fun e =>
    (e.1, { e.2 with flight := e.2.flight.map (fun f => { f with waitNrg := f.waitNrg.map (· + d) }) })) })

/-- The controller resets that waited for the end of an activation (R85). -/
def lateResets (s : State) : State :=
  let fs := s.host.enClears
  fs.foldl (fun s f => switchImage (ctrlReset s f ((ctrl s f).cc &&& 0xFFFFFFFE)) f) (modHost s (fun h => { h with enClears := [] }))

/-- Step 6 of an activation (R84): cores and fetching resume; Firmware Commit completes once. -/
def endActivation (s : State) (a : FwAct) (st : NStat) : State :=
  let s := modHost ((jobIds s).foldl resumeJob (shiftHolds s (s.now - a.pauseT))) (fun h => { h with fwAct := none })
  let s := if (findCmd s a.fn 0 a.cid).isSome && !a.byReset then complete s a.fn 0 a.cid st else s
  lateResets s

/-- FW_ACTIVATION_SELF_CHECK (R84, R390, R404): the service cores run the new image, which is measured into register 3, and for
commit action 3 the slot is marked active; or they run the previous image again. -/
def execFwActivationSelfCheck (pass : Bool) (s : State) : Res :=
  .next (match s.host.fwAct with
  | none => s
  | some a =>
    if a.quiesced = false then s
    else if pass then
      let im := slotImage s a.slot
      let s := extendMeas (startService s im a.slot) 3 (Config.sha384 (imSigned im))
      endActivation (if a.byReset then s else markSlot s a.slot) a .success
    else endActivation (startService s s.rst.image (b2n s.rst.slot + 1)) a .invalidFirmware)

end Sys2Proof.Machine
end

