-- ==== Sys2Proof/Machine/PowerStates.lean ====
section
/-! DEFINITION. Power states (R88, R89) and the DRAM's self-refresh (R348, R349). -/

namespace Sys2Proof.Machine

open Sys2Proof

/-- APST_IDLE_TIMER (R89): the module has been idle for the time of its power state's entry; entry to the target starts. -/
def execApstIdleTimer (s : State) : Res :=
  .next (let e := s.host.apst.getD s.host.ps (0, 0)
    if s.host.apstEn && e.1 != 0 && decide (s.host.ps < e.1) && s.host.psEntry.isNone && !s.host.psExit && idleNow s &&
        decide (s.host.idleSince + e.2 * 1000 ≤ s.now) then
      modHost s (fun h => { h with psEntry := some e.1 })
    else s)

/-- The dirty map pages whose cache slot lies in segments 1 to 3. -/
def dirtyDropped (s : State) : Bool := s.ftla.pages.any (fun e => e.2.cached && e.2.dirty && slotDropped e.2.slot)

/-- POWER_STATE_ENTRY (R348): no map page of segments 1 to 3 is dirty any longer; their cached bits clear, the power state changes
and the DRC enters self-refresh. A command fetched before this has ended the entry (R88). -/
def execPowerStateEntry (s : State) : Res :=
  .next (match s.host.psEntry with
  | none => s
  | some t =>
    if idleNow s = false ∨ dirtyDropped s = true ∨ s.host.psExit = true then s
    else
      let s := modFtla s (fun f => { f with
        pages := tmapIf f.pages (fun _ p => p.cached && slotDropped p.slot) (fun p => { p with cached := false, slot := 0 })
          |>.filter (fun e => decide (e.2 ≠ {})) })
      let s := { s with drc := { s.drc with selfref := true } }
      modHost s (fun h => { h with
        opPs := if h.ps ≤ 3 then h.ps else h.opPs, ps := t, psEntry := none, idleSince := s.now }))

/-- POWER_STATE_EXIT (R88, R349): the module is back in its last operational state; DRAM has left self-refresh and retrained, and
segments 1 to 3 are being initialised. -/
def execPowerStateExit (s : State) : Res :=
  .next (if s.host.psExit && decide (4 ≤ s.host.ps) then
    let s := { s with drc := { s.drc with selfref := false, init := true } }
    modHost s (fun h => { h with ps := h.opPs, psExit := false, idleSince := s.now })
  else s)

/-- DRAM_SEGMENT_INIT_DONE (R349): segments 1 to 3 have been written with zeros. -/
def execDramSegmentInitDone (s : State) : Res :=
  .next (if s.drc.init then
    zeroSpanDram { s with drc := { s.drc with init := false } } 3758096384 11274289152
  else s)

end Sys2Proof.Machine
end

