-- ==== Sys2Proof/Machine/Energy.lean ====
section
/-! DEFINITION. The energy ledger (R360-R371), the embankment and protected staging (R373-R377), the calendar and the lifetime
counters (R378-R381), and boot step 13, which the first measurement of the bank ends (R391, R403-R405). -/

namespace Sys2Proof.Machine

open Sys2Proof

/-! ## Constants of the calibration set -/

/-- V_chg, mV. -/
def vChg (s : State) : Nat := calNum s 4 0 35000
/-- V_lo, mV. -/
def vLo (s : State) : Nat := calNum s 4 4 33000

/-! ## E_usable and the staging limit (R373, R375) -/

/-- Denominator of E_usable in µJ. -/
def eDen : Nat := 2 * 10 ^ 12 * 144000000

/-- Numerator of E_usable in µJ for a bank charged to `v` mV: η × ½ × C × (v² − V_min²), with V_min = 12 V + ESR × P_hold ÷ 12 V. -/
def eNum (s : State) (v : Nat) : Nat :=
  let vm := 144000000 + s.nrg.esr.toNat * calNum s 4 8 40000
  calNum s 4 12 900000 * s.nrg.capUf.toNat * (v * v * 144000000 - vm * vm)

/-- E_usable of a bank at V_chg, mJ. -/
def eUsable (s : State) : Nat := eNum s (vChg s) / (eDen * 1000)

/-- The protected staging limit for a bank charged to `v` mV, MiB (R375). -/
def limitAt (s : State) (v : Nat) : Nat :=
  let k := calNum s 4 16 1500
  let fixed := calNum s 4 20 400000
  min 4096 (64 * (16 * (1000 * eNum s v - fixed * k * eDen) / (calNum s 4 24 1750000 * k * eDen)))

/-- Sets or clears a SMART critical warning bit. -/
def setSmart (s : State) (n : Nat) (v : Bool) : State :=
  modHost s (fun h => { h with smart := if v then h.smart ||| BitVec.ofNat 8 (2 ^ n) else h.smart &&& ~~~(BitVec.ofNat 8 (2 ^ n)) })

/-- A staging limit takes effect (R375-R377): 0 sets critical warning bit 3 and ends the writes, Write Zeroes and Copy
commands that wait at step 1; at least 64 MiB clears it. -/
def applyLimit (s : State) (v : Nat) : State :=
  let s := modNrg s (fun n => { n with limit := v })
  if v = 0 then
    let wait := s.host.cmds.filter (fun c => match c.op with
      | .write _ _ => true
      | .copy _ => true
      | .mapChange _ _ z => z
      | _ => false)
    wait.foldl (fun s c => complete s c.fn c.sq c.cid .writeProtected) (setSmart s 3 true)
  else if 64 ≤ v then setSmart s 3 false
  else s

/-! ## Boot step 13 -/

/-- Measurement registers 0 to 7, as MRAM keeps them. -/
def bootMeas (s : State) : List Bytes := (List.range 8).map (fun n => (tget s.isl.meas {} n).val)

/-- Boot step 13 (R391, R403-R405): FTLA is ready, the option-area polders are active and the bank is measured. -/
def bootReady (s : State) : State :=
  if s.rst.step.toNat = 12 ∧ s.nrg.embValid = true ∧ s.rst.ready = false ∧ s.rst.failed = false then
    let s := extendMeas s 7 (List.replicate 48 0xFF)
    let cur := bootMeas s
    let differs := match s.nv.measCopies with
      | old :: _ => decide (old ≠ cur)
      | [] => false
    let s := modRst s (fun r => { r with
      step := 13, ready := true, measChanged := differs, bootMs := BitVec.ofNat 32 (satN 32 ((s.now - r.bootT) / 1000)) })
    modNv s (fun v => { v with
      measCopies := (cur :: v.measCopies).take 2,
      svnMin := if fwRaises s.rst.image then BitVec.ofNat 16 (fwVersion s.rst.image) else v.svnMin })
  else s

/-! ## Deductions -/

/-- Lowest balance, µJ (R365). -/
def balFloor : Int := -2147483648

/-- A balance less spending. -/
def spendFrom (b : Int) (uj : Nat) : Int := max (b - (uj : Int)) balFloor

/-- The whole µJ that a job has spent go to its reserve, then to its polder's balance (R365). -/
def deductJob (s : State) (j : Nat) : State :=
  match job s j with
  | none => s
  | some v =>
    let used := v.pend / 1000000000
    let own := min v.reserve used
    modAcct (setJob s j (some { v with reserve := v.reserve - own, pend := v.pend % 1000000000 })) v.polder
      (fun a => { a with pend := a.pend + (used - own) * 1000000000 })

/-- Deducts every estimate that has gathered since the last sample (R365). -/
def deductAll (s : State) : State :=
  let s := (jobIds s).foldl deductJob s
  let s := (List.range 64).foldl (fun s p => modAcct s p (fun a => { a with
    bal := spendFrom a.bal (a.pend / 1000000000), pend := a.pend % 1000000000 })) s
  modNrg s (fun n => { n with svcBal := spendFrom n.svcBal (n.svcPend / 1000000000), svcPend := n.svcPend % 1000000000 })

/-- Jobs of polders whose balance is below zero are HELD. -/
def holdJobs (s : State) : State :=
  (jobIds s).foldl (fun s j => modJob s j (fun v =>
    if v.st = .running ∧ (acct s v.polder).bal < 0 then { v with st := .held } else v)) s

/-- HELD jobs whose balance is no longer below zero run again. -/
def freeJobs (s : State) : State :=
  (jobIds s).foldl (fun s j => modJob s j (fun v =>
    if v.st = .held ∧ 0 ≤ (acct s v.polder).bal then { v with st := .running } else v)) s

/-- A gain (ppm) or offset of the set in force for the monitors: record type 1, field `k` of rail `r`: current gain, current offset,
voltage gain, voltage offset; a set without it corrects nothing (R384). -/
def railNum (s : State) (r k : Nat) : Int :=
  match (calRecs s.nrg.calGain).bind (fun rs => recVal rs 1) with
  | some v => if k % 2 = 0 then ((leAt v (16 * r + 4 * k) 4 : Nat) : Int) else (BitVec.ofNat 32 (leAt v (16 * r + 4 * k) 4)).toInt
  | none => if k % 2 = 0 then 1000000 else 0

/-- Energy of a sample of rail `r`, V × I × 100 µs in 10^-10 µJ, from a voltage in µV and a current in µA: each is its reading times the
gain plus the offset (R360; DEDUCED, assumption 69). -/
def railEnergy (s : State) (r : Nat) (x : Nat × Nat) : Nat :=
  let v := (x.1 : Int) * railNum s r 2 / 1000000 + railNum s r 3
  let i := (x.2 : Int) * railNum s r 0 / 1000000 + railNum s r 1
  (v * i).toNat

/-- NRG_SAMPLE (R360, R361, R365): voltage and current of the rails; the energy of rails 0 and 1 is the module's; estimates are
deducted. -/
def execNrgSample (rails : List (Nat × Nat)) (s : State) : Res :=
  .next (if s.pw.aux then
    let e := s.nrg.measRem + railEnergy s 0 (rails.getD 0 (0, 0)) + railEnergy s 1 (rails.getD 1 (0, 0))
    let uj := e / 10000000000
    let s := modNrg s (fun n => { n with
      meas := n.meas + uj, measRem := e % 10000000000, window := n.window + uj, samples := n.samples + 1 })
    holdJobs (deductAll s)
  else s)

/-! ## The epoch boundary -/

/-- The calibrated offset of sensor `i` + 1, tenths of a degree: record type 5 of the set in force for the monitors (R370, R383). -/
def sensorOff (s : State) (i : Nat) : Int :=
  match (calRecs s.nrg.calGain).bind (fun rs => recVal rs 5) with
  | some v => (BitVec.ofNat 16 (leAt v (2 * i) 2)).toInt
  | none => 0

/-- The four sensors after their offsets; a reading that is not given keeps the last value. -/
def sensors (s : State) (temps : List Int) : List Int :=
  (List.range 4).map (fun i => match temps[i]? with
    | some t => t + sensorOff s i
    | none => s.nrg.temps.getD i 250)

/-- The highest sensor, tenths of a degree (R370). -/
def hottest (s : State) : Int := s.nrg.temps.foldl max (s.nrg.temps.headD 0)

/-- Static energy of an epoch, µJ (R362). -/
def staticUj (s : State) : Nat :=
  (((calNum s 2 0 12000 * 10000 : Nat) : Int) + (calNum s 2 4 40000 : Nat) * (hottest s - 250)).toNat / 1000

/-- Watts of an envelope or of a thermal limit. -/
def watts (n : Nat) : Nat := match n with
  | 0 => 70
  | 1 => 55
  | 2 => 40
  | _ => 25

/-- The admission envelope, W (R370). -/
def admission (s : State) : Nat := watts (max s.nrg.envelope.toNat s.nrg.thermal.toNat)

/-- The thermal limit at a boundary (R371). -/
def thermalStep (s : State) : State :=
  let t := hottest s
  let n := s.nrg
  let n := if t < 780 then { n with thermalT := none }
    else if (match n.thermalT with
      | none => true
      | some at_ => decide (at_ + 1000000 ≤ s.now)) then
      { n with thermal := BitVec.ofNat 2 (min 3 (n.thermal.toNat + 1)), thermalT := some s.now }
    else n
  let n := if 750 ≤ t then { n with coolT := none }
    else match n.coolT with
      | none => { n with coolT := some s.now }
      | some at_ =>
        if at_ + 10000000 ≤ s.now then { n with thermal := BitVec.ofNat 2 (n.thermal.toNat - 1), coolT := some s.now } else n
  if 850 ≤ t then setSmart { s with nrg := { n with thermal := 3 } } 1 true else { s with nrg := n }

/-- The effective envelope (R74, R88). -/
def effective (s : State) : Nat := max (if s.host.ps ≤ 3 then s.host.ps else s.host.opPs) s.host.ceiling.toNat

/-- What takes effect at a boundary: the operational power state (R88), the envelope, weights and caps (R47, R75). -/
def boundarySettings (s : State) : State :=
  let s := modHost s (fun h => match h.psNext with
    | some n => if h.ps ≤ 3 then { h with ps := n, opPs := n, psNext := none } else { h with opPs := n, psNext := none }
    | none => h)
  let s := modNrg s (fun n => { n with envelope := BitVec.ofNat 2 (effective s) })
  (List.range 64).foldl (fun s p =>
    let s := modPolder s p (fun v => match v.weightNext with
      | some w => { v with weight := w, weightNext := none }
      | none => v)
    modAcct s p (fun a => match a.weightNext with
      | some (w, c) => { a with weight := w, cap := c, weightNext := none }
      | none => a)) s

/-- NRG_EMB_E takes the energy that the bank gives now; below 6 J critical warning bit 4 is set (R373, R377). -/
def bankEnergy (s : State) : State :=
  let s := modNrg s (fun n => { n with eMj := BitVec.ofNat 16 (satN 16 (eUsable s)) })
  if eUsable s < 6000 then setSmart s 4 true else s

/-- A calibration commit takes effect: coefficients, static power and the embankment constants; the limit is computed again
(R375, R383). -/
def boundaryCal (s : State) : State :=
  if s.nrg.calNew then
    let s := modNrg s (fun n => { n with calCoef := s.nv.cal, calNew := false })
    if s.nrg.embValid then
      let new := limitAt s (vChg s)
      let low := limitAt s (vLo s)
      let s := bankEnergy s
      if s.nrg.measuring then applyLimit s low
      else if s.nrg.limitNext.isSome then applyLimit (modNrg s (fun n => { n with limitNext := some new })) (min new low)
      else applyLimit s new
    else s
  else s

/-- The drift flag (R363). -/
def driftStep (s : State) (m : Nat) (res : Int) : State :=
  let n := if (m : Int) < 10 * (res.natAbs : Int) then s.nrg.driftCnt + 1 else 0
  if 100 ≤ n ∧ s.nrg.drift = false then
    reportBy (modNrg s (fun x => { x with driftCnt := n, drift := true })) 0x0D 0 1 0 0
  else modNrg s (fun x => { x with driftCnt := n })

/-- Is a polder refilled: ACTIVE or QUIESCING (R364)? -/
def refilled (s : State) (p : Nat) : Bool := let st := (polder s p).st; st == .active || st == .quiescing

/-- Refills of the coming epoch by polder, whole (R364): `b` µJ by weight, limited by the cap. -/
def refillOf (s : State) (b p : Nat) : Nat :=
  let w := (((List.range 64).filter (refilled s)).map (fun q => (acct s q).weight.toNat)).sum
  let a := acct s p
  let r := b * a.weight.toNat / w
  if !refilled s p then 0 else if a.cap = 0 then r else min r a.cap.toNat

/-- A balance after its refill. -/
def addRefill (b : Int) (r : Nat) : Int := min (b + (r : Int)) (255 * (r : Int))

/-- EPOCH_BOUNDARY (R69, R75, R88, R362-R366, R371): reconciliation, the settings and limits that change at a boundary, refills,
the 0xC0 snapshot, then the admissions that the refills can fund. -/
def execEpochBoundary (temps : List Int) (s : State) : Res :=
  .next (if s.pw.aux then
    let s := deductAll (modNrg s (fun n => { n with temps := sensors s temps }))
    let m := s.nrg.meas
    let stat := staticUj s
    let est := fun (p : Nat) => (acct s p).est / 1000000000
    let a := ((List.range 64).map est).sum
    let e12 := ((List.range 64).map (fun p => (acct s p).est12)).sum / 1000000000
    let res : Int := (m : Int) - stat - a
    let rec_ := fun (p : Nat) => if p = 0 then (m : Int) - ((a - est 0 : Nat) : Int) else (est p : Int)
    let env := s.nrg.envelope
    let s := boundaryCal (boundarySettings (thermalStep (driftStep s m res)))
    let b := admission s * 10000 - stat - e12
    let r0 := refillOf s b 0
    let svc := r0 * s.nrg.svcPct.toNat / 100
    let share := fun (p : Nat) => if p = 0 then r0 - svc else refillOf s b p
    let s := (List.range 64).foldl (fun t p => modAcct t p (fun x =>
      let bal := addRefill x.bal (share p)
      let life := ((x.life : Int) + rec_ p).toNat
      { x with bal := bal, refill := share p, est := 0, est12 := 0, life := life, deferred := false,
               snapRefill := share p, snapEst := est p, snapRec := rec_ p, snapBal := bal, snapDef := x.deferred, snapDeferrals := x.deferrals, snapLife := life })) s
    let s := modNrg s (fun n => { n with
      svcBal := addRefill n.svcBal svc, epoch := (n.epoch + 1) % 2 ^ 64, meas := 0, lastMeas := m, lastA := a, lastRes := res,
      lastEnv := env })
    let s := modNv s (fun v => { v with energyUj := (v.energyUj + m) % 2 ^ 64 })
    let s := freeJobs s
    (jobIds s).foldl (fun s j => match job s j with
      | some v => if s.now ≤ v.fetchT + 4000 then grant s j else s
      | none => s) s
  else s)

/-! ## The envelope guard (R367) -/

/-- One more class is held: 5, then 4, then 3. -/
def holdMore (h : BitVec 3) : BitVec 3 := if h.getLsbD 2 = false then h ||| 4 else if h.getLsbD 1 = false then h ||| 2 else h ||| 1
/-- One class is released: 3, then 4, then 5. -/
def holdLess (h : BitVec 3) : BitVec 3 := if h.getLsbD 0 then h &&& 6 else if h.getLsbD 1 then h &&& 5 else h &&& 3

/-- ENVELOPE_GUARD_WINDOW (R367): the average of ten samples against the admission envelope; with every class held the HIF widens
the spacing between fetches, by a step that the spec does not state (assumption 3), until the average falls. -/
def execEnvelopeGuardWindow (s : State) : Res :=
  .next (if s.nrg.samples < 10 then s
  else
    let cap := admission s * 100 * s.nrg.samples
    let w := s.nrg.window
    let s := modNrg s (fun n => { n with window := 0, samples := 0 })
    if cap < w then
      if s.nrg.held = 7 then
        let (i, s) := takeFree s
        modNrg s (fun n => { n with pacing := true, gap := BitVec.ofNat 16 (satN 16 (n.gap.toNat + 1 + Config.freeNat i)) })
      else modNrg s (fun n => { n with held := holdMore n.held })
    else
      let s := modNrg s (fun n => { n with pacing := false, gap := 0 })
      if 100 * w < 95 * cap then modNrg s (fun n => { n with held := holdLess n.held }) else s)

/-! ## The embankment -/

/-- EMBANKMENT_MEASUREMENT (R374): the first after power-on, each 24 h, or NRG_CTRL.test; it starts with the bank at V_chg and
staging within the limit for 33.0 V, which applies for the whole measurement. -/
def execEmbankmentMeasurement (s : State) : Res :=
  let n := s.nrg
  let due := n.test || (!n.embValid && decide (9 ≤ s.rst.step.toNat) && !s.rst.mramHeld) ||
    (n.embValid && decide (n.lastMeasT + 86400000000 ≤ s.now))
  let low := limitAt s (vLo s)
  .next (if due && s.pw.main && !s.pw.brownout && !n.measuring && n.limitNext.isNone && decide (occupancy s ≤ low * 1048576) then
    let s := modNrg s (fun n => { n with measuring := true })
    if n.embValid then applyLimit s low else s
  else s)

/-- Adds an embankment history record where R381 asks for one. -/
def addHistory (s : State) : State :=
  let period := s.nv.posSeconds / 7862400
  let e := eUsable s
  let drop := match s.nv.history with
    | h :: _ => decide (e + 1000 ≤ h.2.2.2)
    | [] => false
  if s.nv.historyHours ≤ period ∨ drop = true then
    let day := if s.time.st = 0 then 0 else s.time.cal / 86400000
    modNv s (fun v => { v with
      historyHours := period + 1,
      history := ((day, s.nrg.capUf.toNat, s.nrg.esr.toNat, e) :: v.history).take 16 })
  else s

/-- Values of the bank take effect: E_usable, its warning, the limit in force until the bank is back at V_chg (R375, R377). -/
def bankMeasured (s : State) (cap esr : Nat) : State :=
  let s := modNrg s (fun n => { n with
    capUf := BitVec.ofNat 20 (satN 20 cap), esr := BitVec.ofNat 16 (satN 16 esr), embValid := true, measuring := false, test := false,
    lastMeasT := s.now })
  let s := bankEnergy (modNrg s (fun n => { n with limitNext := some (limitAt s (vChg s)) }))
  applyLimit s (min (limitAt s (vChg s)) (limitAt s (vLo s)))

/-- EMBANKMENT_MEASUREMENT_END (R373-R375, R381): ESR from the voltage step, C from the fall between V_chg and V_lo. -/
def execEmbankmentMeasurementEnd (stepMv fallUs : Nat) (s : State) : Res :=
  .next (if s.nrg.measuring then
    let sink := calNum s 4 28 500
    bootReady (addHistory (bankMeasured s (sink * fallUs / (vChg s - vLo s)) (stepMv * 1000 / sink)))
  else s)

/-- BANK_CHARGED (R375): the bank is back at V_chg and the new limit applies alone. -/
def execBankCharged (s : State) : Res :=
  .next (match s.nrg.limitNext with
  | none => s
  | some v => if s.nrg.measuring ∨ s.pw.main = false then s else applyLimit (modNrg s (fun n => { n with limitNext := none })) v)

/-! ## Drains of protected staging -/

/-- The staged writes that no hold-up copy covers, in staging order. -/
def uncovered (s : State) : List Staged := s.ftla.staging.filter (fun e => e.drained.isNone)

/-- A block after a HOLDUP program of a page (R283). -/
def holdBlk (page : Nat) (b : Blk) : Blk :=
  let ptr := max b.ptr (page + 1)
  { st := if ptr = 768 then .sealed else .opened, ptr := ptr, pslc := true, hold := b.hold || decide (b.st = .erased) }

/-- Does a plane take a HOLDUP program of a granule's page, and the blocks after it (R284, R295): an OPEN pSLC block at or above its
pointer, or an ERASED one while no block that a HOLDUP program opened is OPEN; further slots of a page go with its program. -/
def holdTakes (s : State) (pages : List Nat) (g : Nat) : Option (List Nat × State) :=
  if pages.contains (g / 4) then some (pages, s)
  else
    let b := blk s (gChan g) (gDie g) (gPlane g) (gBlock g)
    let ok := match b.st with
      | .opened => b.pslc && decide (b.ptr ≤ gPage g)
      | .erased => !(openBlks s (gChan g) (gDie g) (gPlane g)).any (fun x => x.hold)
      | _ => false
    if ok then some (g / 4 :: pages, modBlk s (gChan g) (gDie g) (gPlane g) (gBlock g) (holdBlk (gPage g))) else none

/-- Do the blocks take HOLDUP programs of these granules, in order? -/
def holdsOk (s : State) (pages : List Nat) : List Nat → Bool
  | [] => true
  | g :: gs =>
    match holdTakes s pages g with
    | some (pages, s) => holdsOk s pages gs
    | none => false

/-- Can the granules take the uncovered writes: one each, none twice, erased pages of hold-up blocks? -/
def gransOk (s : State) (gs : List Nat) : Bool :=
  decide (gs.length = (uncovered s).length) && decide gs.Nodup && s.isl.mediaReady &&
  gs.all (fun g => decide (g < granEnd) && decide (gPage g < 768) && decide (tget s.ftla.media {} g = {})) && holdsOk s [] gs

/-- One staged write reaches a granule by a HOLDUP program; a copy that DRAM has lost makes its block lost (R356). -/
def holdCopy (s : State) (e : Staged) (g : Nat) : State :=
  if stagedLost s e then loseStaged s e 4
  else
    let s := putGran s g { key := tget s.isl.media 0 e.nsid, data := e.data, back := some e.lidx, lba := e.lba }
    let s := modBlk s (gChan g) (gDie g) (gPlane g) (gBlock g) (holdBlk (gPage g))
    let s := pmonCount (chargeSvc s (progFj s 1 + mediaFj s)) 4 0 1
    modFtla s (fun f => { f with staging := f.staging.map (fun x => if x.seq = e.seq then { x with drained := some g } else x) })

/-- The uncovered writes are drained to their granules and the drain is journalled (R295, R376). -/
def drainTo (s : State) (gs : List Nat) : State :=
  let us := uncovered s
  if us.isEmpty then s
  else
    let s := (us.zip gs).foldl (fun s x => holdCopy s x.1 x.2) s
    let g := gs.headD 0
    let s := journalAdd s 7 [BitVec.ofNat 32 (sbOf (gDie g) (gBlock g)), BitVec.ofNat 32 us.length, 0, 0, 0]
    modNrg s (fun n => { n with safety := n.safety ++ us.map (fun e => e.seq) })

/-- Does the bank no longer cover the uncovered staging (R376)? -/
def needsDrain (s : State) : Bool :=
  let occ := ((uncovered s).map (fun e => e.data.length)).sum
  let need := (calNum s 4 20 400000 * 1073741824 + occ * calNum s 4 24 1750000) * eDen
  decide (eNum s (vChg s) * 1073741824 < need)

/-- SAFETY_DRAIN (R376): with 12 V present, NRG drains what the bank no longer covers; the staged writes go on as usual. -/
def execSafetyDrain (grans : List Nat) (s : State) : Res :=
  .next (if s.nrg.embValid && s.pw.main && !s.nrg.draining && !(uncovered s).isEmpty && needsDrain s && gransOk s grans then
    reportBy (drainTo s grans) 0x0D 0 1 2 3
  else s)

/-- DRAIN_RELEASE (R376): every drained write has its MAP record. -/
def execDrainRelease (s : State) : Res :=
  .next (if s.nrg.safety.isEmpty ∨ s.ftla.staging.any (fun e => s.nrg.safety.contains e.seq) = true ∨ jFull s = true then s
  else
    let sb := match openHoldup s with
      | some h => h.w.getD 0 0
      | none => 0
    journalSettle (modNrg (journalAdd s 7 [sb, 0, 0, 0, 0]) (fun n => { n with safety := [] })))

/-! ## Time -/

/-- CALENDAR_TICK (R21, R378): a millisecond; the shadow in domain 38 follows. -/
def execCalendarTick (s : State) : Res :=
  .next (if s.pw.aux then
    let v := (s.time.cal + 1) % 2 ^ 64
    { s with time := { s.time with cal := v, shadow := v } }
  else s)

/-- CALENDAR_SAVE (R378): every 60 s. -/
def execCalendarSave (s : State) : Res :=
  .next (if s.pw.aux = true ∧ s.time.saved + 60000000 ≤ s.now then
    modNv { s with time := { s.time with saved := s.now } } (fun v => { v with calendar := s.time.cal })
  else s)

/-- POWER_ON_SECOND (R380): counted while 12 V main is present. -/
def execPowerOnSecond (s : State) : Res :=
  .next (if s.pw.main ∧ s.pw.aux = true then modNv s (fun v => { v with posSeconds := (v.posSeconds + 1) % 2 ^ 64 }) else s)

/-- Bits 31:0 of a 64-bit value. -/
def low32 (n : Nat) : W32 := BitVec.ofNat 32 n
/-- Bits 63:32. -/
def high32 (n : Nat) : W32 := BitVec.ofNat 32 (n / 2 ^ 32)

/-- A read of TIME_CAL_L latches TIME_CAL_H (R21, R385). -/
def calShadowVal (s : State) : W32 × State := (low32 s.time.shadow, { s with time := { s.time with shadowHi := high32 s.time.shadow } })
/-- A read of TIME_POS_L latches TIME_POS_H (R385). -/
def posVal (s : State) : W32 × State := (low32 s.nv.posSeconds, { s with time := { s.time with posHi := high32 s.nv.posSeconds } })
/-- A read of TIME_ENG_L latches TIME_ENG_H (R385). -/
def engVal (s : State) : W32 × State := (low32 s.nv.energyUj, { s with time := { s.time with engHi := high32 s.nv.energyUj } })
/-- A read of NRG_EPOCH_L latches NRG_EPOCH_H (R385). -/
def epochVal (s : State) : W32 × State := (low32 s.nrg.epoch, modNrg s (fun n => { n with epochHi := high32 s.nrg.epoch }))

/-- CALENDAR_SHADOW_READ (R21, R385). -/
def execCalendarShadowRead (ini : Ini) (s : State) : Res := .next (readAnswer (pageRead s ini (frameOf 0x0E 0 0) 0x40 calShadowVal))
/-- POWER_ON_SECONDS_READ (R385). -/
def execPowerOnSecondsRead (ini : Ini) (s : State) : Res := .next (readAnswer (pageRead s ini (frameOf 0x0E 0 0) 0x50 posVal))
/-- ENERGY_DELIVERED_READ (R385). -/
def execEnergyDeliveredRead (ini : Ini) (s : State) : Res := .next (readAnswer (pageRead s ini (frameOf 0x0E 0 0) 0x58 engVal))
/-- EPOCH_READ (R385). -/
def execEpochRead (ini : Ini) (s : State) : Res := .next (readAnswer (pageRead s ini (frameOf 0x0D 0 0) 0x48 epochVal))

end Sys2Proof.Machine
end

