-- ==== Sys2Proof/Machine/Faults.lean ====
section
/-! DEFINITION. The fault concentrator (R406-R411), rail and clock faults (R360, R407, R441), and the commits of the calibration
set (R383) and of the option area (R397-R399). -/

namespace Sys2Proof.Machine

open Sys2Proof

/-! ## FLT -/

/-- FAULT_REPORT (R407): a block reports; classes 1 to 9 (R406). -/
def execFaultReport (blk inst cls tinst cause action : Nat) (s : State) : Res :=
  .next (if 1 ≤ cls ∧ cls ≤ 9 then report s cls tinst blk inst cause action else s)

/-- The tags of a window's reports, in order of first appearance. -/
def windowTags (rs : List (FRep × Nat)) : List (Nat × Nat) :=
  rs.foldl (fun acc r => if acc.contains (r.1.cls, r.1.inst) then acc else acc ++ [(r.1.cls, r.1.inst)]) []

/-- The tags that no other tag of the window covers (R408). -/
def rootTags (ts : List (Nat × Nat)) : List (Nat × Nat) := ts.filter (fun t => !ts.any (fun u => covers u.1 u.2 t.1 t.2))

/-- One entry of kind 0 for a root tag, with the reports folded into it; the tag is latched (R408). -/
def rootEntry (rs : List (FRep × Nat)) (s : State) (t : Nat × Nat) : State :=
  match rs.find? (fun r => r.1.cls == t.1 && r.1.inst == t.2) with
  | none => s
  | some (r, at_) =>
    let mine := rs.filter (fun x => (x.1.cls == t.1 && x.1.inst == t.2) || covers t.1 t.2 x.1.cls x.1.inst)
    let act := (mine.map (fun x => x.1.action)).foldl max 0
    let s := logFault s 0 t.1 t.2 r.blk r.binst r.cause mine.length act at_
    { s with flt := { s.flt with latched := s.flt.latched ++ [(t.1, t.2, s.now)] } }

/-- FAULT_WINDOW_END (R408, R410): 2 µs after the window opened. -/
def execFaultWindowEnd (s : State) : Res :=
  .next (match s.flt.window with
  | none => s
  | some (t, rs) =>
    if t + 2 ≤ s.now then
      (rootTags (windowTags rs)).foldl (rootEntry rs) { s with flt := { s.flt with window := none } }
    else s)

/-- TAG_RELEASE (R409): 10 s after the last report that carried the tag or that it absorbed. -/
def execTagRelease (cls tinst : Nat) (s : State) : Res :=
  .next { s with flt := { s.flt with
    latched := s.flt.latched.filter (fun l => !(l.1 == cls && l.2.1 == tinst && decide (l.2.2 + 10000000 ≤ s.now))) } }

/-- A read of FLT_ABS, which clears it (R10). -/
def fltAbsVal (s : State) : W32 × State := (s.flt.abs, { s with flt := { s.flt with abs := 0 } })

/-- FLT_ABS_READ (R10). -/
def execFltAbsRead (ini : Ini) (s : State) : Res := .next (readAnswer (pageRead s ini (frameOf 0x10 0 0) 0x48 fltAbsVal))

/-- FLT_SUMM.state (R411). -/
def fltSumm (s : State) : Nat :=
  if s.host.ctrls.any (fun e => e.2.cfs) || s.rst.failed || s.drc.failedCh != 0 then 3
  else if s.host.smart.getLsbD 3 then 2
  else if s.ftla.fail.isSome || s.nrg.drift || s.flcs.any (fun e => e.2.rate != 0) || s.nrg.thermal != 0 then 1
  else 0

/-! ## Rails and clocks -/

/-- RAIL_FAULT (R360, R407, R447): 1 loss, 2 below limit, 3 above limit. -/
def execRailFault (rail cause : Nat) (s : State) : Res :=
  .next (if rail < 8 ∧ 1 ≤ cause ∧ cause ≤ 3 then report s 1 rail 0x0D 0 cause 0 else s)

/-- CLOCK_LOSS (R407, R441): the domain's PLL loses lock. -/
def execClockLoss (dom : Nat) (s : State) : Res :=
  .next (if 1 ≤ dom ∧ dom ≤ 40 ∧ domainRuns s dom = true then
    let b := BitVec.ofNat 40 (2 ^ (dom - 1))
    report { s with clkLock := s.clkLock &&& ~~~b, clkLoss := s.clkLoss ||| b } 2 dom 0x15 0 1 0
  else s)

/-- Every controller sets CSTS.CFS. -/
def failControllers (s : State) : State :=
  (List.range 65).foldl (fun s fn => if present s fn then modCtrl s fn (fun c => { c with cfs := true }) else s) s

/-- THERMAL_SHUTDOWN (R372): a sensor at or above 95 °C; the state stays until the next power-on. -/
def execThermalShutdown (sensor : Nat) (s : State) : Res :=
  .next (if 1 ≤ sensor ∧ sensor ≤ 4 ∧ s.pw.main = true ∧ s.pw.thermal = false then
    let s := failControllers { s with pw := { s.pw with thermal := true } }
    reportBy (modNrg s (fun n => { n with draining := true })) 0x0D 0 7 sensor 5
  else s)

/-! ## The calibration set -/

/-- Is the CRC of an area's set right? -/
def areaCrc (b : Bytes) (n : Nat) : Bool := decide (crc32c (b.take (n - 4)) = BitVec.ofNat 32 (leAt b (n - 4) 4))

/-- Does polder 0 own `n` bytes of DRAM from an offset? The owner changes at MiB boundaries only. -/
def ownedBy0 (s : State) (a n : Nat) : Bool :=
  decide (a + n ≤ dramSize) && decide (dramOwner s a = 0) && decide (dramOwner s (a + n - 1) = 0)

/-- The records of a calibration set: types 1 to 5 once each, type 6 with source 0 only (R383). -/
def calRecsOk (b : Bytes) : Bool :=
  match calRecs b with
  | none => false
  | some rs =>
    let ts := rs.map (fun r => r.1)
    [1, 2, 3, 4, 5].all (fun t => ts.count t == 1) && ts.all (fun t => decide (1 ≤ t) && decide (t ≤ 6)) &&
      decide (ts.count 6 ≤ 1) && (leAt b 6 2 == 0 || ts.count 6 == 0)

/-- The signature of a factory set: type 6, over the bytes before its record. -/
def calSigned (b : Bytes) : Bool :=
  match ((calRecs b).getD []).find? (fun r => r.1 == 6) with
  | some (_, o, sig) => Config.ecdsaVerify Config.attestPub (b.take o) sig
  | none => false

/-- The check of R383 that fails first on a set, as CAL_STAT.err; 0 when all pass. -/
def calCheck (s : State) (b : Bytes) : Nat :=
  let n := leAt b 8 4
  if b.take 4 ≠ ascii "CALB" ∨ leAt b 4 2 ≠ 1 then 1
  else if n < 68 ∨ 65536 < n then 2
  else if !areaCrc b n then 3
  else if span b 16 20 ≠ padTo 20 s.fuse.serial then 4
  else if !calRecsOk b then 5
  else if leAt b 6 2 = 0 ∧ calSigned b = false then 6
  else 0

/-- The area at a source offset of 4 KiB units: its bytes, none where polder 0 does not own them. -/
def commitSource (s : State) (off max_ : Nat) : Option Bytes :=
  let a := off * 4096
  if ownedBy0 s a 64 then
    let n := min max_ (max 64 (leAt (dramBytes s a 16) 8 4))
    if ownedBy0 s a n then some (dramBytes s a n) else none
  else none

/-- Is a write of an area that takes at most `n` µs in progress? The model lets it take them all (DESIGN CHOICE, assumption 69). -/
def writing (s : State) (t : Option Nat) (n : Nat) : Bool := t.any (fun t => decide (s.now < t + n))
/-- CAL_STAT.busy (R383). -/
def calBusy (s : State) : Bool := writing s s.rst.calT 1000
/-- OPT_STAT.busy (R398). -/
def optBusy (s : State) : Bool := writing s s.rst.optT 2000

/-- A KG write of CAL_CTRL (R383). -/
def calCtrlWrite (s : State) (ini : Ini) (v : W32) : State :=
  let f := frameOf 0x13 0 0
  match kgOpen s ini f 0x40 with
  | (false, s) => s
  | (true, s) =>
    if calBusy s ∨ fld v 1 0 ≠ 1 then wrongState s ini f 0x40
    else
      match commitSource s s.rst.calSrc.toNat 65536 with
      | none => modRst s (fun r => { r with calErr := 7 })
      | some b =>
        let e := calCheck s b
        if e ≠ 0 then modRst s (fun r => { r with calErr := BitVec.ofNat 8 e })
        else
          let s := modNv s (fun v => { v with cal := b, calCommits := satInc v.calCommits })
          let s := modNrg s (fun n => { n with calGain := b, calNew := true, drift := false, driftCnt := 0 })
          modRst s (fun r => { r with calErr := 0, calValid := true, calT := some s.now })

/-- CALIBRATION_COMMIT (R383). -/
def execCalibrationCommit (ini : Ini) (v : W32) (s : State) : Res :=
  .next (pageWrite s ini (frameOf 0x13 0 0) 0x40 (fun s => calCtrlWrite s ini v))

/-! ## The option area -/

/-- The records of an option area half. -/
def optRecs (b : Bytes) : Option (List (Nat × Nat × Bytes)) := recsFrom b 32 (leAt b 12 4 - 4) (leAt b 16 4)

/-- Value length of an option record type; none for an unknown type. -/
def optLen (t : Nat) : Option Nat := match t with
  | 1 => some 1
  | 2 => some 2
  | 3 => some 1
  | 4 => some 97
  | 5 => some 48
  | 6 => some 4
  | 7 => some 96
  | _ => none

/-- Are the records of a half as R397 asks? -/
def optRecsOk (b : Bytes) : Bool :=
  match optRecs b with
  | none => false
  | some rs =>
    let ts := rs.map (fun r => r.1)
    let pols := (rs.filter (fun r => r.1 == 5)).map (fun r => leAt r.2.2 0 1)
    zeroSpan b 6 2 && zeroSpan b 20 12 &&
      rs.all (fun r => optLen r.1 == some (leAt b (r.2.1 + 2) 2) && (r.1 != 5 || zeroSpan r.2.2 1 3)) &&
      [1, 2, 3, 4, 6, 7].all (fun t => decide (ts.count t ≤ 1)) && decide pols.Nodup

/-- The check of R397 that fails first on a half, as OPT_STAT.err; 0 when it is valid. -/
def optCheck (b : Bytes) : Nat :=
  let n := leAt b 12 4
  if b.take 4 ≠ ascii "OPTA" ∨ leAt b 4 2 ≠ 1 then 1
  else if n < 36 ∨ 32768 < n then 2
  else if !areaCrc b n then 3
  else if !optRecsOk b then 4
  else 0

/-- The value of a record of a half. -/
def optVal (b : Bytes) (t : Nat) : Option Bytes := (optRecs b).bind (fun rs => recVal rs t)

/-- Is a change of the operator firmware key signed by the enrolled key (R399)? -/
def keyChangeOk (s : State) (b : Bytes) : Bool :=
  match s.rst.opKey with
  | none => true
  | some k =>
    optVal b 4 == some k ||
    (match ((optRecs b).getD []).find? (fun r => r.1 == 7) with
     | some (_, o, sig) => Config.ecdsaVerify k (b.take o) sig
     | none => false)

/-- An area with another generation, its CRC made anew (R398). -/
def withGeneration (b : Bytes) (g : W32) : Bytes :=
  let n := leAt b 12 4
  let body := patch (b.take (n - 4)) 8 (leBytes 4 g.toNat)
  body ++ leBytes 4 (crc32c body).toNat

/-- The source of an option commit: its length stands at byte 12. -/
def optSource (s : State) (off : Nat) : Option Bytes :=
  let a := off * 4096
  if ownedBy0 s a 64 then
    let n := min 32768 (max 64 (leAt (dramBytes s a 16) 12 4))
    if ownedBy0 s a n then some (dramBytes s a n) else none
  else none

/-- A KG write of OPT_CTRL (R398, R399): the new area goes to the half not in use. -/
def optCtrlWrite (s : State) (ini : Ini) (v : W32) : State :=
  let f := frameOf 0x12 0 0
  match kgOpen s ini f 0x40 with
  | (false, s) => s
  | (true, s) =>
    if optBusy s ∨ fld v 1 0 ≠ 1 then wrongState s ini f 0x40
    else
      match optSource s s.rst.optSrc.toNat with
      | none => modRst s (fun r => { r with optErr := 6 })
      | some b =>
        let e := if optCheck b ≠ 0 then optCheck b else if keyChangeOk s b then 0 else 5
        if e ≠ 0 then modRst s (fun r => { r with optErr := BitVec.ofNat 8 e })
        else
          let new := withGeneration b (s.rst.optGen + 1)
          let s := modNv s (fun v => if s.rst.optHalf then { v with optA := new } else { v with optB := new })
          modRst s (fun r => { r with optErr := 0, optPending := true, optT := some s.now })

/-- OPTION_COMMIT (R398). -/
def execOptionCommit (ini : Ini) (v : W32) (s : State) : Res :=
  .next (pageWrite s ini (frameOf 0x12 0 0) 0x40 (fun s => optCtrlWrite s ini v))

end Sys2Proof.Machine
end

