-- ==== Sys2Proof/Machine/Integrity.lean ====
section
/-! DEFINITION. DRAM and memory integrity: retraining and repair pauses (R343, R344, R354), the order switch (R347), scrubbing
(R353), spare lines and rows (R354, R355), failed devices (R357), the check-bit test (R358) and the registers of DRC and MEMI that
have a row of their own. -/

namespace Sys2Proof.Machine

open Sys2Proof

/-- A signed 8-bit count. -/
def sgn8 (v : BitVec 8) : Int := v.toInt

/-- DRAM_RETRAIN_PAUSE (R343, R344): the oscillator readings of a channel; more than 8 steps from the trained value reports once. -/
def execDramRetrainPause (ch : Nat) (rd wr : BitVec 8) (s : State) : Res :=
  .next (if ch < 8 ∧ s.drc.trained = true ∧ s.drc.selfref = false then
    let s := { s with drc := { s.drc with oscRd := tset s.drc.oscRd 0 ch rd, oscWr := tset s.drc.oscWr 0 ch wr } }
    if (8 < (sgn8 rd).natAbs ∨ 8 < (sgn8 wr).natAbs) ∧ s.drc.driftRep.getLsbD ch = false then
      reportBy { s with drc := { s.drc with driftRep := s.drc.driftRep ||| BitVec.ofNat 8 (2 ^ ch) } } 0x0B 0 5 (8 + ch) 0
    else s
  else s)

/-! ## Spares -/

/-- A memory instance. -/
def minst (s : State) (i : Nat) : MemInst := tget s.memi.insts {} i
/-- Changes a memory instance. -/
def modInst (s : State) (i : Nat) (f : MemInst → MemInst) : State := modMemi s (fun m => { m with insts := tmod m.insts {} i f })
/-- Corrected errors of a line since power-on; 3 and more call for a spare. -/
def lineErrs (s : State) (i line : Nat) : Nat := tget s.memi.errs 0 (lineKey i line)
/-- Has the memory of an instance spare lines (R351)? -/
def hasSpares (i : Nat) : Bool := decide (i ≤ 169) && !(decide (32 ≤ i) && decide (i ≤ 63)) && i != 128

/-- A remap is written: the table entry and the 0xC1 entry of kind 1; with all 8 entries used, one report (R355). -/
def spare (s : State) (i unit cls tinst : Nat) : State :=
  let n := (minst s i).remap.length
  if 8 ≤ n then
    if (minst s i).fullRep then s
    else reportBy (modInst s i (fun v => { v with fullRep := true })) 0x0C 0 cls tinst 0
  else logDirect (modInst s i (fun v => { v with remap := v.remap ++ [unit] })) 1 cls tinst 0x0C (n + 1) n

/-- LINE_REMAP (R354): the third corrected error of a line, or its first uncorrectable one, after which the spare is poisoned. -/
def execLineRemap (inst line : Nat) (s : State) : Res :=
  .next (if hasSpares inst ∧ inst < 162 ∧ (3 ≤ lineErrs s inst line ∨ 2 ≤ lineState s inst line) then
    let full := decide (8 ≤ (minst s inst).remap.length)
    let s := spare s inst line 6 inst
    if full then s
    else
      let s := if 2 ≤ lineState s inst line then setLine s inst line 1 else s
      modMemi s (fun m => { m with errs := tset m.errs 0 (lineKey inst line) 0 })
  else s)

/-- The listed lines of a DRAM channel's row, in a table of MEMI. -/
def rowKeys (t : Tbl Nat) (inst row : Nat) : List Nat :=
  (t.filter (fun e => decide (e.1 / 4294967296 = inst) && decide (e.1 % 4294967296 / 224 = row))).map Prod.fst

/-- DRAM_REPAIR_PAUSE (R354): soft post-package repair of a row on one channel. The device of the 0xC1 entry is one of the channel's
two (R337), which one is open (assumption 3). -/
def execDramRepairPause (ch row : Nat) (s : State) : Res :=
  let inst := 162 + ch
  let errs := rowKeys s.memi.errs inst row
  let bad := (rowKeys s.memi.bad inst row).filter (fun k => decide (2 ≤ tget s.memi.bad 0 k))
  .next (if ch < 8 ∧ (3 ≤ (errs.map (fun k => tget s.memi.errs 0 k)).sum ∨ bad.isEmpty = false) then
    let full := decide (8 ≤ (minst s inst).remap.length)
    let (n, s) := takeFree s
    let s := spare s inst row 5 (ch % 4 + 4 * (Config.freeNat n % 2))
    if full then s
    else modMemi s (fun m => { m with
      errs := errs.foldl (fun t k => tset t 0 k 0) m.errs, bad := bad.foldl (fun t k => tset t 0 k 1) m.bad })
  else s)

/-! ## Scrubbing -/

/-- What an uncorrectable scrub does to its line: DRAM and SRAM are marked poisoned, MRAM is rewritten from its other copy (R352),
a search entry is invalidated, a lookaside entry counts as a miss, an instruction cache line is refetched (R353, R356). -/
def scrubBad (s : State) (inst line : Nat) : State :=
  let s := ueRead (setLine s inst line 2) inst line 7 0
  if 32 ≤ inst ∧ inst ≤ 63 ∨ inst = 161 then setLine s inst line 0
  else if inst = 128 then modFtla (setLine s inst line 0) (fun f => { f with la := f.la.eraseIdx line })
  else if 112 ≤ inst ∧ inst ≤ 127 then
    dropEntries (setLine s inst line 0) (srchOwner s ((inst - 112) * 4096 + line)) (fun i _ => decide (i = (inst - 112) * 4096 + line))
  else modMemi (setLine s inst line 1) (fun m => { m with errs := tset m.errs 0 (lineKey inst line) 3 })

/-- SCRUB (R353): of a line, with what it finds; DRAM not in self-refresh and only with scrub_en. -/
def execScrub (inst line : Nat) (found : ScrubResult) (s : State) : Res :=
  .next (if 169 < inst ∨ (162 ≤ inst ∧ (s.drc.scrubEn = false ∨ s.drc.selfref = true)) then s
  else
    match found with
    | .clean => s
    | .correctable =>
      modMemi (modInst s inst (fun v => { v with ce := satInc v.ce })) (fun m => { m with
        errs := tset m.errs 0 (lineKey inst line) (lineErrs s inst line + 1) })
    | .uncorrectable => if lineBad s inst line then s else scrubBad s inst line)

/-! ## A failed device -/

/-- DRAM_DEVICE_FAILED (R340, R357): the mark stays for the life of the module; staging drains, every controller fails. -/
def execDramDeviceFailed (dev : Nat) (s : State) : Res :=
  .next (if 8 ≤ dev ∨ s.nv.failedDev.getLsbD dev = true then s
  else
    let s := modNv s (fun v => { v with failedDev := v.failedDev ||| BitVec.ofNat 8 (2 ^ dev) })
    let s := modMemi s (fun m => { m with trials := tset m.trials 0 dev 16 })
    let s := setSmart (failControllers s) 2 true
    reportBy (modNrg s (fun n => { n with draining := true })) 0x0C 0 5 dev 5)

/-! ## Registers -/

/-- DRC_STAT.switching (R347). -/
def drcSwitching (s : State) : Bool := writing s s.drc.orderT 2

/-- A KG write of DRC_ORDER (R347): the queues drain within 2 µs, then the mode switches. No request of the model's falls into the switch:
those that arrive wait and are served under the new mode. -/
def drcOrderWrite (s : State) (ini : Ini) (v : W32) : State :=
  match kgOpen s ini (frameOf 0x0B 0 0) 0x44 with
  | (false, s) => s
  | (true, s) => { s with drc := { s.drc with glm96 := bitOf v 0, wq := [], orderT := some s.now } }

/-- ORDER_SWITCH (R347). -/
def execOrderSwitch (ini : Ini) (v : W32) (s : State) : Res :=
  .next (pageWrite s ini (frameOf 0x0B 0 0) 0x44 (fun s => drcOrderWrite s ini v))

/-- A KG write of MEMI_TEST (R358): arms one injection. -/
def memiTestWrite (s : State) (ini : Ini) (v : W32) : State :=
  match kgOpen s ini (frameOf 0x0C 0 0) 0x60 with
  | (false, s) => s
  | (true, s) =>
    if s.memi.armed then wrongState s ini (frameOf 0x0C 0 0) 0x60
    else modMemi s (fun m => { m with armed := true, mode := bitOf v 16, target := BitVec.ofNat 8 (fld v 7 0) })

/-- CHECK_BIT_TEST_ARM (R358). -/
def execCheckBitTestArm (ini : Ini) (v : W32) (s : State) : Res :=
  .next (pageWrite s ini (frameOf 0x0C 0 0) 0x60 (fun s => memiTestWrite s ini v))

/-- A write of MEMI_SEL snapshots the counts of the instance (R359). -/
def memiSelWrite (s : State) (ini : Ini) (v : W32) : State :=
  if 169 < fld v 7 0 then wrongState s ini (frameOf 0x0C 0 0) 0x40
  else
    let i := minst s (fld v 7 0)
    modMemi s (fun m => { m with sel := BitVec.ofNat 8 (fld v 7 0), snapCe := i.ce, snapUe := i.ue })

/-- MEMI_SELECT (R359). -/
def execMemiSelect (ini : Ini) (v : W32) (s : State) : Res :=
  .next (pageWrite s ini (frameOf 0x0C 0 0) 0x40 (fun s => memiSelWrite s ini v))

/-- A read of MEMI_UE_W0 latches words 1 and 2 (R359). -/
def ueW0Val (s : State) : W32 × State := (s.memi.ueW0, modMemi s (fun m => { m with latW1 := m.ueW1, latW2 := m.ueW2 }))

/-- UE_RECORD_READ (R359). -/
def execUeRecordRead (ini : Ini) (s : State) : Res := .next (readAnswer (pageRead s ini (frameOf 0x0C 0 0) 0x50 ueW0Val))

/-- A read of DRC_FWD, which clears it (R10). -/
def drcFwdVal (s : State) : W32 × State := (s.drc.fwd, { s with drc := { s.drc with fwd := 0 } })

/-- DRC_FWD_READ (R10). -/
def execDrcFwdRead (ini : Ini) (s : State) : Res := .next (readAnswer (pageRead s ini (frameOf 0x0B 0 0) 0x4C drcFwdVal))

end Sys2Proof.Machine
end

