-- ==== Sys2Proof/Machine/Reset.lean ====
section
/-! DEFINITION. Power and reset (R27, R83, R295-R297, R386-R390, R447-R451): what each reset keeps, brown-out, hold-up drain, power
disable, and the boot sequence with its failures and watchdogs (R390-R397, R404, R412). -/

namespace Sys2Proof.Machine

open Sys2Proof

/-! ## What a reset keeps -/

/-- What FTLA finds again on the medium and in MRAM, with the journal applied (R315): the cached map pages are those that replay
pages in; the Q windows are empty (R319); `st` is the staging that persists. -/
def keepFtla (f : Ftla) (st : List Staged) : Ftla :=
  { media := f.media, map := f.map,
    pages := (tmapIf f.pages (fun _ p => p.cached && !p.dirty) (fun p => { p with cached := false, slot := 0 })).filter
      (fun e => decide (e.2 ≠ {})),
    journal := f.journal, jseq := f.jseq, applied := f.applied, nss := f.nss,
    sbs := (f.sbs.map (fun e => (e.1, { e.2 with window := [] }))).filter (fun e => decide (e.2 ≠ {})), staging := st,
    stageSeq := f.stageSeq, nextRd := f.nextRd, uses := f.uses, fail := f.fail }

/-- Erases that run or are suspended when the flash channels lose their state leave their blocks' content open; with `progs` the
running programs too (assumption 3). -/
def spoilRunning (s : State) (progs : Bool) : State :=
  s.flcs.foldl (fun s e => e.2.dies.foldl (fun s d =>
    let s := match d.2.susp with
      | some (x, _) => spoil s e.1 x
      | none => s
    match d.2.run with
    | some r => if dOp r = 4 ∨ (dOp r = 3 ∧ progs = true) then spoil s e.1 r else s
    | none => s) s) s

/-- Lines remapped to spares stay remapped (R354). -/
def keepRemaps (m : Memi) : Tbl MemInst :=
  (m.insts.map (fun e => (e.1, ({ remap := e.2.remap } : MemInst)))).filter (fun e => decide (e.2 ≠ {}))

/-- The module at a power-on: every field at its Reset value but the nonvolatile stores, the fuses, the flash medium, the drained
writes, the spare substitutions and the model's own counter and queue. -/
def freshState (s : State) : State :=
  let s := spoilRunning s false
  { freeCtr := s.freeCtr, pending := s.pending, fuse := s.fuse, nv := s.nv, out := s.out,
    ftla := keepFtla s.ftla (s.ftla.staging.filter (fun e => e.drained.isSome)),
    memi := { insts := keepRemaps s.memi } }

/-- The pages that an NVM Subsystem Reset and a watchdog reset keep (R387). -/
def nssKeeps (f : Nat) : Bool := [0x0C, 0x0D, 0x0E, 0x10, 0x12, 0x13, 0x15].contains (f / 128)

/-- The account of a polder after an NVM Subsystem Reset (R75, R83, R366): polders 1 to 63 are EMPTY. -/
def nssAcct (p : Nat) (a : Acct) : Acct :=
  let a := { a with weight := 16, cap := 0, weightNext := none }
  if p = 0 then a else { a with bal := 0, refill := 0, pend := 0, est := 0, est12 := 0, deferred := false }

/-- NRG after an NVM Subsystem Reset (R83, R387). -/
def nssNrg (n : Nrg) : Nrg :=
  { n with acct := (n.acct.map (fun e => (e.1, nssAcct e.1 e.2))).filter (fun e => decide (e.2 ≠ {})), envelope := 0 }

/-- The reserves of the jobs that a reset ends go back to their polder's balance. -/
def returnReserves (s : State) : State :=
  s.jobs.foldl (fun s e => match e.2 with
    | some v => modAcct s v.polder (fun a => { a with bal := a.bal + ((v.reserve : Nat) : Int), pend := a.pend + v.pend })
    | none => s) s

/-- The module after an NVM Subsystem Reset or a watchdog reset (R83, R387): protected staging persists; power-on reset is released
and the boot follows. A drift report stays the one of its power-on (R344). -/
def nssState (s : State) (kind : BitVec 4) : State :=
  let s := returnReserves (spoilRunning s true)
  { now := s.now, freeCtr := s.freeCtr, pending := s.pending, fuse := s.fuse, nv := s.nv, out := s.out,
    pw := { s.pw with por := true },
    rst := { kind := kind, bootMs := s.rst.bootMs, svnRun := 0, mramHeld := !s.nrg.embValid, optHalf := s.rst.optHalf,
             optGen := s.rst.optGen, optPending := s.rst.optPending, optErr := s.rst.optErr, optSrc := s.rst.optSrc,
             calErr := s.rst.calErr, calSrc := s.rst.calSrc, calValid := s.rst.calValid, optT := s.rst.optT, calT := s.rst.calT },
    drc := { driftRep := s.drc.driftRep }, pmon := { cycT := s.now },
    ftla := keepFtla s.ftla (s.ftla.staging.map (fun e => { e with placed := none })),
    memi := s.memi, nrg := nssNrg s.nrg, time := s.time, flt := s.flt, sbd := s.sbd,
    hdrs := tdrop s.hdrs (fun f _ => !nssKeeps f), clkLock := s.clkLock, clkLoss := s.clkLoss }

/-- An admin tunnel command in progress on the sideband completes with Internal Error (R424). -/
def tunnelReset (s : State) : State :=
  let f := fun (m : MiSlot) => if m.tunnel then { m with req := none, tunnel := false, resp := some (Config.stdBytes 0x30F s.freeCtr) } else m
  modSbd s (fun b => { b with slot0 := f b.slot0, slot1 := f b.slot1 })

/-- Starts an NVM Subsystem Reset or a watchdog reset. -/
def nssReset (s : State) (kind : BitVec 4) : State := tunnelReset (nssState s kind)

/-! ## Hold-up -/

/-- Can the uncovered writes be drained to the granules? -/
def drainOk (s : State) (gs : List Nat) : Bool := (uncovered s).isEmpty || gransOk s gs

/-- One FLC latches brown-out: what has not issued and is no HOLDUP program or READ_STATUS completes BROWNOUT_REFUSED, a running
erase is suspended (steps 1 to 3). -/
def latchFlc (s : State) (ch : Nat) : State :=
  let c := flc s ch
  let out := c.queue.filter (fun d => !(dHoldup d && dOp d == 3) && dOp d != 10)
  let s := modFlc s ch (fun c => { c with brownout := true })
  let s := out.foldl (fun s d => flcComplete (flcDequeue s ch d) ch d 0x25) s
  c.dies.foldl (fun s e => if e.2.st = .erase then beginSuspend s ch e.1 none else s) s

/-- Brown-out is latched in every FLC; a measurement in progress is given up; the calendar is saved; DRAM leaves self-refresh;
the drain starts (R295, R350, R374, R378). -/
def latchAll (s : State) : State :=
  let s := (List.range 32).foldl latchFlc s
  let s := modNrg s (fun n => { n with
    draining := true, measuring := false, test := false,
    limitNext := if n.measuring && n.embValid then some (limitAt s (vChg s)) else n.limitNext })
  let s := modNv s (fun v => { v with calendar := s.time.cal })
  { s with drc := { s.drc with selfref := false, init := s.drc.init || s.drc.selfref } }

/-- BROWNOUT_LATCH (R295, R447): 12 V stayed below 10.8 V for 2 µs; a disable in progress has latched it already (R451). -/
def execBrownoutLatch (s : State) : Res :=
  .next (if s.pw.main = false ∨ s.pw.brownout = true then s
  else
    let t := { s with pw := { s.pw with brownout := true } }
    if s.pw.pwrdis then t else latchAll t)

/-- The flash reads for map pages that the brown-out refused are issued again. -/
def reissuePages (s : State) : State :=
  s.ftla.reads.foldl (fun s q => match q.who with
    | .page _ => if q.withdrawn then reissue s q else s
    | _ => s) s

/-- One FLC after the recovery: its automatically suspended erases run again. -/
def recoverFlc (s : State) (ch : Nat) : State :=
  let s := modFlc s ch (fun c => { c with brownout := false })
  (flc s ch).dies.foldl (fun s e => if e.2.auto ∧ e.2.st = .idle ∧ e.2.susp.isSome = true then doResume s ch e.1 else s) s

/-- BROWNOUT_RECOVERY (R297, R447): 12 V has stayed above 11.4 V for 5 ms. -/
def execBrownoutRecovery (s : State) : Res :=
  .next (if s.pw.brownout = true ∧ s.pw.main = true ∧ s.pw.pwrdis = false then
    let s := (List.range 32).foldl recoverFlc { s with pw := { s.pw with brownout := false } }
    reissuePages (modNrg s (fun n => { n with draining := false }))
  else s)

/-! ## Power -/

/-- The module with its loads off: a write that waits at step 1 is dropped, so that its blocks keep the old data, where R27 leaves
old or new data (DESIGN CHOICE, assumption 65). Domains 38 to 40 run on aux: FLT, TIME, MEMI, NRG, the sideband and the pages of domain
38 hold their values, and the SMART warnings that the sideband answers (R421). -/
def loadsOff (s : State) (pw : Power) : State :=
  let t := freshState s
  { t with
    now := s.now, pw := pw, host := { smart := s.host.smart }, time := s.time, flt := s.flt, sbd := s.sbd, memi := s.memi, nrg := { s.nrg with draining := false },
    rst := { s.rst with ready := false, wdtEn := false, service := [], bar2 := false },
    hdrs := tdrop s.hdrs (fun f _ => !nssKeeps f && f / 128 != 0x0F),
    clkLock := s.clkLock &&& 0xE000000000, clkLoss := s.clkLoss }

/-- Main power-on (R379, R387): every field takes its Reset value except the TIME page and the calendar; the power cycle counts. -/
def mainOn (s : State) : State :=
  let t := freshState s
  let t := modNv t (fun v => { v with cycles := v.cycles + 1 })
  { t with
    rst := { kind := 1 }, sbd := s.sbd, clkLock := s.clkLock &&& 0xE000000000,
    hdrs := tdrop s.hdrs (fun f _ => f / 128 != 0x0E),
    time := { s.time with saved := 0, st := if s.nv.calSet then 2 else 0 } }

/-- MAIN_POWER_LOSS (R27, R295): 12 V is gone below the hold-up converter's floor; staging has been drained to the granules, and the
programs that ran have ended. -/
def execMainPowerLoss (grans : List Nat) (s : State) : Res :=
  .next (if s.pw.main = false ∨ drainOk s grans = false then s
  else
    let t := if s.pw.brownout ∨ s.pw.pwrdis = true then s else latchAll s
    loadsOff (drainTo t grans) { main := false, aux := s.pw.aux, por := true, pwrdis := s.pw.pwrdis })

/-- AUX_POWER_LOSS (R447): domains 38 to 40 stop; the sideband loses its state. -/
def execAuxPowerLoss (s : State) : Res :=
  .next { s with pw := { s.pw with aux := false }, clkLock := s.clkLock &&& 0x1FFFFFFFFF, sbd := {} }

/-- TIME after a cold power-on (R379): the last saved calendar, and the high registers as MRAM gives them. -/
def coldTime (v : Nv) : Time :=
  let t : Time := { posHi := high32 v.posSeconds, engHi := high32 v.energyUj }
  if v.calSet then { t with cal := v.calendar, shadow := v.calendar, shadowHi := high32 v.calendar, st := 2, synch := true } else t

/-- COLD_POWER_ON (R379, R386, R415): both supplies rise; SLOT_ID2-0 are sampled. -/
def execColdPowerOn (slotPins : BitVec 3) (s : State) : Res :=
  .next (if s.pw.main ∨ s.pw.aux = true then s
  else
    let t := modNv (freshState s) (fun v => { v with cycles := v.cycles + 1 })
    { t with
      pw := { pwrdis := s.pw.pwrdis }, sbd := { slot := slotPins },
      time := coldTime s.nv })

/-- MAIN_POWER_ON (R386): 12 V rises while aux was held. -/
def execMainPowerOn (s : State) : Res :=
  .next (if s.pw.main = true ∨ s.pw.aux = false then s
  else
    let t := mainOn s
    { t with pw := { pwrdis := s.pw.pwrdis } })

/-- NVM_SUBSYSTEM_RESET (R59, R83, R390): a write of 0x4E56_4D65 to NSSR on the port A PF. A power-on boot in progress goes on. -/
def execNvmSubsystemReset (fn : Nat) (value : W32) (s : State) : Res :=
  .next (if fn = 0 ∧ value = 0x4E564D65 ∧ s.host.portA.up = true ∧ (booting s = false ∨ 2 ≤ s.rst.kind.toNat) then nssReset s 2 else s)

/-- Step 1 of a power disable: ports in electrical idle, brown-out latched in every FLC. -/
def startDisable (s : State) : State :=
  let t := setPort (setPort { s with pw := { s.pw with pwrdis := true } } 0 {}) 1 {}
  if s.pw.brownout then t else latchAll t

/-- POWER_DISABLE (R450, R451): PWRDIS has been high for 5 µs; while power-on reset is held it only holds it longer. -/
def execPowerDisable (s : State) : Res :=
  .next (if s.pw.pwrdis then s
  else if s.pw.por ∨ s.pw.main = false then { s with pw := { s.pw with pwrdis := true } }
  else startDisable s)

/-- HOLDUP_DRAIN_DONE (R295, R450, R451): staging has been drained; a power disable goes on to step 4, and to a main power-on where
PWRDIS was released before. -/
def execHoldupDrainDone (grans : List Nat) (s : State) : Res :=
  .next (if s.nrg.draining = false ∨ drainOk s grans = false then s
  else
    let t := modNrg (drainTo s grans) (fun n => { n with draining := false })
    if s.pw.pwrdis = false ∨ s.pw.off = true ∨ s.pw.main = false then t
    else
      let t := loadsOff t { main := true, aux := s.pw.aux, por := true, pwrdis := true, off := true }
      if s.pw.released then { mainOn t with pw := {} } else t)

/-- POWER_DISABLE_RELEASE (R450, R451). -/
def execPowerDisableRelease (s : State) : Res :=
  .next (if s.pw.pwrdis = false then s
  else if s.pw.off then { mainOn s with pw := {} }
  else if s.pw.por ∨ s.pw.main = false then { s with pw := { s.pw with pwrdis := false } }
  else { s with pw := { s.pw with released := true } })

end Sys2Proof.Machine
end

