-- ==== Sys2Proof/Machine/Boot.lean ====
section
/-! DEFINITION. The boot sequence (R390-R397, R404), its failures and releases, the option-area polders (R37, R388, R389), FTLA's
recovery (R315) and the service watchdog (R412). The rows BOOT, MRAM_WRITE_RELEASE and FTLA_READY carry the steps that have no row
of their own (assumption 7). -/

namespace Sys2Proof.Machine

open Sys2Proof

/-! ## Steps 1 to 4 -/

/-- Reads the calibration set (step 1): one whose CRC fails is not used (R384). -/
def bootCal (s : State) : State :=
  let n := leAt s.nv.cal 8 4
  if 68 ≤ n ∧ n ≤ 65536 ∧ areaCrc s.nv.cal n = true then
    modNrg (modRst s (fun r => { r with calValid := true })) (fun x => { x with calGain := s.nv.cal, calCoef := s.nv.cal, calNew := false })
  else
    reportBy (modNrg (modRst s (fun r => { r with calValid := false })) (fun x => { x with calGain := [], calCoef := [], calNew := false }))
      0x13 0 6 161 0

/-- The half that RST uses (R397): the valid one with the higher generation, half A when they are equal; none when neither is valid. -/
def pickHalf (s : State) : Option (Bool × Bytes) :=
  let a := optCheck s.nv.optA = 0
  let b := optCheck s.nv.optB = 0
  if a ∧ (¬ b ∨ leAt s.nv.optB 8 4 ≤ leAt s.nv.optA 8 4) then some (false, s.nv.optA)
  else if b then some (true, s.nv.optB)
  else none

/-- Records of type 5 of a half: polder and register values. -/
def polRecords (b : Bytes) : List Bytes := (((optRecs b).getD []).filter (fun r => r.1 == 5)).map (fun r => r.2.2)

/-- One byte of an option record, or its default. -/
def optByte (b : Bytes) (t o dflt : Nat) : Nat := match optVal b t with
  | some v => leAt v o 1
  | none => dflt

/-- Fields of the option area that RST and the boot use (R397), with the fuse locks of R4: an ignored field is logged. -/
def applyOptions (s : State) (b : Bytes) : State :=
  let mode := optByte b 2 0 0
  let key := optVal b 4
  let s := if mode ≠ 0 ∧ s.fuse.code < 2 then logDirect s 2 0 2 0x0F 1 0 else s
  let s := if key.isSome ∧ s.fuse.code = 0 then logDirect s 2 0 4 0x0F 1 0 else s
  let t6 := fun (o dflt : Nat) => match optVal b 6 with
    | some v => leAt v o 2
    | none => dflt
  let s := modRst s (fun r => { r with
    dual := mode == 1 && s.fuse.code == 2, bar2 := optByte b 2 1 0 == 1, opKey := if s.fuse.code = 0 then none else key,
    polRecs := polRecords b, wdtMs := BitVec.ofNat 16 (max 1 (t6 0 100)), bootTimeoutS := t6 2 20 })
  { s with drc := { s.drc with glm96 := optByte b 3 0 0 == 1 } }

/-- Step 2 (R393, R397, R400, R404): the half in use, or the defaults of every record. -/
def bootOptions (s : State) : State :=
  match pickHalf s with
  | some (h, b) =>
    let s := modRst s (fun r => { r with optHalf := h, optGen := BitVec.ofNat 32 (leAt b 8 4), optPending := false })
    extendMeas (applyOptions s b) 2 (Config.sha384 (b.take (leAt b 12 4)))
  | none =>
    let s := errRec (modRst s (fun r => { r with optPending := false })) (frameOf 0x0F 0 0) 0 0x50 0
    extendMeas (applyOptions (report s 6 161 0x0F 0 0x50 0) []) 2 (Config.sha384 [])

/-- Step 3 (R16): the PLLs of domains 1 and 3-37, and of 2 in dual-port mode with its reference clock. -/
def bootClocks (s : State) (e : BootEnv) : State :=
  { s with clkLock := s.clkLock ||| 0xFFFFFFFFFD ||| (if s.rst.dual ∧ e.dualRef = true then 2 else 0) }

/-- One core fails its self-test: a spare takes its identifier, or the identifier is absent (R394, R395). -/
def badCore (s : State) (c : Nat) : State :=
  if 32 ≤ c then s
  else if s.nv.spares.length < 2 then
    let s := modNv s (fun v => { v with spares := v.spares ++ [c] })
    logDirect s 1 8 c 0x0F s.nv.spares.length s.nv.spares.length
  else modCore s c (fun k => { k with absent := true })

/-- Service cores that the half in use asks for: 6 to 16, else 8 (R397). -/
def serviceCount (s : State) : Nat :=
  match pickHalf s with
  | some (_, b) => let n := optByte b 1 0 8; if 6 ≤ n ∧ n ≤ 16 then n else 8
  | none => 8

/-- Step 4: self-test of the cores; the service cores are the lowest identifiers present (R394, R395). -/
def bootCores (s : State) (e : BootEnv) : State :=
  let s := e.badCores.dedup.foldl badCore s
  let ids := (List.range 32).filter (fun c => !(core s c).absent)
  modRst s (fun r => { r with cores := BitVec.ofNat 8 ids.length, service := ids.take (serviceCount s) })

/-! ## Steps 5 to 9 -/

/-- A die that fails training (R298): journalled once. -/
def badDie (s : State) (ch dd : Nat) : State :=
  if 32 ≤ ch ∨ 16 ≤ dd then s
  else
    match s.ftla.fail with
    | some (1, c, d, _) =>
      if c = ch ∧ d = dd then
        reportBy (modDie s ch dd (fun v => { v with st := .failed, failed := true })) 9 ch 4 (ch * 16 + dd) 0
      else dieFailed s ch dd
    | _ => dieFailed s ch dd

/-- The rate that a channel trains to (R298); 3: the channel has failed (R331). -/
def trainChannel (s : State) (ch rate : Nat) : State :=
  if 32 ≤ ch ∨ rate = 0 ∨ 3 < rate then s
  else
    let s := reportBy (modFlc s ch (fun c => { c with rate := BitVec.ofNat 2 rate })) 9 ch 3 ch 0
    if rate < 3 then s
    else
      match s.ftla.fail with
      | some (2, c, _, _) => if c = ch then s else memberFailed s 2 ch 0 43680
      | _ => memberFailed s 2 ch 0 43680

/-- Step 5: every FLC trained and enabled (R298); a brown-out that lasts stays latched. -/
def bootFlash (s : State) (e : BootEnv) : State :=
  let s := (List.range 32).foldl (fun s ch => modFlc s ch (fun c => { c with enable := true, brownout := s.pw.brownout })) s
  e.badDies.foldl (fun s d => badDie s d.1 d.2) (e.rates.foldl (fun s r => trainChannel s r.1 r.2) s)

/-- Step 6: the security island is up (R201, R205); it reports ready once the entropy source has passed its 1,024 start-up samples, here or
with the first health window that passes (R210). -/
def bootIsland (s : State) (e : BootEnv) : State :=
  newTransport (modIsl s (fun l => { l with
    media := s.nv.mediaKeys, up := true, sampled := e.samples, mediaReady := e.samples, ready := e.samples, ok := e.samples, seedT := s.now })) 0

/-- Step 7: DRAM trained (R342): a failed channel is reported. -/
def bootDram (s : State) (e : BootEnv) : State :=
  let s := { s with drc := { s.drc with failedCh := e.badDram, trained := e.badDram == 0 } }
  (List.range 8).foldl (fun s ch => if e.badDram.getLsbD ch then reportBy s 0x0B 0 5 (8 + ch) 0 else s) s

/-- Controllers with CC.EN = 1 set CSTS.CFS: the boot has failed (R393). -/
def bootFailed (s : State) : State :=
  let s := modRst s (fun r => { r with failed := true })
  (List.range 65).foldl (fun s fn =>
    if present s fn && (ctrl s fn).cc.getLsbD 0 then modCtrl s fn (fun c => { c with cfs := true }) else s) s

/-- Step 9: service cores, watchdog and FTLA start. -/
def bootRun (s : State) (im : Bytes) (slot : Nat) : State :=
  let s := startService s im slot
  let s := modRst s (fun r => { r with step := 9, wdtEn := true })
  modFtla s (fun f => { f with enable := true, replaying := true })

/-- Measurements of step 8 (R404). -/
def bootMeasure (s : State) (im : Bytes) : State :=
  let s := extendMeas s 3 (Config.sha384 (imSigned im))
  let s := extendMeas s 4 (Config.sha384 (s.nv.cal.take (leAt s.nv.cal 8 4)))
  let s := extendMeas s 5 (match operatorKey s with
    | some k => Config.sha384 k
    | none => List.replicate 48 0)
  extendMeas s 6 (leBytes 2 s.nv.svnMin.toNat ++ leBytes 2 (fwVersion im) ++ List.replicate 44 0)

/-- Steps 8 and 9 (R393, R403): the marked slot, after a boot timeout the other; where its image fails the other slot is loaded. -/
def bootImage (s : State) : State :=
  let marked := b2n s.nv.active + 1
  let first := if s.rst.retried then 3 - marked else marked
  let go := fun (s : State) (n : Nat) => bootRun (bootMeasure s (slotImage s n)) (slotImage s n) n
  if (fwCheck s (slotImage s first)).isNone then
    go (if s.rst.retried then modRst s (fun r => { r with fallback := true }) else s) first
  else
    let s := reportBy s 0x0F 0 8 255 0
    if (fwCheck s (slotImage s (3 - first))).isNone then
      go (modRst s (fun r => { r with fallback := !s.rst.retried })) (3 - first)
    else bootFailed s

/-- Boot steps 1 to 9. -/
def bootSteps (s : State) (e : BootEnv) : State :=
  let s := { s with pw := { s.pw with por := false } }
  let s := modRst s (fun r => { r with bootT := s.now, step := 7 })
  let s := extendMeas s 0 (Config.sha384 Config.bootRom)
  let s := extendMeas s 1 (asciiPad (orderingCode s) 16 ++ padTo 32 (Config.fuseBytes s.fuse.code))
  let s := bootOptions (bootCal s)
  let s := bootCores (bootClocks s e) e
  let s := bootDram (bootIsland (bootFlash s e) e) e
  if e.badDram = 0 then bootImage s else s

/-- BOOT (R390): power-on reset is released. -/
def execBoot (env : BootEnv) (s : State) : Res :=
  .next (if s.pw.main ∧ s.pw.aux = true ∧ s.pw.por = true ∧ s.pw.pwrdis = false then bootSteps s env else s)

/-! ## What the boot waits for -/

/-- Is a boot in progress past its first steps? -/
def inBoot (s : State) : Bool := !s.pw.por && s.pw.main && !s.rst.ready && !s.rst.failed

/-- MRAM_WRITE_RELEASE (R392): the bank has reached 20.0 V; step 10. -/
def execMramWriteRelease (s : State) : Res :=
  .next (if inBoot s && s.rst.mramHeld then
    modRst s (fun r => { r with mramHeld := false, step := if r.step = 9 then 10 else r.step })
  else s)

/-- MRAM_RELEASE_TIMEOUT (R377, R392): 3 s without 20.0 V: C is 0, the limit 0. -/
def execMramReleaseTimeout (s : State) : Res :=
  .next (if inBoot s && s.rst.mramHeld && decide (s.rst.bootT + 3000000 ≤ s.now) then
    let s := modNrg s (fun n => { n with capUf := 0, eMj := 0, embValid := true, limitNext := none, measuring := false })
    let s := reportBy (applyLimit (setSmart s 4 true) 0) 0x0D 0 1 2 4
    bootReady (modRst s (fun r => { r with mramHeld := false, step := if r.step = 9 then 10 else r.step }))
  else s)

/-- FLC block states from the BLOCK records (step 3 of recovery): erased blocks, and written blocks as sealed; hold-up blocks that
hold staged writes. -/
def restoreBlocks (s : State) : State :=
  let put_ := fun (s : State) (e : Nat × Sb) (st : BlkSt) =>
    (List.range 32).foldl (fun s ch =>
      if e.2.absent.getLsbD ch then s
      else (List.range 4).foldl (fun s pl => modBlk s ch (e.1 / 2730) pl (e.1 % 2730) (fun b => { b with st := st })) s) s
  let s := s.ftla.sbs.foldl (fun s e =>
    if e.2.ev = 5 then put_ s e .erased else if 1 ≤ e.2.ev ∧ e.2.ev ≤ 3 then put_ s e .sealed else s) s
  s.ftla.staging.foldl (fun s e => match e.drained with
    | some g => modBlk s (gChan g) (gDie g) (gPlane g) (gBlock g) (fun _ => { st := .sealed, pslc := true, hold := true })
    | none => s) s

/-- One option-area polder (R37, R389): provisioned with its record's registers and activated; a record that fails leaves it
PROVISIONING with an entry of kind 3. -/
def optionPolder (s : State) (b : Bytes) : State :=
  let p := leAt b 0 1
  if p = 0 ∨ 64 ≤ p then logDirect s 3 0 p 0x0F 1 0
  else if (polder s p).st ≠ .empty then s
  else
    let w := fun (n : Nat) => BitVec.ofNat 32 (leAt b (4 + 4 * n) 4)
    let s := provisionPolder s p
    let s := modPolder s p (fun v => { v with
      res := (List.range 9).foldl (fun r n => resPut r n (w n)) {},
      weight := BitVec.ofNat 8 (fld (w 9) 7 0), lend := bitOf (w 9) 8, perm := BitVec.ofNat 3 (fld (w 10) 2 0) })
    let s := activatePolder s p true 0
    if (polder s p).st = .active then s else logDirect s 3 0 p 0x0F 1 0

/-- FTLA_READY (R37, R83, R315, R389): steps 11 and 12; staged writes without a hold-up copy, which only an NVM Subsystem Reset
leaves, reach the granules before their MAP records. -/
def execFtlaReady (grans : List Nat) (s : State) : Res :=
  .next (if inBoot s && s.ftla.replaying && !s.rst.mramHeld && decide (9 ≤ s.rst.step.toNat) && drainOk s grans then
    let s := recover (restoreBlocks (drainTo s grans))
    let s := s.rst.polRecs.foldl optionPolder s
    bootReady (modRst s (fun r => { r with step := 12 }))
  else s)

/-- BOOT_TIMEOUT (R393): RST_STAT.ready is not set within the boot timeout: the boot restarts once with the other slot, a second
timeout is as both slots failing. -/
def execBootTimeout (env : BootEnv) (s : State) : Res :=
  .next (if inBoot s && decide (s.rst.bootT + s.rst.bootTimeoutS * 1000000 ≤ s.now) then
    let s := reportBy s 0x0F 0 8 255 0
    if s.rst.retried then bootFailed s
    else bootSteps (modRst (nssState s s.rst.kind) (fun r => { r with retried := true, mramHeld := s.rst.mramHeld })) env
  else s)

/-- OPTION_POLDER_REACTIVATION (R388): every polder torn down by the reset of port A has reached EMPTY. -/
def execOptionPolderReactivation (s : State) : Res :=
  .next (if s.pol.reactivate ∧ s.pol.tab.all (fun e => decide (e.2.st ≠ .teardown)) = true then
    s.rst.polRecs.foldl optionPolder { s with pol := { s.pol with reactivate := false } }
  else s)

/-! ## The watchdog -/

/-- Is a service core's bit still clear? -/
def missedKick (s : State) (n : Nat) : Bool := decide (n < s.rst.service.length) && !s.rst.kick.getLsbD n

/-- WATCHDOG_PERIOD_END (R412): late bits and EXT_INT; a core that misses two periods in a row is reported and the watchdog reset
follows, unless a power-on still boots, which is wider and goes on (R390). -/
def execWatchdogPeriodEnd (s : State) : Res :=
  .next (if s.rst.wdtEn = false then s
  else
    let late := (List.range 16).filter (missedKick s)
    let twice := late.filter (fun n => s.rst.missed.getLsbD n)
    let bits := BitVec.ofNat 16 ((late.map (fun n => 2 ^ n)).sum)
    let id := fun (n : Nat) => s.rst.service.getD n 0
    let t := late.foldl (fun t n => modCore t (id n) (fun k => { k with wdtInt := true })) s
    let t := modRst t (fun r => { r with late := r.late ||| bits, missed := bits, kick := 0 })
    if twice.isEmpty then t
    else if booting s ∧ s.rst.kind.toNat < 2 then twice.foldl (fun t n => reportBy t 0x0F 0 8 (id n) 6) t
    else nssReset (twice.foldl (fun t n => reportBy t 0x0F 0 8 (id n) 6) t) 3)

end Sys2Proof.Machine
end

