-- ==== Sys2Proof/Machine/Nonet.lean ====
section
/-! DEFINITION. Nonet and tag operations, packed compares and classification (R120, R129-R131). -/

namespace Sys2Proof.Machine

open Sys2Proof

/-- A compare condition on byte `x` of the first operand, lane `n`, second operand `b` (R129). -/
def cmpCond (cond : Nat) (x : Byte) (b : W36) (n : Nat) : Bool :=
  let y := byteN b n
  match cond with
  | 0 => x == y
  | 1 => x != y
  | 2 => decide (x.toNat < y.toNat)
  | 3 => decide (y.toNat ≤ x.toNat)
  | 4 => decide (x.toInt < y.toInt)
  | 5 => decide (y.toInt ≤ x.toInt)
  | 6 => decide ((byteN b 0).toNat ≤ x.toNat) && decide (x.toNat ≤ (byteN b 1).toNat)
  | _ => decide (x.toNat < (byteN b 0).toNat) || decide ((byteN b 1).toNat < x.toNat)

/-- A combine code (R129). -/
def combine (comb : Nat) (old c : Bool) : Bool :=
  match comb with
  | 0 => c
  | 1 => old && c
  | 2 => old || c
  | _ => old && !c

/-- The word with new tags by lane. -/
def withTags (a : W36) (t : Nat → Bool) : W36 := mkWord (tags4 (t 0) (t 1) (t 2) (t 3)) (dataOf a)

/-- tcmp of R129, as value; flags.t is then the OR of the tags (R120). -/
def tcmp (a b : W36) (cond comb : Nat) : W36 :=
  withTags a (fun n => combine comb (tagN a n) (cmpCond cond (byteN a n) b n))

/-- A tag-setting result: flags.t is the OR of the four tags (R120). -/
def tagRes (r : W36) (g : BitVec 4) : W36 × BitVec 4 := (r, setT g (tags r != 0))

/-- The selected bytes of a word, lane order: those whose tag differs from `untagged`. -/
def selected (a : W36) (untagged : Bool) : Bytes :=
  ((List.range 4).filter (fun n => tagN a n != untagged)).map (byteN a)

/-- packt of R129. -/
def packt (a : W36) (untagged : Bool) : W36 :=
  let l := selected a untagged
  ofLanes (fun n => l.getD n 0) (fun n => decide (n < l.length))

/-- Nonet n of the sequence a nonets 0 to 3, b nonets 0 to 3. -/
def seqByte (a b : W36) (n : Nat) : Byte := if n < 4 then byteN a n else byteN b (n - 4)
/-- Its tag. -/
def seqTag (a b : W36) (n : Nat) : Bool := if n < 4 then tagN a n else tagN b (n - 4)

/-- NROT by k (R129). -/
def nrot (a : W36) (k : Nat) : W36 := ofLanes (fun n => byteN a ((n + 4 - k) % 4)) (fun n => tagN a ((n + 4 - k) % 4))
/-- NALN by k (R129). -/
def naln (a b : W36) (k : Nat) : W36 := ofLanes (fun n => seqByte a b (n + k)) (fun n => seqTag a b (n + k))

/-- A word of the nonet group; none where a modifier bit that it does not use is one (R126, R129). -/
def nonetWord (c : Nat) (rd ra rb : BitVec 5) (r : Option AluFn) (s : State) : State :=
  runWord c s (fun s =>
    match r with
    | none => illegal s
    | some f =>
      let k := core s c
      let r := f (rget k ra) (rget k rb) k.flags
      nextWord s c { rset k rd r.1 with flags := r.2 })

/-- TCMP (R129): cond fn 8:6, combine fn 10:9; fn 12:11 zero. -/
def nTcmp (m : BitVec 7) : Option AluFn := if m.toNat < 32 then some (fun a b g => tagRes (tcmp a b (m.toNat % 8) (m.toNat / 8 % 4)) g) else none

/-- TSET (R129): tags = fn 9:6. -/
def nTset (m : BitVec 7) : Option AluFn := if m.toNat < 16 then some (fun a _ g => tagRes (mkWord (m.setWidth 4) (dataOf a)) g) else none

/-- TAND (R129). -/
def nTand (m : BitVec 7) : Option AluFn := if m = 0 then some (fun a b g => tagRes (mkWord (tags a &&& tags b) (dataOf a)) g) else none

/-- TOR (R129). -/
def nTor (m : BitVec 7) : Option AluFn := if m = 0 then some (fun a b g => tagRes (mkWord (tags a ||| tags b) (dataOf a)) g) else none

/-- TXOR (R129). -/
def nTxor (m : BitVec 7) : Option AluFn := if m = 0 then some (fun a b g => tagRes (mkWord (tags a ^^^ tags b) (dataOf a)) g) else none

/-- TANDN (R129). -/
def nTandn (m : BitVec 7) : Option AluFn := if m = 0 then some (fun a b g => tagRes (mkWord (tags a &&& ~~~tags b) (dataOf a)) g) else none

/-- TGET (R129). -/
def nTget (m : BitVec 7) : Option AluFn := if m = 0 then some (fun a _ g => ((tags a).setWidth 36, g)) else none

/-- TPUT (R129): tags = rb 3:0. -/
def nTput (m : BitVec 7) : Option AluFn := if m = 0 then some (fun a b g => tagRes (mkWord (b.setWidth 4) (dataOf a)) g) else none

/-- TCNTA (R129). -/
def nTcnta (m : BitVec 7) : Option AluFn := if m = 0 then some (fun a b g => (b + BitVec.ofNat 36 (tagCount a), g)) else none

/-- The lowest lane whose tag is 1, or 4. -/
def firstTag (a : W36) : Nat := ((List.range 4).find? (fun n => tagN a n)).getD 4

/-- TFIRST (R129). -/
def nTfirst (m : BitVec 7) : Option AluFn := if m = 0 then some (fun a _ g => (BitVec.ofNat 36 (firstTag a), g)) else none

/-- TSPRD (R129). -/
def nTsprd (m : BitVec 7) : Option AluFn := if m = 0 then some (fun a _ g => tagRes (mkWord (if tags a = 0 then 0 else 15) (dataOf a)) g) else none

/-- NEXT (R129): k = fn 7:6. -/
def nNext (m : BitVec 7) : Option AluFn :=
  if m.toNat < 4 then
    some (fun a _ g => (ofLanes (fun n => if n = 0 then byteN a m.toNat else 0) (fun n => decide (n = 0) && tagN a m.toNat), g))
  else none

/-- NINS (R129): k = fn 7:6. -/
def nNins (m : BitVec 7) : Option AluFn :=
  if m.toNat < 4 then
    some (fun a b g => (ofLanes (fun n => if n = m.toNat then byteN b 0 else byteN a n)
      (fun n => if n = m.toNat then tagN b 0 else tagN a n), g))
  else none

/-- NROT (R129): k = fn 7:6. -/
def nNrot (m : BitVec 7) : Option AluFn := if m.toNat < 4 then some (fun a _ g => (nrot a m.toNat, g)) else none

/-- NALN (R129, R147): k = fn 7:6. -/
def nNaln (m : BitVec 7) : Option AluFn := if m.toNat < 4 then some (fun a b g => (naln a b m.toNat, g)) else none

/-- PACKT (R129): untagged = fn 6. -/
def nPackt (m : BitVec 7) : Option AluFn := if m.toNat < 2 then some (fun a _ g => tagRes (packt a (m.toNat == 1)) g) else none

/-- NBCAST (R129): byte 0 in all lanes, tags zero. -/
def nNbcast (m : BitVec 7) : Option AluFn := if m = 0 then some (fun a _ g => (ofLanes (fun _ => byteN a 0) (fun _ => false), g)) else none

/-- The nonet group by fn 5:0; `m` is fn 12:6 (R129). -/
def nonetOp (f : Nat) (m : BitVec 7) : Option AluFn :=
  match f with
  | 0 => nTcmp m
  | 1 => nTset m
  | 2 => nTand m
  | 3 => nTor m
  | 4 => nTxor m
  | 5 => nTandn m
  | 6 => nTget m
  | 7 => nTput m
  | 9 => nTcnta m
  | 10 => nTfirst m
  | 11 => nTsprd m
  | 12 => nNext m
  | 13 => nNins m
  | 14 => nNrot m
  | 15 => nNaln m
  | 16 => nPackt m
  | 18 => nNbcast m
  | _ => none

/-- TCMP (R129). -/
def execITcmp (c : Nat) (rd ra rb : BitVec 5) (m : BitVec 7) (s : State) : Res := .next (nonetWord c rd ra rb (nTcmp m) s)

/-- TSET (R129). -/
def execITset (c : Nat) (rd ra rb : BitVec 5) (m : BitVec 7) (s : State) : Res := .next (nonetWord c rd ra rb (nTset m) s)

/-- TAND (R129). -/
def execITand (c : Nat) (rd ra rb : BitVec 5) (m : BitVec 7) (s : State) : Res := .next (nonetWord c rd ra rb (nTand m) s)

/-- TOR (R129). -/
def execITor (c : Nat) (rd ra rb : BitVec 5) (m : BitVec 7) (s : State) : Res := .next (nonetWord c rd ra rb (nTor m) s)

/-- TXOR (R129). -/
def execITxor (c : Nat) (rd ra rb : BitVec 5) (m : BitVec 7) (s : State) : Res := .next (nonetWord c rd ra rb (nTxor m) s)

/-- TANDN (R129). -/
def execITandn (c : Nat) (rd ra rb : BitVec 5) (m : BitVec 7) (s : State) : Res := .next (nonetWord c rd ra rb (nTandn m) s)

/-- TGET (R129). -/
def execITget (c : Nat) (rd ra rb : BitVec 5) (m : BitVec 7) (s : State) : Res := .next (nonetWord c rd ra rb (nTget m) s)

/-- TPUT (R129). -/
def execITput (c : Nat) (rd ra rb : BitVec 5) (m : BitVec 7) (s : State) : Res := .next (nonetWord c rd ra rb (nTput m) s)

/-- TCNTA (R129). -/
def execITcnta (c : Nat) (rd ra rb : BitVec 5) (m : BitVec 7) (s : State) : Res := .next (nonetWord c rd ra rb (nTcnta m) s)

/-- TFIRST (R129). -/
def execITfirst (c : Nat) (rd ra rb : BitVec 5) (m : BitVec 7) (s : State) : Res := .next (nonetWord c rd ra rb (nTfirst m) s)

/-- TSPRD (R129). -/
def execITsprd (c : Nat) (rd ra rb : BitVec 5) (m : BitVec 7) (s : State) : Res := .next (nonetWord c rd ra rb (nTsprd m) s)

/-- NEXT (R129). -/
def execINext (c : Nat) (rd ra rb : BitVec 5) (m : BitVec 7) (s : State) : Res := .next (nonetWord c rd ra rb (nNext m) s)

/-- NINS (R129). -/
def execINins (c : Nat) (rd ra rb : BitVec 5) (m : BitVec 7) (s : State) : Res := .next (nonetWord c rd ra rb (nNins m) s)

/-- NROT (R129). -/
def execINrot (c : Nat) (rd ra rb : BitVec 5) (m : BitVec 7) (s : State) : Res := .next (nonetWord c rd ra rb (nNrot m) s)

/-- NALN (R129, R147: a version 1 image takes the illegal-instruction trap). -/
def execINaln (c : Nat) (rd ra rb : BitVec 5) (m : BitVec 7) (s : State) : Res :=
  .next (nonetWord c rd ra rb (if (core s c).v1 then none else nNaln m) s)

/-- PACKT (R129). -/
def execIPackt (c : Nat) (rd ra rb : BitVec 5) (m : BitVec 7) (s : State) : Res := .next (nonetWord c rd ra rb (nPackt m) s)

/-- NBCAST (R129). -/
def execINbcast (c : Nat) (rd ra rb : BitVec 5) (m : BitVec 7) (s : State) : Res := .next (nonetWord c rd ra rb (nNbcast m) s)

/-- TCMPI (R127): byte imm 7:0 in every lane, cond imm 9:8, combine imm 11:10. -/
def immTcmpi (imm : BitVec 18) (a : W36) (g : BitVec 4) : W36 × BitVec 4 :=
  tagRes (tcmp a (ofLanes (fun _ => imm.setWidth 8) (fun _ => false)) (imm.toNat / 256 % 4) (imm.toNat / 1024 % 4)) g

/-- TCMPI (R127): imm 17:12 zero. -/
def execITcmpi (c : Nat) (rd ra : BitVec 5) (imm : BitVec 18) (s : State) : Res :=
  .next (immWord c rd ra (decide (imm.toNat < 4096)) (immTcmpi imm) s)

/-- A classify table entry. -/
def clsEntry (k : Core) (t : Nat) (b : Byte) : BitVec 4 := tget k.cls 0 (t * 256 + b.toNat)

/-- Classification in tag mode (R130). -/
def clsTag (k : Core) (a : W36) (t : Nat) (mask : BitVec 4) (comb : Nat) : W36 :=
  withTags a (fun n => combine comb (tagN a n) (clsEntry k t (byteN a n) &&& mask != 0))

/-- Classification in value mode (R130). -/
def clsVal (k : Core) (a : W36) (t : Nat) (mask : BitVec 4) : W36 :=
  ofLanes (fun n => (clsEntry k t (byteN a n) &&& mask).setWidth 8) (fun _ => false)

/-- CLS as a value: table fn 2:0, mask fn 6:3, combine fn 8:7, mode fn 9; none where fn 12:10 is not zero (R130). -/
def clsOp (k : Core) (f : Nat) (a : W36) (g : BitVec 4) : Option (W36 × BitVec 4) :=
  let mask := BitVec.ofNat 4 (f / 8 % 16)
  if 1024 ≤ f then none
  else if f / 512 % 2 = 0 then some (tagRes (clsTag k a (f % 8) mask (f / 128 % 4)) g)
  else some (clsVal k a (f % 8) mask, g)

/-- CLS (R130): rb zero. -/
def execICls (c : Nat) (rd ra rb : BitVec 5) (fn : BitVec 13) (s : State) : Res :=
  .next (runWord c s (fun s =>
    let k := core s c
    match if rb = 0 then clsOp k fn.toNat (rget k ra) k.flags else none with
    | some r => nextWord s c { rset k rd r.1 with flags := r.2 }
    | none => illegal s))

/-- CLSW as an effect on the tables: eight entries of table `t` from entry (b 7:3) × 8, from the bits of `a` (R131). -/
def clswSet (k : Core) (t : Nat) (a b : W36) : Core :=
  let e := b.toNat % 256 / 8 * 8
  { k with cls := (List.range 8).foldl (fun l n => tset l 0 (t * 256 + e + n) ((a >>> (4 * n)).setWidth 4)) k.cls }

/-- CLSW (R131): rd and fn 12:3 zero. -/
def execIClsw (c : Nat) (rd ra rb : BitVec 5) (fn : BitVec 13) (s : State) : Res :=
  .next (runWord c s (fun s =>
    let k := core s c
    if rd = 0 ∧ fn.toNat < 8 then nextWord s c (clswSet k fn.toNat (rget k ra) (rget k rb)) else illegal s))

end Sys2Proof.Machine
end

