-- ==== Sys2Proof/Machine/Branch.lean ====
section
/-! DEFINITION. Branches and jumps (R126, R127). -/

namespace Sys2Proof.Machine

open Sys2Proof

/-- A conditional branch word: a taken branch is counted (event 0x0A). -/
def branchWord (c : Nat) (off : BitVec 18) (cond : Core → Bool) (s : State) : State :=
  runWord c s (fun s =>
    let k := core s c
    if cond k then .ok (setCore s c { k with pc := k.pc + sext18 off }) [2, 3, 0x0A] none
    else nextWord s c k)

/-- BEQ (R127). -/
def execIBeq (c : Nat) (ra rb : BitVec 5) (off : BitVec 18) (s : State) : Res :=
  .next (branchWord c off (fun k => rget k ra == rget k rb) s)

/-- BNE (R127). -/
def execIBne (c : Nat) (ra rb : BitVec 5) (off : BitVec 18) (s : State) : Res :=
  .next (branchWord c off (fun k => rget k ra != rget k rb) s)

/-- BLT (R127): signed. -/
def execIBlt (c : Nat) (ra rb : BitVec 5) (off : BitVec 18) (s : State) : Res :=
  .next (branchWord c off (fun k => decide ((rget k ra).toInt < (rget k rb).toInt)) s)

/-- BGE (R127): signed. -/
def execIBge (c : Nat) (ra rb : BitVec 5) (off : BitVec 18) (s : State) : Res :=
  .next (branchWord c off (fun k => decide ((rget k rb).toInt ≤ (rget k ra).toInt)) s)

/-- BLTU (R127). -/
def execIBltu (c : Nat) (ra rb : BitVec 5) (off : BitVec 18) (s : State) : Res :=
  .next (branchWord c off (fun k => decide ((rget k ra).toNat < (rget k rb).toNat)) s)

/-- BGEU (R127). -/
def execIBgeu (c : Nat) (ra rb : BitVec 5) (off : BitVec 18) (s : State) : Res :=
  .next (branchWord c off (fun k => decide ((rget k rb).toNat ≤ (rget k ra).toNat)) s)

/-- BF (R127): the ra field is the flag condition 0 to 7; rb zero. -/
def execIBf (c : Nat) (ra rb : BitVec 5) (off : BitVec 18) (s : State) : Res :=
  .next (if ra.toNat < 8 ∧ rb = 0 then branchWord c off (fun k => flagCond k.flags ra.toNat) s else runWord c s illegal)

/-- JAL (R127): rd = pc + 1; pc = pc + sext(off23). -/
def execIJal (c : Nat) (rd : BitVec 5) (off : BitVec 23) (s : State) : Res :=
  .next (runWord c s (fun s =>
    let k := core s c
    .ok (setCore s c { rset k rd (k.pc + 1) with pc := k.pc + sext23 off }) [2, 3, 0x0A] none))

/-- JALR (R127): target = ra + sext(imm); rd = pc + 1; pc = target. -/
def execIJalr (c : Nat) (rd ra : BitVec 5) (imm : BitVec 18) (s : State) : Res :=
  .next (runWord c s (fun s =>
    let k := core s c
    .ok (setCore s c { rset k rd (k.pc + 1) with pc := rget k ra + sext18 imm }) [2, 3, 0x0A] none))

end Sys2Proof.Machine
end

