-- ==== Sys2Proof/Machine/Sideband.lean ====
section
/-! DEFINITION. The sideband (R414-R425): I3C common command codes, the I2C fallback, the MCTP endpoint, NVMe-MI with its two command
slots and the admin tunnel, NVMe-MI Send and Receive from the host (R64), and the LED (R453). What MCTP and NVMe-MI lay out
themselves is free (assumption 5). -/

namespace Sys2Proof.Machine

open Sys2Proof

/-! ## Bus transactions -/

/-- A transaction that SBD answers or refuses (none: NACK). With a shared address the data on the bus is corrupted and the protocol
error stands (R416). SBD runs from 3.3 V aux. -/
def sbdAnswer (s : State) (r : Option Bytes) : State :=
  if s.sbd.tied then
    let (n, s) := takeFree s
    modSbd s (fun b => { b with resp := r.map (fun _ => Config.freeBytes n), protoErr := true })
  else modSbd s (fun b => { b with resp := r })

/-- A transaction on the bus: nothing happens without aux. -/
def onBus (s : State) (f : State → State) : State := if s.pw.aux then f s else s

/-- A direct CCC, which needs the dynamic address. -/
def direct (s : State) (f : State → State) : State :=
  onBus s (fun s => if s.sbd.dynValid then f s else modSbd s (fun b => { b with resp := none }))

/-- The provisioned ID (R414). -/
def provId (s : State) : Nat :=
  0x1F3C * 2 ^ 33 + 0x0256 * 2 ^ 16 + s.sbd.slot.toNat * 2 ^ 12 + (crc32c (padTo 20 s.fuse.serial)).toNat % 4096

/-- Big-endian bytes of a number. -/
def beBytes (n v : Nat) : Bytes := (leBytes n v).reverse

/-- The legacy address (R418). -/
def legacyAddr (s : State) : Nat := 0x48 + s.sbd.slot.toNat

/-- A dynamic address is assigned: the I2C fallback ends (R418). -/
def assignAddr (s : State) (a : BitVec 7) (tie : Bool) : State :=
  modSbd s (fun b => { b with dynValid := true, dynAddr := a, fallback := false, tied := tie, protoErr := b.protoErr || tie })

/-- ENTDAA (R416-R418): a module without a dynamic address takes part with its provisioned ID, BCR and DCR. -/
def execEntdaa (addr : BitVec 7) (won tie : Bool) (s : State) : Res :=
  .next (onBus s (fun s =>
    if s.sbd.dynValid then s
    else
      let s := modSbd s (fun b => { b with resp := some (beBytes 6 (provId s) ++ [0x06, 0x00]) })
      if won then assignAddr s addr tie else s))

/-- SETDASA (R417): addressed to the legacy address; a module that has a dynamic address does not answer it. -/
def execSetdasa (legacy addr : BitVec 7) (s : State) : Res :=
  .next (onBus s (fun s =>
    if legacy.toNat = legacyAddr s ∧ s.sbd.dynValid = false then assignAddr (sbdAnswer s (some [])) addr false
    else modSbd s (fun b => { b with resp := none })))

/-- RSTDAA (R417, R418, R420): the dynamic address and the endpoint ID are gone; the fallback stays off. -/
def execRstdaa (s : State) : Res :=
  .next (onBus s (fun s => modSbd s (fun b => { b with dynValid := false, dynAddr := 0, eid := 0, tied := false, resp := some [] })))

/-- ENEC (R414): interrupts on the bus are enabled. -/
def execEnec (s : State) : Res := .next (onBus s (fun s => modSbd s (fun b => { b with ibiEn := true, resp := some [] })))

/-- DISEC (R414). -/
def execDisec (s : State) : Res := .next (onBus s (fun s => modSbd s (fun b => { b with ibiEn := false, resp := some [] })))

/-- GETPID (R414). -/
def execGetpid (s : State) : Res := .next (direct s (fun s => sbdAnswer s (some (beBytes 6 (provId s)))))

/-- GETBCR (R414). -/
def execGetbcr (s : State) : Res := .next (direct s (fun s => sbdAnswer s (some [0x06])))

/-- GETDCR (R414). -/
def execGetdcr (s : State) : Res := .next (direct s (fun s => sbdAnswer s (some [0x00])))

/-- Is an interrupt on the bus pending: for a response of a command slot or of a control message (R420)? -/
def ibiPending (s : State) : Bool := s.sbd.ibi || s.sbd.slot0.ibi || s.sbd.slot1.ibi

/-- The format 1 word of GETSTATUS (R419): the count of pending interrupts is 0 or 1. -/
def getstatusWord (s : State) : Nat :=
  b2n (ibiPending s) + 32 * b2n s.sbd.protoErr + 256 * fltSumm s + 1024 * (s.nv.faultSeq % 64)

/-- GETSTATUS (R419): the protocol error is cleared by it. -/
def execGetstatus (s : State) : Res :=
  .next (direct s (fun s =>
    let w := getstatusWord s
    sbdAnswer (modSbd s (fun b => { b with protoErr := false })) (some (beBytes 2 w))))

/-- GETMWL (R414). -/
def execGetmwl (s : State) : Res := .next (direct s (fun s => sbdAnswer s (some (beBytes 2 s.sbd.mwl))))

/-- GETMRL (R414). -/
def execGetmrl (s : State) : Res := .next (direct s (fun s => sbdAnswer s (some (beBytes 2 s.sbd.mrl))))

/-- A maximum length that SETMWL and SETMRL accept. -/
def lengthOk (n : Nat) : Bool := decide (69 ≤ n) && decide (n ≤ 261)

/-- SETMWL (R414): below 69 or above 261 it is refused. -/
def execSetmwl (n : Nat) (s : State) : Res :=
  .next (direct s (fun s => if lengthOk n then sbdAnswer (modSbd s (fun b => { b with mwl := n })) (some []) else sbdAnswer s none))

/-- SETMRL (R414). -/
def execSetmrl (n : Nat) (s : State) : Res :=
  .next (direct s (fun s => if lengthOk n then sbdAnswer (modSbd s (fun b => { b with mrl := n })) (some []) else sbdAnswer s none))

/-- UNSUPPORTED_CCC (R414): a NACK when addressed, ignored when broadcast. -/
def execUnsupportedCcc (addressed : Bool) (s : State) : Res :=
  .next (onBus s (fun s => if addressed then modSbd s (fun b => { b with resp := none }) else s))

/-! ## FRU data over the I2C fallback -/

/-- The FRU data: it holds the ordering code (R3). -/
def fruData (s : State) : Bytes := Config.fruHead ++ asciiPad (orderingCode s) 16 ++ Config.fruTail

/-- I2C_FRU_READ (R418): from the FRU read offset, during the fallback. -/
def execI2cFruRead (addr : BitVec 7) (len : Nat) (s : State) : Res :=
  .next (onBus s (fun s => modSbd s (fun b => { b with
    resp := if b.fallback ∧ addr.toNat = legacyAddr s then some (span (fruData s) b.fruOff len) else none })))

/-- I2C_FRU_OFFSET_WRITE (R418). -/
def execI2cFruOffsetWrite (addr : BitVec 7) (off : Nat) (s : State) : Res :=
  .next (onBus s (fun s => modSbd s (fun b =>
    if b.fallback ∧ addr.toNat = legacyAddr s then { b with fruOff := off, resp := some [] } else { b with resp := none })))

/-! ## Command slots -/

/-- A command slot, 0 or 1. -/
def miSlot (s : State) (n : Nat) : MiSlot := if n = 0 then s.sbd.slot0 else s.sbd.slot1
/-- Replaces a command slot. -/
def setSlot (s : State) (n : Nat) (m : MiSlot) : State :=
  modSbd s (fun b => if n = 0 then { b with slot0 := m } else { b with slot1 := m })

/-- A request arrives on a command slot with the response that it will have: one that is still busy drops it (R421). A new
request on the slot shows that the controller has served the slot's last interrupt on the bus (assumption 52). -/
def miRequest (s : State) (n : Nat) (tunnel : Bool) (f : State → Bytes × State) : State :=
  if 2 ≤ n ∨ s.sbd.dynValid = false then s
  else if (miSlot s n).req.isSome then modSbd s (fun b => { b with dropped := satInc b.dropped })
  else
    let (r, s) := f s
    setSlot s n { miSlot s n with asm := none, req := some r, tunnel := tunnel, resp := none, ibi := false }

/-- MI_RESPONSE_READY (R420, R423): the response of a slot is ready; SBD raises an interrupt on the bus unless DISEC has disabled it. -/
def execMiResponseReady (slot : Nat) (s : State) : Res :=
  .next (onBus s (fun s =>
    let m := miSlot s slot
    if 2 ≤ slot ∨ m.req.isNone = true then s
    else
      sbdAnswer (setSlot s slot { m with req := none, tunnel := false, resp := m.req, ibi := m.ibi || s.sbd.ibiEn }) m.req))

/-! ## MCTP -/

/-- Does the endpoint accept a destination (R420)? -/
def eidOk (s : State) (d : BitVec 8) : Bool := d == 0 || (s.sbd.eid != 0 && d == s.sbd.eid)

/-- MCTP_PACKET (R420, R421): a bad PEC or a packet out of sequence discards the message; a whole NVMe-MI message is a request. -/
def execMctpPacket (pkt : MctpPacket) (s : State) : Res :=
  .next (onBus s (fun s =>
    let m := miSlot s pkt.slot
    if 2 ≤ pkt.slot ∨ s.sbd.dynValid = false then s
    else if !pkt.pecOk then setSlot s pkt.slot { m with asm := none }
    else if !eidOk s pkt.dest then s
    else
      let sofar := if pkt.som then some [] else match m.asm with
        | some (b, n) => if n = pkt.seq then some b else none
        | none => none
      match sofar with
      | none => setSlot s pkt.slot { m with asm := none }
      | some b =>
        let b := b ++ pkt.payload
        if 4224 < b.length then setSlot s pkt.slot { m with asm := none }
        else if !pkt.eom then setSlot s pkt.slot { m with asm := some (b, pkt.seq + 1) }
        else
          let s := setSlot s pkt.slot { m with asm := none }
          if pkt.msgType = 4 then
            miRequest s pkt.slot false (fun s =>
              let (n, s) := takeFree s
              (Config.stdBytes 0x300 n, s))
          else s))

/-- A control message with its response: it is ready at once, and the interrupt on the bus is raised unless DISEC has disabled it. A new
control message shows that the interrupt of the one before has been served (assumption 52). -/
def control (s : State) (f : State → Bytes × State) : State :=
  onBus s (fun s =>
    if s.sbd.dynValid then
      let (r, s) := f s
      sbdAnswer (modSbd s (fun b => { b with ibi := b.ibiEn })) (some r)
    else s)

/-- SET_ENDPOINT_ID (R420): the null and the broadcast identifier are none. -/
def execSetEndpointId (eid : BitVec 8) (s : State) : Res :=
  .next (control s (fun s =>
    if eid = 0 ∨ eid = 0xFF then ([2], s) else ([0, 0, eid, 0], modSbd s (fun b => { b with eid := eid }))))

/-- GET_ENDPOINT_ID (R420). -/
def execGetEndpointId (s : State) : Res :=
  .next (control s (fun s =>
    let (n, s) := takeFree s
    ([0, s.sbd.eid] ++ padTo 2 (Config.stdBytes 0x302 n), s)))

/-- GET_ENDPOINT_UUID (R420). -/
def execGetEndpointUuid (s : State) : Res :=
  .next (control s (fun s =>
    let (n, s) := takeFree s
    ([0] ++ padTo 16 (Config.stdBytes 0x303 n), s)))

/-- GET_MCTP_VERSION_SUPPORT (R420). -/
def execGetMctpVersionSupport (s : State) : Res :=
  .next (control s (fun s =>
    let (n, s) := takeFree s
    ([0] ++ Config.stdBytes 0x304 n, s)))

/-- GET_MESSAGE_TYPE_SUPPORT (R420): NVMe-MI. -/
def execGetMessageTypeSupport (s : State) : Res := .next (control s (fun s => ([0, 1, 4], s)))

/-! ## NVMe-MI -/

/-- Response statuses of NVMe-MI. -/
def miOk : Byte := 0
/-- Internal Error. -/
def miInternal : Byte := 2
/-- Invalid Command Opcode. -/
def miOpcode : Byte := 3
/-- Invalid Parameter. -/
def miParam : Byte := 4

/-- Are the loads on, so that the controllers can answer? -/
def mainOk (s : State) : Bool := s.pw.main && !s.pw.off

/-- Does a controller exist for the management endpoint: 0, and 64 in dual-port mode (R421)? -/
def miCtrl (s : State) (c : Nat) : Bool := c == 0 || (c == 64 && dual s)

/-- Read NVMe-MI Data Structure: subsystem 0, port 1, controller list 2, controller 3, commands supported 4. -/
def miData (s : State) (dtype c : Nat) : Bytes × State :=
  if dtype = 2 then
    (miOk :: (leBytes 2 (1 + b2n (dual s)) ++ leBytes 2 0 ++ (if dual s then leBytes 2 64 else [])), s)
  else if 4 < dtype ∨ (dtype = 3 ∧ miCtrl s c = false) then ([miParam], s)
  else
    let (n, s) := takeFree s
    (miOk :: Config.stdBytes (0x310 + dtype) n, s)

/-- NVM Subsystem Health Status Poll: Drive Functional is 0 while FLT_SUMM.state is 3; SMART warnings; temperature in °C. -/
def miHealth (s : State) : Bytes × State :=
  let (n, s) := takeFree s
  let nss := byteAt (Config.stdBytes 0x320 n) 0 &&& 0xDF ||| (if fltSumm s = 3 then 0 else 0x20)
  (miOk :: [nss, s.host.smart, BitVec.ofNat 8 (hottest s / 10 % 256).toNat] ++ padTo 5 ((Config.stdBytes 0x320 n).drop 3), s)

/-- CSTS of a controller: RDY, CFS, SHST, PP (R58, R82, R84). -/
def cstsReg (s : State) (fn : Nat) : W32 :=
  let c := ctrl s fn
  putB c.rdy 0 ||| putB c.cfs 1 ||| put c.shst.toNat 3 2 ||| putB s.host.fwAct.isSome 5

/-- Controller Health Status Poll: CSTS reads as zero without 12 V main. -/
def miCtrlHealth (s : State) (c : Nat) : Bytes × State :=
  if !miCtrl s c then ([miParam], s)
  else
    let (n, s) := takeFree s
    (miOk :: (leBytes 2 c ++ leBytes 2 (if mainOk s then (cstsReg s c).toNat % 65536 else 0)) ++ Config.stdBytes 0x321 n, s)

/-- Configuration Get: health status change 2, transmission unit 3. -/
def miConfigGet (s : State) (item : Nat) : Bytes × State :=
  if item = 3 then (miOk :: leBytes 3 s.sbd.mtu, s) else if item = 2 then (miOk :: leBytes 3 s.sbd.health, s) else ([miParam], s)

/-- Configuration Set (R421): a unit of 64 to 256 bytes whose packet fits both lengths. -/
def miConfigSet (s : State) (item v : Nat) : Bytes × State :=
  if item = 3 then
    if v < 64 ∨ 256 < v ∨ s.sbd.mwl < v + 5 ∨ s.sbd.mrl < v + 5 then ([miParam], s)
    else ([miOk], modSbd s (fun b => { b with mtu := v }))
  else if item = 2 then ([miOk], modSbd s (fun b => { b with health := v }))
  else ([miParam], s)

/-- VPD Read: the FRU data. -/
def miVpd (s : State) (off len : Nat) : Bytes × State := (miOk :: span (fruData s) off len, s)

/-- READ_NVME_MI_DATA_STRUCTURE (R421). -/
def execReadNvmeMiDataStructure (slot dtype ctrl_ : Nat) (s : State) : Res :=
  .next (onBus s (fun s => miRequest s slot false (fun s => miData s dtype ctrl_)))

/-- NVM_SUBSYSTEM_HEALTH_STATUS_POLL (R421). -/
def execNvmSubsystemHealthStatusPoll (slot : Nat) (s : State) : Res :=
  .next (onBus s (fun s => miRequest s slot false miHealth))

/-- CONTROLLER_HEALTH_STATUS_POLL (R421). -/
def execControllerHealthStatusPoll (slot ctrl_ : Nat) (s : State) : Res :=
  .next (onBus s (fun s => miRequest s slot false (fun s => miCtrlHealth s ctrl_)))

/-- CONFIGURATION_GET (R421). -/
def execConfigurationGet (slot item : Nat) (s : State) : Res :=
  .next (onBus s (fun s => miRequest s slot false (fun s => miConfigGet s item)))

/-- CONFIGURATION_SET (R421). -/
def execConfigurationSet (slot item value : Nat) (s : State) : Res :=
  .next (onBus s (fun s => miRequest s slot false (fun s => miConfigSet s item value)))

/-- VPD_READ (R421). -/
def execVpdRead (slot off len : Nat) (s : State) : Res :=
  .next (onBus s (fun s => miRequest s slot false (fun s => miVpd s off len)))

/-- A tunnelled command that ends with an NVMe status field, DNR with it (R456). -/
def tunnelled (st : Nat) (b : Bytes) : Bytes := miOk :: (leBytes 2 st ++ b)

/-- The admin tunnel (R422): reads as the port A PF sees them; nothing is acknowledged. -/
def tunnelRun (s : State) (c : Nat) : TunnelCmd → Bytes × State
  | .other _ => ([miOpcode], s)
  | .identify cns nsid =>
    if c ≠ 0 then ([miParam], s)
    else if !mainOk s then ([miInternal], s)
    else
      let (st, b, t) := identData s 0 cns nsid
      (tunnelled (statField st) b, { s with freeCtr := t.freeCtr })
  | .getLogPage lid off len =>
    if c ≠ 0 then ([miParam], s)
    else if !mainOk s then ([miInternal], s)
    else if !logAllowed 0 lid then (tunnelled (statField .invalidLogPage) [], s)
    else
      let (b, t) := if lid = 0xC5 then (logC5 s.nv.cal, s) else logPage s 0 lid off
      (tunnelled 0 (span b off len), { s with freeCtr := t.freeCtr })
  | .getFeatures fid =>
    if c ≠ 0 then ([miParam], s)
    else if !mainOk s then ([miInternal], s)
    else
      match featVal s 0 fid 0 with
      | some v => (tunnelled 0 (leBytes 4 v.1.toNat ++ leBytes 4 v.2.toNat ++ featData s fid), s)
      | none => (tunnelled (statField .invalidField) [], s)

/-- ADMIN_TUNNEL (R421, R422). -/
def execAdminTunnel (slot ctrl_ : Nat) (cmd : TunnelCmd) (s : State) : Res :=
  .next (onBus s (fun s => miRequest s slot true (fun s => tunnelRun s ctrl_ cmd)))

/-! ## NVMe-MI from the host -/

/-- The commands of R421 by NVMe-MI opcode; every other is Invalid Command Opcode. -/
def miHost (s : State) (opcode : Nat) (d : Bytes) (len : Nat) : Bytes × State :=
  match opcode with
  | 0 => miData s (leAt d 3 1) (leAt d 0 2)
  | 1 => miHealth s
  | 2 => miCtrlHealth s (leAt d 0 2)
  | 3 => miConfigSet s (leAt d 0 1) (leAt d 2 2)
  | 4 => miConfigGet s (leAt d 0 1)
  | 5 => miVpd s 0 len
  | _ => ([miOpcode], s)

/-- NVME_MI_SEND (R64): the commands that carry data to the module. -/
def execNvmeMiSend (fn cid opcode : Nat) (data : Bytes) (s : State) : Res :=
  .next (pfCmd s fn cid (fun s =>
    let (r, s) := if opcode = 3 then miHost s 3 data 0 else ([miOpcode], s)
    complete s fn 0 cid .success (BitVec.ofNat 32 (leAt r 0 1))))

/-- NVME_MI_RECEIVE (R64): the commands that return data. -/
def execNvmeMiReceive (fn cid opcode len : Nat) (s : State) : Res :=
  .next (pfCmd s fn cid (fun s =>
    let (r, s) := if opcode = 3 then ([miOpcode], s) else miHost s opcode [] len
    complete s fn 0 cid .success (BitVec.ofNat 32 (leAt r 0 1)) 0 (r.drop 1)))

/-! ## The register page and the LED -/

/-- A read of SBD_STAT, which clears dropped (R10). -/
def sbdStatVal (s : State) : W32 × State :=
  let b := s.sbd
  (put b.eid.toNat 31 24 ||| put b.dropped.toNat 23 16 ||| putB b.fallback 15 ||| putB b.dynValid 14 ||| put b.dynAddr.toNat 13 7
    ||| putB b.ibiEn 6 ||| putB b.protoErr 5 ||| put b.slot.toNat 2 0, modSbd s (fun b => { b with dropped := 0 }))

/-- SBD_STAT_READ (R10, R425). -/
def execSbdStatRead (ini : Ini) (s : State) : Res := .next (readAnswer (pageRead s ini (frameOf 0x11 0 0) 0x40 sbdStatVal))

/-- The states of LED#, highest first (R453). -/
inductive Led where
  | fault | disabled | boot | writeProtected | degraded | active | ready
  deriving DecidableEq, Repr

/-- What LED# shows; none: off because 12 V is absent (R453). -/
def led (s : State) : Option Led :=
  if s.pw.main = false then none
  else if fltSumm s = 3 ∨ s.pw.thermal = true ∨ s.host.portA.detect = true ∨ s.host.portB.detect = true then some .fault
  else if s.pw.pwrdis ∨ s.pw.brownout = true then some .disabled
  else if s.rst.ready = false then some .boot
  else if fltSumm s = 2 then some .writeProtected
  else if fltSumm s = 1 then some .degraded
  else match s.host.lastIo with
    | some t => if s.now < t + 50000 then some .active else some .ready
    | none => some .ready

end Sys2Proof.Machine
end

