-- ==== Sys2Proof/Machine/Pages.lean ====
section
/-! DEFINITION. The register pages: the common header (R429-R435), every register of every block (the page tables of all
chapters), reads and writes through the control window (R9, R10, R430), and the commands that access registers. -/

namespace Sys2Proof.Machine

open Sys2Proof

/-! ## Places -/

/-- The number of a register in a run of `n` registers from `base`, `stride` bytes apart. -/
def regIdx (off base stride n : Nat) : Option Nat :=
  if base ≤ off ∧ off < base + stride * n ∧ (off - base) % stride = 0 then some ((off - base) / stride) else none

/-- PG_CAPS.last times four: the byte offset of the last implemented register of a page. -/
def pageLast (b i : Nat) : Nat :=
  match b with
  | 1 => 0x44
  | 2 => if i = 0 then 0x60 else 0x78
  | 3 => if i = 0 then 0x4F8 else 0xEC
  | 4 => if i = 0 then 0x1FC else 0x83C
  | 5 => 0x4FC
  | 6 => 0x1FC
  | 7 => 0x90
  | 8 => 0x3FC
  | 9 => if i = 0 then 0xAC else 0x208
  | 0x0A => 0x78
  | 0x0B => 0x9C
  | 0x0C => 0x70
  | 0x0D => 0x4FC
  | 0x0E => 0x64
  | 0x0F => 0x54
  | 0x10 => 0x4C
  | 0x11 => 0x48
  | 0x12 => 0x4C
  | 0x13 => 0x48
  | 0x14 => 0x138
  | _ => 0x4C

/-- Does a page hold KG fields (PG_CAPS.kg)? -/
def pageKg (b i : Nat) : Bool :=
  match b with
  | 2 => i != 0
  | 5 => true
  | 9 => i == 1
  | 0x0B => true
  | 0x0C => true
  | 0x0F => true
  | 0x12 => true
  | 0x13 => true
  | _ => false

/-- Is a die command of a channel in flight (FLC_STAT.busy)? -/
def flcBusy (s : State) (ch : Nat) : Bool := (flc s ch).dies.any (fun e => e.2.run.isSome)

/-- PG_STAT.busy: the block's own busy field, of an operation that is started through this page (R429). -/
def pageBusy (s : State) (b j i : Nat) : Bool :=
  match b with
  | 4 => i == 0 && s.bpm.audit
  | 5 => mediaBusy s
  | 9 => i == 0 && flcBusy s j
  | 0x0B => drcSwitching s
  | 0x0D => s.nrg.test
  | 0x12 => optBusy s
  | 0x13 => calBusy s
  | _ => false

/-! ## The header -/

/-- PG_ERR_CODE. -/
def errCodeReg (h : Hdr) : W32 := putB h.errValid 31 ||| put h.errStamp.toNat 13 8 ||| put h.errCode.toNat 7 0

/-- A read of the header (R429); that of PG_ERR_CODE latches PG_ERR_INFO (R431). -/
def hdrVal (s : State) (b j i frame off : Nat) : W32 × State :=
  let h := hdr s frame
  if off = 0x00 then (put b 31 24 ||| put j 23 16 ||| put i 15 8 ||| 1, s)
  else if off = 0x04 then
    (put (domainOf b j) 29 24 ||| putB (pageKg b i) 17 ||| putB (b == 3 && i == 1) 16 ||| put (pageLast b i / 4) 9 0, s)
  else if off = 0x08 then (put (hdrTarget s h) 12 8 ||| putB h.errInt 1 ||| putB h.intEn 0, s)
  else if off = 0x0C then (putB h.win.isSome 2 ||| putB (pageBusy s b j i) 1 ||| 1, s)
  else if off = 0x10 then (h.raw, s)
  else if off = 0x14 then (h.en, s)
  else if off = 0x18 then (h.raw &&& h.en, s)
  else if off = 0x1C then (put h.seq.toNat 15 0, s)
  else if off = 0x20 then (put (pageOwner s b j i) 5 0, s)
  else if off = 0x24 then (errCodeReg h, modHdr s frame (fun h => { h with errLatch := h.errInfo }))
  else if off = 0x28 then (h.errLatch, s)
  else if off = 0x2C then (h.evt, s)
  else (0, s)

/-- PG_CTRL.target as written: an ID that is no present service core is stored as the lowest one (R434). -/
def targetOf (s : State) (n : Nat) : BitVec 5 := BitVec.ofNat 5 (if s.rst.service.contains n then n else lowService s)

/-- A write to the header (R429, R431, R433, R435). -/
def hdrWrite (s : State) (ini : Ini) (frame off : Nat) (v : W32) : State :=
  if off = 0x08 then
    let t := targetOf s (fld v 12 8)
    modHdr s frame (fun h => { h with target := some t, errInt := bitOf v 1, intEn := bitOf v 0 })
  else if off = 0x10 then modHdr s frame (fun h => { h with raw := h.raw &&& ~~~v })
  else if off = 0x14 then modHdr s frame (fun h => { h with en := v })
  else if off = 0x1C then keyLock s ini frame v
  else if off = 0x24 then
    if bitOf v 31 then modHdr s frame (fun h => { h with
      errValid := false, errStamp := 0, errCode := 0, errInfo := 0, errLatch := 0 })
    else s
  else if off = 0x2C then modHdr s frame (fun h => { h with evt := v })
  else s

/-! ## HIF, POL -/

/-- HIF registers. -/
def hifVal (s : State) (j off : Nat) : W32 :=
  let p := if j = 0 then s.host.portA else s.host.portB
  if off = 0x40 then putB p.up 15 ||| putB p.flit 14 ||| putB (j == 0 && s.rst.bar2) 12 ||| put p.width 11 8
    ||| put p.speed 3 0
  else if off = 0x44 then put (if s.nrg.pacing then s.nrg.gap.toNat else 0) 15 0
  else 0

/-- POL page index 0. -/
def polVal0 (s : State) (off : Nat) : W32 × State :=
  if off = 0x40 then (putB s.pol.aen 0, s)
  else if off = 0x44 then (put s.pol.lost.toNat 31 16 ||| put s.pol.fifo.length 8 0, s)
  else if off = 0x50 then brW0Read s
  else if off = 0x54 then (s.pol.w1, s)
  else if off = 0x58 then (s.pol.w2, s)
  else if off = 0x5C then (s.pol.w3, s)
  else (0, s)

/-- Resource register `n` of a record, in the order of the page (R30). -/
def resReg (r : PolRes) (n : Nat) : W32 :=
  match n with
  | 0 => r.cores
  | 1 => r.rings
  | 2 => r.bufq
  | 3 => r.keys
  | 4 => r.hmac
  | 5 => r.ctx
  | 6 => r.srch
  | 7 => r.slm
  | _ => r.img

/-- The page of polder `p`; polder 0's resource registers read as zero (R31). -/
def polVal (s : State) (p off : Nat) : W32 :=
  let v := polder s p
  if off = 0x40 then polStateReg v
  else
    match regIdx off 0x48 4 9 with
    | some n => if p = 0 then 0 else resReg v.res n
    | none =>
      if off = 0x6C then putB v.lend 8 ||| put (v.weightNext.getD v.weight).toNat 7 0
      else if off = 0x70 then put v.perm.toNat 2 0
      else if off = 0x74 then v.breaches
      else if off = 0x78 then put v.progress.toNat 7 0
      else 0

/-- Do the resource registers of a polder accept writes (R30)? -/
def resOpen (v : Polder) : Bool := v.st == .provisioning || (v.st == .quiescing && v.drained)

/-- A write to the page of polder `p` (R30, R31, R35, R47). -/
def polWrite (s : State) (ini : Ini) (p frame off : Nat) (x : W32) : State :=
  let v := polder s p
  if off = 0x44 then polCmdWrite s ini p x
  else
    match regIdx off 0x48 4 9 with
    | some n =>
      if p = 0 then s
      else if resOpen v then modPolder s p (fun v => { v with res := resPut v.res n x })
      else wrongState s ini frame off
    | none =>
      if off = 0x6C ∨ off = 0x70 then
        if v.st = .empty ∨ v.st = .teardown then wrongState s ini frame off
        else if off = 0x6C then
          let w := BitVec.ofNat 8 (if p = 0 ∧ fld x 7 0 = 0 then 1 else fld x 7 0)
          modPolder s p (fun v => { v with lend := bitOf x 8, weightNext := some w })
        else modPolder s p (fun v => { v with perm := BitVec.ofNat 3 (fld x 2 0) })
      else s

/-! ## CORE -/

/-- CORE_STAT.state. -/
def coreCode : CoreSt → Nat
  | .free => 0
  | .starting => 1
  | .running => 2
  | .waiting => 3
  | .paused => 4
  | .stopping => 5
  | .scrubbing => 6
  | .halted => 7

/-- The low 32 bits of a word. -/
def lo32 (w : W36) : W32 := w.setWidth 32
/-- Bits 35:32 of a word. -/
def hi4 (w : W36) : Nat := w.toNat / 2 ^ 32

/-- A region entry's registers (R153): base, limit, attributes. -/
def rgnVal (g : Option Rgn) (n : Nat) : W32 :=
  match g with
  | none => 0
  | some r =>
    if n = 0 then BitVec.ofNat 32 r.base
    else if n = 1 then BitVec.ofNat 32 r.limit
    else if n = 2 then putB true 31 ||| put (r.limit / 2 ^ 32) 27 24 ||| put (r.base / 2 ^ 32) 23 20 ||| putB r.xo 3 ||| putB r.x 2
      ||| putB r.w 1 ||| putB r.r 0
    else 0

/-- A read of CORE_CS_DATA (R165): the word, its high bits latched, the address advanced. -/
def csDataVal (s : State) (c : Nat) : W32 × State :=
  let k := core s c
  let w := tget k.cs 0 k.csAddr.toNat
  (lo32 w, setCore s c { k with csAddr := k.csAddr + 1, csX := BitVec.ofNat 4 (hi4 w) })

/-- CORE page index 0. -/
def coreVal0 (s : State) (c off : Nat) : W32 × State :=
  let k := core s c
  if off = 0x40 then (putB k.halt 0, s)
  else if off = 0x44 then
    (put k.polder 21 16 ||| put k.prog 11 8 ||| putB k.csLoaded 7 ||| putB k.v1 6 ||| putB k.user 5
      ||| putB (s.rst.service.contains c) 4 ||| put (coreCode k.st) 2 0, s)
  else if off = 0x48 then (k.trap, s)
  else if off = 0x4C then (lo32 k.trapPc, s)
  else if off = 0x50 then (put (hi4 k.trapPc) 3 0, s)
  else if off = 0x54 then (put k.csAddr.toNat 11 0, s)
  else if off = 0x58 then csDataVal s c
  else if off = 0x5C then (put k.csX.toNat 3 0, s)
  else if 0x100 ≤ off then (rgnVal (tget k.rgn none ((off - 0x100) / 16)) ((off - 0x100) % 16 / 4), s)
  else (0, s)

/-- A write of CORE_CTRL (R156): halt and restart of a service core; a tenant core refuses halt. Commands stand between
instruction words, so that the next boundary is now. -/
def coreCtrlWrite (s : State) (ini : Ini) (c : Nat) (v : W32) : State :=
  if s.rst.service.contains c then
    let k := { core s c with halt := bitOf v 0 }
    if bitOf v 0 then
      setCore s c (if k.st = .running ∨ k.st = .waiting then { k with st := .halted } else k)
    else if bitOf v 1 ∧ k.st = .halted ∧ k.out = false then
      wakeCore (setCore s c { k with st := if k.wfe.isSome then .waiting else .running }) c
    else setCore s c k
  else if bitOf v 0 then wrongState s ini (frameOf 3 c 0) 0x40
  else s

/-- A write to CORE page index 0. -/
def coreWrite0 (s : State) (ini : Ini) (c off : Nat) (v : W32) : State :=
  if off = 0x40 then coreCtrlWrite s ini c v
  else if off = 0x54 then modCore s c (fun k => { k with csAddr := BitVec.ofNat 12 (fld v 11 0) })
  else s

/-- A read of CNT_CYC_L latches the two higher registers (R168). -/
def cycVal (s : State) (c : Nat) : W32 × State :=
  let k := core s c
  (k.cyc.setWidth 32, setCore s c { k with snapM := some ((k.cyc >>> 32).setWidth 32), snapH := some ((k.cyc >>> 64).setWidth 8) })

/-- An even counter as a low-half read sees it: with a carry into its chained neighbour not yet applied, all ones (R168). -/
def lowHalf (k : Core) (n : Nat) : W36 :=
  if cfgChain (counter k (n + 1)).cfg && decide ((counter k n).wraps ≠ []) then BitVec.allOnes 36 else (counter k n).val

/-- A read of CNT_n_L: of an even counter it latches the higher registers of its value, those of the odd neighbour included when
chained (R168); of an odd one it returns the latch of its neighbour's read. -/
def cntLVal (s : State) (c n : Nat) : W32 × State :=
  let k := core s c
  if n % 2 = 0 then
    let v := lowHalf k n
    let o := (counter k (n + 1)).val
    let ch := cfgChain (counter k (n + 1)).cfg
    let hs := tset k.snapCntH none n (some (BitVec.ofNat 4 (hi4 v)))
    let k := if ch then { k with
        snapCntH := tset hs none (n + 1) (some (BitVec.ofNat 4 (hi4 o))),
        snapCntL := tset k.snapCntL none (n + 1) (some (lo32 o)) }
      else { k with snapCntH := hs }
    (lo32 v, setCore s c k)
  else
    match tget k.snapCntL none n with
    | some w => (w, setCore s c { k with snapCntL := tset k.snapCntL none n none })
    | none => (lo32 (counter k n).val, s)

/-- A read of CNT_n_H. -/
def cntHVal (s : State) (c n : Nat) : W32 × State :=
  let k := core s c
  match tget k.snapCntH none n with
  | some h => (put h.toNat 3 0, setCore s c { k with snapCntH := tset k.snapCntH none n none })
  | none => (put (hi4 (counter k n).val) 3 0, s)

/-- CORE page index 1. -/
def coreVal1 (s : State) (c off : Nat) : W32 × State :=
  let k := core s c
  if off = 0x40 then cycVal s c
  else if off = 0x44 then
    match k.snapM with
    | some v => (v, setCore s c { k with snapM := none })
    | none => ((k.cyc >>> 32).setWidth 32, s)
  else if off = 0x48 then
    match k.snapH with
    | some v => (put v.toNat 7 0, setCore s c { k with snapH := none })
    | none => (put (k.cyc.toNat / 2 ^ 64) 7 0, s)
  else if off = 0xD0 then (put k.ovf.toNat 7 0, s)
  else if off = 0xE0 then (put k.smpBase.toNat 20 0, s)
  else if off = 0xE4 then (put k.smpLimit.toNat 20 0, s)
  else if off = 0xE8 then (k.smpNext, s)
  else if off = 0xEC then (put k.smpLost.toNat 31 16 ||| putB k.smpFull 0, s)
  else if 0x50 ≤ off ∧ off < 0xD0 then
    let n := (off - 0x50) / 16
    let r := (off - 0x50) % 16
    if r = 0 then (put (counter k n).cfg.toNat 15 0, s)
    else if r = 4 then cntLVal s c n
    else if r = 8 then cntHVal s c n
    else (0, s)
  else (0, s)

/-- A write of the configuration of a counter (R167, R170): chain exists on odd counters; sample takes a 1 only while
POL_PERM.sample = 1. -/
def cfgWrite (s : State) (c n : Nat) (v : BitVec 16) : State :=
  let k := core s c
  let may := (polder s k.polder).perm.getLsbD 1
  let v := v &&& (if n % 2 = 1 then 0xF8FF else 0xB8FF)
  let v := if may then v else v &&& 0xF7FF
  setCore s c (modCounter k n (fun x => { x with cfg := v }))

/-- A counter is written (R169): a wrap not yet processed is then one of the same cycle and is lost. -/
def cntSet (k : Core) (n : Nat) (v : W36) : Core := modCounter k n (fun x => { x with val := v, reload := v, wraps := [] })

/-- Would the sampling area lie inside one range of the running job's set (R171)? An empty area does. -/
def areaInSet (s : State) (k : Core) (base limit : Nat) : Bool :=
  decide (limit ≤ base) ||
  match k.job with
  | none => false
  | some j => match job s j with
    | none => false
    | some v => v.ranges.any (fun g => decide (g.1 ≤ base * 4096) && decide (limit * 4096 ≤ g.1 + g.2))

/-- A write of SMP_BASE or SMP_LIMIT (R171). -/
def smpWrite (s : State) (c : Nat) (limit : Bool) (n : Nat) : State :=
  let k := core s c
  let k' := if limit then { k with smpLimit := BitVec.ofNat 21 n } else { k with smpBase := BitVec.ofNat 21 n }
  if areaInSet s k k'.smpBase.toNat k'.smpLimit.toNat then setCore s c k' else s

/-- A write to the counter and sampling registers of CORE page index 1 (R169, R173). -/
def coreWrite1 (s : State) (c off : Nat) (v : W32) : State :=
  let k := core s c
  if off = 0xD0 then setCore s c { k with ovf := k.ovf &&& ~~~BitVec.ofNat 8 (fld v 7 0) }
  else if off = 0xE0 then smpWrite s c false (fld v 20 0)
  else if off = 0xE4 then smpWrite s c true (fld v 20 0)
  else if 0x50 ≤ off ∧ off < 0xD0 then
    let n := (off - 0x50) / 16
    let r := (off - 0x50) % 16
    if r = 0 then cfgWrite s c n (v.setWidth 16)
    else if r = 4 then
      let h := ((counter k n).hiHold.getD (BitVec.ofNat 4 (hi4 (counter k n).val)))
      setCore s c (modCounter (cntSet k n (h ++ v)) n (fun x => { x with hiHold := none }))
    else if r = 8 then setCore s c (modCounter k n (fun x => { x with hiHold := some (BitVec.ofNat 4 (fld v 3 0)) }))
    else s
  else s

/-! ## BPM, CIPH, DGST, CMPR, SRCH -/

/-- BPM page index 0. -/
def bpmVal0 (s : State) (off : Nat) : W32 :=
  if off = 0x40 then put s.bpm.age.toNat 23 8 ||| putB s.bpm.audit 0
  else
    match regIdx off 0x44 4 4 with
    | some n => put (poolFree s n) 12 0
    | none =>
      match regIdx off 0x100 4 64 with
      | some p => put (unitsUsed s p) 16 0
      | none => 0

/-- RING_STAT_r. -/
def ringStat (s : State) (r : Nat) : W32 :=
  let g := ring s r
  put (ringOwner s r) 25 20 ||| putB (g.holder != .free) 19 ||| putB g.halted 18 ||| put g.cause.toNat 17 16 ||| put g.cons.toNat 15 0

/-- BPM page index 1. -/
def bpmVal1 (s : State) (off : Nat) : W32 :=
  match regIdx off 0x440 4 256 with
  | some r => ringStat s r
  | none => 0

/-- A write to BPM page index 1. -/
def bpmWrite1 (s : State) (ini : Ini) (off : Nat) (v : W32) : State :=
  match regIdx off 0x40 4 256 with
  | some r => doorbell s r .service (BitVec.ofNat 16 (fld v 15 0))
  | none =>
    match regIdx off 0x440 4 256 with
    | some r => if bitOf v 26 then ringFreeWrite s ini r else s
    | none => s

/-- The status bits of a key slot: shadow present, loaded, generation. -/
def slotStat (k : KeySlot) : W32 := putB k.shadow.isSome 17 ||| putB k.key.isSome 16 ||| put k.gen.toNat 7 0

/-- The CIPH page. -/
def ciphVal (s : State) (off : Nat) : W32 × State :=
  let l := s.isl
  if off = 0x40 then
    (put l.last.toNat 23 16 ||| putB l.mediaReady 8 ||| put (l.seen.toNat / 2) 7 1 ||| putB l.ready 0, s)
  else if off = 0x44 then (l.alarms, s)
  else if off = 0x48 then rngStatRead s
  else if off = 0x4C then (putB (mediaBusy s) 31 ||| put l.mediaOp.toNat 30 29 ||| put l.mediaNs.toNat 9 0, s)
  else
    match regIdx off 0x100 4 256 with
    | some n => (slotStat (tget l.keys {} n), s)
    | none => (0, s)

/-- A write to the CIPH page. -/
def ciphWrite (s : State) (ini : Ini) (off : Nat) (v : W32) : State :=
  if off = 0x40 then modIsl s (fun l => { l with seen := l.seen &&& ~~~BitVec.ofNat 8 (2 * fld v 7 1) })
  else if off = 0x4C then mediaCtrlWrite s ini v
  else s

/-- The DGST page. -/
def dgstVal (s : State) (off : Nat) : W32 × State :=
  if off = 0x40 then (put s.isl.measSel.toNat 6 0, s)
  else if off = 0x44 then measDataNext s
  else if off = 0x48 then (s.isl.snapCnt, s)
  else
    match regIdx off 0x100 4 64 with
    | some n => (slotStat (tget s.isl.hmacs {} n) ||| put (tget s.isl.hmacs {} n).alg.toNat 9 8, s)
    | none => (0, s)

/-- CMPR_INST_i: 0 to 7 compressors, 8 to 11 decompressors (R231). -/
def cmprInst (s : State) (i : Nat) : W32 :=
  let v := tget s.cmpr.insts {} i
  let used := if i < 8 then ((List.range 8).filter (fun n => (tget s.cmpr.slots {} (i * 8 + n)).used)).length else 0
  put v.owner 25 20 ||| putB v.bound 19 ||| put v.format 18 16 ||| put used 11 8

/-- The CMPR page. -/
def cmprVal (s : State) (off : Nat) : W32 × State :=
  match regIdx off 0x40 4 12 with
  | some i => (cmprInst s i, s)
  | none =>
    match regIdx off 0x80 4 5 with
    | some e => cmprErrVal s e
    | none => (0, s)

/-- The SRCH page. -/
def srchVal (s : State) (off : Nat) : W32 :=
  let c := s.srch
  if off = 0x40 then putB c.nofilter 0
  else if off = 0x44 then put c.pending.length 10 0
  else if off = 0x50 then put c.eIdx.toNat 15 0
  else
    match regIdx off 0x54 4 6 with
    | some n => c.snap.getD n 0
    | none =>
      match regIdx off 0x100 4 64 with
      | some p => putB (tget c.busy false p) 8 ||| put (tget c.shift 0 p) 5 0
      | none =>
        match regIdx off 0x200 4 64 with
        | some p => tget c.lkp 0 p
        | none =>
          match regIdx off 0x300 4 64 with
          | some p => tget c.rows 0 p
          | none => 0

/-- A write to the SRCH page. -/
def srchWrite (s : State) (off : Nat) (v : W32) : State :=
  if off = 0x40 then modSrch s (fun c => { c with nofilter := bitOf v 0 })
  else if off = 0x50 then eIdxWrite s v
  else s

/-! ## FLC, FTLA -/

/-- FLC page index 0. -/
def flcVal0 (s : State) (ch off : Nat) : W32 :=
  let c := flc s ch
  if off = 0x40 then put c.guard.toNat 31 20 ||| put c.retries.toNat 19 16 ||| putB c.autoSusp 1 ||| putB c.enable 0
  else if off = 0x44 then
    put (((List.range 16).filter (fun d => (die s ch d).failed)).map (fun d => 2 ^ d)).sum 31 16 ||| putB (flcBusy s ch) 4
      ||| putB c.brownout 3 ||| putB c.training 2 ||| put c.rate.toNat 1 0
  else if off = 0x48 then putB c.cancelReq 31 ||| put c.cancelQ.toNat 17 16 ||| put c.cancelTag.toNat 15 0
  else if off = 0x50 then put c.cqBase.toNat 21 0
  else if off = 0x54 then put c.cqProd.toNat 15 0
  else if off = 0x58 then put c.cqCons.toNat 15 0
  else
    match regIdx off 0x90 4 4 with
    | some q => put (dqBase c q).2.toNat 16 8 ||| put (dqBase c q).1.toNat 7 0
    | none =>
      match regIdx off 0xA0 4 4 with
      | some q => put ((dqBase c q).2.toNat - dqUsed c q) 24 16 ||| put (tget c.committed 0 q).toNat 15 0
      | none => 0

/-- Sets FLC_DQ_BASE_q. -/
def setDqBase (c : Flc) (q : Nat) (v : W32) : Flc :=
  let b := (BitVec.ofNat 8 (fld v 7 0), BitVec.ofNat 9 (fld v 16 8))
  match q with
  | 0 => { c with base0 := b }
  | 1 => { c with base1 := b }
  | 2 => { c with base2 := b }
  | _ => { c with base3 := b }

/-- A write to FLC page index 0 (R272, R273, R276, R282). -/
def flcWrite0 (s : State) (ini : Ini) (ch frame off : Nat) (v : W32) : State :=
  if off = 0x40 then flcCtrlWrite s ini ch v
  else if off = 0x48 then flcCancelWrite s ch v
  else if off = 0x50 then
    if (flc s ch).enable then wrongState s ini frame off
    else modFlc s ch (fun c => { c with cqBase := BitVec.ofNat 22 (fld v 21 0) })
  else if off = 0x58 then flcConsWrite s ch v
  else
    match regIdx off 0x80 4 4 with
    | some q => pushWord s ini ch q v
    | none =>
      match regIdx off 0x90 4 4 with
      | some q => if (flc s ch).enable then wrongState s ini frame off
                  else flcAdmit (modFlc s ch (fun c => setDqBase c q v)) ch (flc s ch).backlog.length
      | none => s

/-- FLC_DIE_d.state. -/
def dieCode : DieSt → Nat
  | .idle => 0
  | .reading => 1
  | .program => 2
  | .erase => 3
  | .suspending => 4
  | .resetting => 5
  | .training => 6
  | .stuck => 7
  | .failed => 8

/-- FLC page index 1. -/
def flcVal1 (s : State) (ch off : Nat) : W32 × State :=
  let c := flc s ch
  if off = 0x80 then (c.bstSel, s)
  else if off = 0x84 then (c.bstSnap, s)
  else if off = 0x200 then (put c.trainCnt.toNat 31 16 ||| put c.interval.toNat 15 8 ||| put c.drift.toNat 7 0, s)
  else if off = 0x204 then eccSoftVal s ch
  else if off = 0x208 then eccUncVal s ch
  else
    match regIdx off 0x40 4 16 with
    | some d => (put (min (progRemaining s ch d) 4095) 31 20 ||| putB (die s ch d).susp.isSome 16 ||| put (dieCode (die s ch d).st) 3 0, s)
    | none =>
      match regIdx off 0x100 4 64 with
      | some n => (tget c.rr 0 n, s)
      | none => (0, s)

/-- A write to FLC page index 1. -/
def flcWrite1 (s : State) (ini : Ini) (ch off : Nat) (v : W32) : State :=
  if off = 0x80 then bstSelWrite s ch v
  else if off = 0x84 then bstDataWrite s ini ch v
  else if off = 0x200 then
    modFlc s ch (fun c => { c with interval := BitVec.ofNat 8 (fld v 15 8), drift := BitVec.ofNat 8 (fld v 7 0) })
  else
    match regIdx off 0x100 4 64 with
    | some n =>
      let v := if n % 4 = 3 then v &&& 0x00FFFFFF else v
      modFlc s ch (fun c => { c with rr := tset c.rr 0 n v })
    | none => s

/-- FTLA_FAIL. -/
def ftlaFailReg (f : Ftla) : W32 :=
  match f.fail with
  | none => 0
  | some (k, ch, d, left) => putB true 31 ||| put (k - 1) 30 30 ||| put ch 29 25 ||| put d 24 21 ||| put left 15 0

/-- The FTLA page. -/
def ftlaVal (s : State) (off : Nat) : W32 × State :=
  let f := s.ftla
  if off = 0x40 then (putB f.enable 0, s)
  else if off = 0x44 then
    (putB f.stagger 29 ||| putB s.host.raEn 28 ||| put s.host.raThreshold 27 16 ||| put f.spread.toNat 11 0, s)
  else if off = 0x48 then (put f.sqBase.toNat 21 0, s)
  else if off = 0x4C then (put f.sqProd.toNat 7 0, s)
  else if off = 0x50 then (put f.sqCons.toNat 7 0, s)
  else if off = 0x54 then (put f.cqBase.toNat 21 0, s)
  else if off = 0x58 then (put f.cqProd.toNat 8 0, s)
  else if off = 0x5C then (put f.cqCons.toNat 8 0, s)
  else if off = 0x60 then
    (put ((f.sbs.filter (fun e => !e.2.window.isEmpty)).length) 23 16 ||| putB f.replaying 3 ||| putB f.fail.isSome 2
      ||| putB f.writeback 1 ||| putB f.ready 0, s)
  else if off = 0x64 then (put f.journal.length 18 0, s)
  else if off = 0x68 then laMissVal s
  else if off = 0x6C then mcMissVal s
  else if off = 0x70 then raCntVal s
  else if off = 0x74 then (ftlaFailReg f, s)
  else if off = 0x78 then (put f.cache.toNat 21 0, s)
  else (0, s)

/-- A write to the FTLA page (R334): bases and cache size only while the queues are stopped. -/
def ftlaWrite (s : State) (ini : Ini) (frame off : Nat) (v : W32) : State :=
  if off = 0x40 then modFtla s (fun f => { f with enable := bitOf v 0 })
  else if off = 0x44 then modFtla s (fun f => { f with stagger := bitOf v 29, spread := BitVec.ofNat 12 (fld v 11 0) })
  else if off = 0x4C then modFtla s (fun f => { f with sqProd := BitVec.ofNat 8 (fld v 7 0) })
  else if off = 0x5C then ftlaConsWrite s v
  else if off = 0x48 ∨ off = 0x54 ∨ off = 0x78 then
    if s.ftla.enable then wrongState s ini frame off
    else if off = 0x48 then modFtla s (fun f => { f with sqBase := BitVec.ofNat 22 (fld v 21 0) })
    else if off = 0x54 then modFtla s (fun f => { f with cqBase := BitVec.ofNat 22 (fld v 21 0) })
    else modFtla s (fun f => { f with cache := BitVec.ofNat 22 (min (fld v 21 0) 3611761) })
  else s

/-! ## DRC, MEMI, NRG, TIME -/

/-- The DRC page. -/
def drcVal (s : State) (off : Nat) : W32 × State :=
  let d := s.drc
  if off = 0x40 then (put d.hours.toNat 15 8 ||| putB d.scrubEn 0, s)
  else if off = 0x44 then (putB d.glm96 0, s)
  else if off = 0x48 then
    (put s.nv.failedDev.toNat 31 24 ||| put d.failedCh.toNat 23 16 ||| putB d.init 3 ||| putB d.selfref 2
      ||| putB (drcSwitching s) 1 ||| putB d.trained 0, s)
  else if off = 0x4C then drcFwdVal s
  else
    match regIdx off 0x80 4 8 with
    | some c => (put (tget d.oscWr 0 c).toNat 15 8 ||| put (tget d.oscRd 0 c).toNat 7 0, s)
    | none => (0, s)

/-- A write to the DRC page. -/
def drcWrite (s : State) (ini : Ini) (off : Nat) (v : W32) : State :=
  if off = 0x40 then
    let h := BitVec.ofNat 8 (if fld v 15 8 = 0 then 1 else fld v 15 8)
    { s with drc := { s.drc with hours := h, scrubEn := bitOf v 0 } }
  else if off = 0x44 then drcOrderWrite s ini v
  else s

/-- The MEMI page. -/
def memiVal (s : State) (off : Nat) : W32 × State :=
  let m := s.memi
  if off = 0x40 then (put m.sel.toNat 7 0, s)
  else if off = 0x44 then (m.snapCe, s)
  else if off = 0x48 then (m.snapUe, s)
  else if off = 0x50 then ueW0Val s
  else if off = 0x54 then (m.latW1, s)
  else if off = 0x58 then (m.latW2, s)
  else if off = 0x60 then (putB m.mode 16 ||| put m.target.toNat 7 0, s)
  else if off = 0x64 then (putB m.armed 0, s)
  else if off = 0x68 then (m.chk0, s)
  else if off = 0x6C then (m.chk1, s)
  else if off = 0x70 then (m.chk2, s)
  else (0, s)

/-- A write to the MEMI page. -/
def memiWrite (s : State) (ini : Ini) (off : Nat) (v : W32) : State :=
  if off = 0x40 then memiSelWrite s ini v
  else if off = 0x60 then memiTestWrite s ini v
  else if off = 0x68 then modMemi s (fun m => { m with chk0 := v })
  else if off = 0x6C then modMemi s (fun m => { m with chk1 := v })
  else if off = 0x70 then modMemi s (fun m => { m with chk2 := v })
  else s

/-- A signed number as a 32-bit register. -/
def int32 (v : Int) : W32 := BitVec.ofInt 32 v

/-- The NRG page. -/
def nrgVal (s : State) (off : Nat) : W32 × State :=
  let n := s.nrg
  if off = 0x40 then (put n.svcPct.toNat 15 8 ||| putB n.test 0, s)
  else if off = 0x44 then
    (put n.thermal.toNat 29 28 ||| put n.envelope.toNat 27 26 ||| put n.held.toNat 18 16 ||| putB n.pacing 2 ||| putB n.drift 1
      ||| putB n.embValid 0, s)
  else if off = 0x48 then epochVal s
  else if off = 0x4C then (n.epochHi, s)
  else if off = 0x50 then (BitVec.ofNat 32 n.lastMeas, s)
  else if off = 0x54 then (int32 n.svcBal, s)
  else if off = 0x60 then (put n.capUf.toNat 19 0, s)
  else if off = 0x64 then (put n.esr.toNat 15 0, s)
  else if off = 0x68 then (put n.eMj.toNat 15 0, s)
  else if off = 0x6C then (put ((occupancy s + 1048575) / 1048576) 31 16 ||| put n.limit 15 0, s)
  else
    match regIdx off 0x100 4 64 with
    | some p => (int32 (acct s p).bal, s)
    | none =>
      match regIdx off 0x200 4 64 with
      | some p => (BitVec.ofNat 32 (acct s p).refill, s)
      | none =>
        match regIdx off 0x300 4 64 with
        | some p => (put (acct s p).weight.toNat 7 0, s)
        | none =>
          match regIdx off 0x400 4 64 with
          | some p => ((acct s p).cap, s)
          | none => (0, s)

/-- A write to the NRG page: svc_pct is at most 100; a 1 in test asks for a measurement (R374). -/
def nrgWrite (s : State) (off : Nat) (v : W32) : State :=
  if off = 0x40 then
    modNrg s (fun n => { n with svcPct := BitVec.ofNat 8 (min (fld v 15 8) 100), test := n.test || bitOf v 0 })
  else s

/-- The TIME page. -/
def timeVal (s : State) (off : Nat) : W32 × State :=
  if off = 0x40 then calShadowVal s
  else if off = 0x44 then (s.time.shadowHi, s)
  else if off = 0x48 then (putB s.time.synch 2 ||| put s.time.st.toNat 1 0, s)
  else if off = 0x50 then posVal s
  else if off = 0x54 then (s.time.posHi, s)
  else if off = 0x58 then engVal s
  else if off = 0x5C then (s.time.engHi, s)
  else if off = 0x60 then (BitVec.ofNat 32 s.nv.cycles, s)
  else if off = 0x64 then (BitVec.ofNat 32 s.nv.losses, s)
  else (0, s)

/-! ## RST, FLT, SBD, OPT, CAL, PMON, CLK -/

/-- The RST page. -/
def rstVal (s : State) (off : Nat) : W32 :=
  let r := s.rst
  if off = 0x40 then
    put r.kind.toNat 31 28 ||| put r.step.toNat 19 16 ||| put r.cores.toNat 15 8 ||| putB r.measChanged 3 ||| putB r.fallback 2
      ||| putB r.slot 1 ||| putB r.ready 0
  else if off = 0x44 then putB r.wdtEn 16 ||| put r.wdtMs.toNat 15 0
  else if off = 0x48 then put r.kick.toNat 15 0
  else if off = 0x4C then put r.late.toNat 15 0
  else if off = 0x50 then put r.svnRun.toNat 31 16 ||| put s.nv.svnMin.toNat 15 0
  else if off = 0x54 then r.bootMs
  else 0

/-- A write to the RST page (R412): the watchdog control is key-gated, a period of 0 is written as 1. -/
def rstWrite (s : State) (ini : Ini) (frame off : Nat) (v : W32) : State :=
  if off = 0x44 then
    match kgOpen s ini frame off with
    | (false, s) => s
    | (true, s) =>
      let t := BitVec.ofNat 16 (if fld v 15 0 = 0 then 1 else fld v 15 0)
      modRst s (fun r => { r with wdtEn := bitOf v 16, wdtMs := t })
  else if off = 0x48 then modRst s (fun r => { r with kick := r.kick ||| BitVec.ofNat 16 (fld v 15 0) })
  else if off = 0x4C then modRst s (fun r => { r with late := r.late &&& ~~~BitVec.ofNat 16 (fld v 15 0) })
  else s

/-- The FLT page. -/
def fltVal (s : State) (off : Nat) : W32 × State :=
  if off = 0x40 then (put (min s.flt.latched.length 127) 7 1 ||| putB s.flt.window.isSome 0, s)
  else if off = 0x44 then (put (fltSumm s) 1 0, s)
  else if off = 0x48 then fltAbsVal s
  else if off = 0x4C then (BitVec.ofNat 32 s.nv.faultSeq, s)
  else (0, s)

/-- The SBD page (R425). -/
def sbdVal (s : State) (off : Nat) : W32 × State :=
  if off = 0x40 then sbdStatVal s
  else if off = 0x44 then (BitVec.ofNat 32 (provId s), s)
  else if off = 0x48 then (put (provId s / 2 ^ 32) 15 0, s)
  else (0, s)

/-- The OPT page. -/
def optPageVal (s : State) (off : Nat) : W32 :=
  let r := s.rst
  if off = 0x44 then put r.optSrc.toNat 22 0
  else if off = 0x48 then putB (optBusy s) 31 ||| putB r.optHalf 30 ||| putB r.optPending 29 ||| put r.optErr.toNat 23 16
  else if off = 0x4C then r.optGen
  else 0

/-- Is the calibration set in the area an operator's (CAL_STAT.source)? -/
def calOperator (s : State) : Bool := s.rst.calValid && leAt s.nv.cal 6 2 == 1

/-- The CAL page. -/
def calPageVal (s : State) (off : Nat) : W32 :=
  let r := s.rst
  if off = 0x44 then put r.calSrc.toNat 22 0
  else if off = 0x48 then
    putB (calBusy s) 31 ||| putB r.calValid 30 ||| putB (calOperator s) 29 ||| put r.calErr.toNat 23 16 ||| put s.nv.calCommits.toNat 15 0
  else 0

/-- A read of PMON_n_L latches the two higher registers (R440). -/
def pmonLVal (s : State) (n : Nat) : W32 × State :=
  let v := pmonNow s n
  let p := s.pmon
  (v.setWidth 32, { s with pmon := { p with
    latM := tset p.latM 0 n ((v >>> 32).setWidth 32),
    latH := tset p.latH 0 n ((v >>> 64).setWidth 8) } })

/-- The PMON page. -/
def pmonVal (s : State) (off : Nat) : W32 × State :=
  if off = 0x40 then (putB s.pmon.filt 8 ||| put s.pmon.polder.toNat 5 0, s)
  else if 0x80 ≤ off ∧ off < 0x140 then
    let n := (off - 0x80) / 16
    let r := (off - 0x80) % 16
    if r = 0 then pmonLVal s n
    else if r = 4 then (tget s.pmon.latM 0 n, s)
    else if r = 8 then (put (tget s.pmon.latH 0 n).toNat 7 0, s)
    else (0, s)
  else (0, s)

/-- A write to the PMON page (R440). -/
def pmonWrite (s : State) (off : Nat) (v : W32) : State :=
  if off = 0x40 then
    let p := { s.pmon with filt := bitOf v 8, polder := BitVec.ofNat 6 (fld v 5 0) }
    { s with pmon := if bitOf v 31 then { p with cnt := [], cycT := s.now } else p }
  else s

/-- The CLK page (R441). -/
def clkVal (s : State) (off : Nat) : W32 :=
  if off = 0x40 then s.clkLock.setWidth 32
  else if off = 0x44 then put (s.clkLock.toNat / 2 ^ 32) 7 0
  else if off = 0x48 then s.clkLoss.setWidth 32
  else if off = 0x4C then put (s.clkLoss.toNat / 2 ^ 32) 7 0
  else 0

/-- A write to the CLK page. -/
def clkWrite (s : State) (off : Nat) (v : W32) : State :=
  if off = 0x48 then { s with clkLoss := s.clkLoss &&& ~~~(v.setWidth 40) }
  else if off = 0x4C then { s with clkLoss := s.clkLoss &&& ~~~BitVec.ofNat 40 (fld v 7 0 * 2 ^ 32) }
  else s

/-! ## Reading and writing -/

/-- A read of a block register. -/
def blockVal (s : State) (b j i off : Nat) : W32 × State :=
  match b with
  | 1 => (hifVal s j off, s)
  | 2 => if i = 0 then polVal0 s off else (polVal s (i - 1) off, s)
  | 3 => if i = 0 then coreVal0 (coreAged s j) j off else coreVal1 (coreAged s j) j off
  | 4 => (if i = 0 then bpmVal0 s off else bpmVal1 s off, s)
  | 5 => ciphVal s off
  | 6 => dgstVal s off
  | 7 => cmprVal s off
  | 8 => (srchVal s off, s)
  | 9 => if i = 0 then (flcVal0 s j off, s) else flcVal1 s j off
  | 0x0A => ftlaVal s off
  | 0x0B => drcVal s off
  | 0x0C => memiVal s off
  | 0x0D => nrgVal s off
  | 0x0E => timeVal s off
  | 0x0F => (rstVal s off, s)
  | 0x10 => fltVal s off
  | 0x11 => sbdVal s off
  | 0x12 => (optPageVal s off, s)
  | 0x13 => (calPageVal s off, s)
  | 0x14 => pmonVal s off
  | _ => (clkVal s off, s)

/-- A write to a block register. -/
def blockWrite (s : State) (ini : Ini) (b j i frame off : Nat) (v : W32) : State :=
  match b with
  | 1 => s
  | 2 =>
    if i = 0 then
      if off = 0x40 then { s with pol := { s.pol with aen := bitOf v 0 } } else if off = 0x60 then brPop s else s
    else polWrite s ini (i - 1) frame off v
  | 3 => if i = 0 then coreWrite0 (coreAged s j) ini j off v else coreWrite1 (coreAged s j) j off v
  | 4 => if i = 0 then (if off = 0x40 then bpmCtrlWrite s v else s) else bpmWrite1 s ini off v
  | 5 => ciphWrite s ini off v
  | 6 => if off = 0x40 then measSelWrite s ini v else s
  | 7 => s
  | 8 => srchWrite s off v
  | 9 => if i = 0 then flcWrite0 s ini j frame off v else flcWrite1 s ini j off v
  | 0x0A => ftlaWrite s ini frame off v
  | 0x0B => drcWrite s ini off v
  | 0x0C => memiWrite s ini off v
  | 0x0D => nrgWrite s off v
  | 0x0E => s
  | 0x0F => rstWrite s ini frame off v
  | 0x10 => s
  | 0x11 => s
  | 0x12 =>
    if off = 0x40 then optCtrlWrite s ini v
    else if off = 0x44 then modRst s (fun r => { r with optSrc := BitVec.ofNat 23 (fld v 22 0) })
    else s
  | 0x13 =>
    if off = 0x40 then calCtrlWrite s ini v
    else if off = 0x44 then modRst s (fun r => { r with calSrc := BitVec.ofNat 23 (fld v 22 0) })
    else s
  | 0x14 => pmonWrite s off v
  | _ => clkWrite s off v

/-- CORE page index 1 while no context is loaded: it reads as zero and writes have no effect (R173). -/
def noContext (s : State) (b j i : Nat) : Bool := b == 3 && i == 1 && (coreNow s j).st == .free

/-- A read through the control window at a byte offset: the containing register (R9, R430). -/
def regRead (s : State) (ini : Ini) (x : Nat) : W32 × State :=
  let frame := x / 4096
  let off := x % 4096 / 4 * 4
  pageRead s ini frame off (fun s =>
    match pageAt frame with
    | none => (0, s)
    | some (b, j, i) =>
      if noContext s b j i then (0, s)
      else if off < 0x40 then hdrVal s b j i frame off
      else if pageLast b i < off then (0, s)
      else blockVal s b j i off)

/-- Does the register at an offset of a page of block `b` hold a KG field (POL_CMD, CIPH_MEDIA_CTRL, FLC_BST_DATA, DRC_ORDER, MEMI_TEST,
RST_WDT, OPT_CTRL and CAL_CTRL)? -/
def kgReg (b i off : Nat) : Bool :=
  match b with
  | 2 => i != 0 && off == 0x44
  | 5 => off == 0x4C
  | 9 => i == 1 && off == 0x84
  | 0x0B => off == 0x44
  | 0x0C => off == 0x60
  | 0x0F => off == 0x44
  | 0x12 => off == 0x40
  | 0x13 => off == 0x40
  | _ => false

/-- A discarded write of a KG register closes the window it would have used (R433: a failed KG write). -/
def failKg (s : State) (b i frame off : Nat) : State :=
  if kgReg b i (off / 4 * 4) then modHdr s frame (fun h => { h with win := none }) else s

/-- A write through the control window at a byte offset; one that is not an aligned 32-bit access is discarded with a width error
(R9). R9 and R430 meet where such a write goes to a rsvd offset or above PG_CAPS.last: the width error is recorded, for R9 speaks of
every write to a page (DESIGN CHOICE, assumption 63). -/
def regWrite (s : State) (ini : Ini) (x width : Nat) (v : W32) : State :=
  let frame := x / 4096
  let off := x % 4096
  pageWrite s ini frame off (fun s =>
    match pageAt frame with
    | none => s
    | some (b, j, i) =>
      if noContext s b j i then s
      else if width ≠ 4 ∨ off % 4 ≠ 0 then errAt (failKg s b i frame off) ini frame 1 off
      else if off < 0x40 then hdrWrite s ini frame off v
      else if pageLast b i < off then s
      else blockWrite s ini b j i frame off v)

/-! ## Commands -/

/-- KEY_WRITE (R433): a write of PG_LOCK. -/
def execKeyWrite (ini : Ini) (frame : Nat) (v : W32) (s : State) : Res := .next (regWrite s ini (frame * 4096 + 0x1C) 4 v)

/-- KEY_WINDOW_END (R433): the window ends without a KG write. -/
def execKeyWindowEnd (frame : Nat) (s : State) : Res := .next (modHdr s frame (fun h => { h with win := none }))

/-- REGISTER_WRITE (R10). -/
def execRegisterWrite (ini : Ini) (off width : Nat) (v : W32) (s : State) : Res := .next (regWrite s ini off width v)

/-- BRIDGE_TIMEOUT (R20): an access to a page whose domain is stopped. -/
def execBridgeTimeout (ini : Ini) (off : Nat) (write : Bool) (s : State) : Res :=
  .next (match pageAt (off / 4096) with
  | none => s
  | some (b, j, _) =>
    if domainRuns s (domainOf b j) then s
    else if write then regWrite s ini off 4 0
    else readAnswer (regRead s ini off))

/-- ERROR_RECORD_READ (R431). -/
def execErrorRecordRead (ini : Ini) (frame : Nat) (s : State) : Res := .next (readAnswer (regRead s ini (frame * 4096 + 0x24)))

/-- The bits of the bytes that a DWORD's byte enables name. -/
def enMask (be : BitVec 4) : W32 :=
  (if be.getLsbD 0 then 0xFF else 0) ||| (if be.getLsbD 1 then 0xFF00 else 0) ||| (if be.getLsbD 2 then 0xFF0000 else 0)
    ||| (if be.getLsbD 3 then 0xFF000000 else 0)

/-- The accesses of a BAR2 request, in ascending address order (R438); a DWORD with no byte enabled accesses nothing. -/
def bar2Go (s : State) (off : Nat) (write : Bool) : List (BitVec 4 × W32) → State
  | [] => s
  | (be, v) :: rest =>
    let s :=
      if be = 0 then (if write then s else { s with out := { s.out with regs := s.out.regs ++ [0] } })
      else if write then regWrite s (.host 0) off (if be = 15 then 4 else 1) v
      else
        let r := regRead s (.host 0) off
        { r.2 with out := { r.2.out with regs := r.2.out.regs ++ [r.1 &&& enMask be] } }
    bar2Go s (off + 4) write rest

/-- BAR2_REQUEST (R438): only while the option area enables the window. -/
def execBar2Request (off : Nat) (write : Bool) (dwords : List (BitVec 4 × W32)) (s : State) : Res :=
  .next (if s.rst.bar2 = true ∧ off % 4 = 0 ∧ off + 4 * dwords.length ≤ 16777216 then
    bar2Go (if write then s else { s with out := { s.out with regs := [] } }) off write dwords
  else s)

/-- PMON_CLEAR (R440): PMON_CTRL.clear with the filter as it stands. -/
def execPmonClear (ini : Ini) (s : State) : Res :=
  .next (regWrite s ini (frameOf 0x14 0 0 * 4096 + 0x40) 4 (putB true 31 ||| putB s.pmon.filt 8 ||| put s.pmon.polder.toNat 5 0))

/-- PMON_COUNTER_READ (R440). -/
def execPmonCounterRead (ini : Ini) (n : Nat) (s : State) : Res :=
  .next (if n < 12 then readAnswer (regRead s ini (frameOf 0x14 0 0 * 4096 + 0x80 + 16 * n)) else s)

/-- CORE_HALT (R156): a write of 1 to CORE_CTRL.halt. -/
def execCoreHalt (ini : Ini) (c : Nat) (s : State) : Res :=
  .next (if c < 32 then regWrite s ini (frameOf 3 c 0 * 4096 + 0x40) 4 1 else s)

/-- CORE_RESTART (R156): a write of 1 to CORE_CTRL.restart with halt 0. -/
def execCoreRestart (ini : Ini) (c : Nat) (s : State) : Res :=
  .next (if c < 32 then regWrite s ini (frameOf 3 c 0 * 4096 + 0x40) 4 2 else s)

/-- CONTROL_STORE_READ (R165). -/
def execControlStoreRead (ini : Ini) (c : Nat) (s : State) : Res :=
  .next (if c < 32 then readAnswer (regRead s ini (frameOf 3 c 0 * 4096 + 0x58)) else s)

/-- COUNTER_PAGE_WRITE (R169): CNT_CFG_n, CNT_n_L or CNT_n_H. -/
def execCounterPageWrite (ini : Ini) (c off : Nat) (v : W32) (s : State) : Res :=
  .next (if c < 32 ∧ 0x50 ≤ off ∧ off < 0xD0 then regWrite s ini (frameOf 3 c 1 * 4096 + off) 4 v else s)

/-- SAMPLING_AREA_WRITE (R171). -/
def execSamplingAreaWrite (ini : Ini) (c : Nat) (limit : Bool) (v : W32) (s : State) : Res :=
  .next (if c < 32 then regWrite s ini (frameOf 3 c 1 * 4096 + if limit then 0xE4 else 0xE0) 4 v else s)

/-- CYCLE_COUNTER_READ (R168): of CNT_CYC_L or CNT_2k_L. -/
def execCycleCounterRead (ini : Ini) (c off : Nat) (s : State) : Res :=
  .next (if c < 32 ∧ (off = 0x40 ∨ (0x54 ≤ off ∧ off < 0xD0 ∧ (off - 0x54) % 32 = 0)) then
    readAnswer (regRead s ini (frameOf 3 c 1 * 4096 + off))
  else s)

end Sys2Proof.Machine
end

