-- ==== Sys2Proof/Machine/CoreMem.lean ====
section
/-! DEFINITION. Memory as instructions see it: the codewords of the memories, loads and stores of one word, byte cursors, LD, ST,
STP, AADD and ASWP (R121-R124, R132, R134, R339-R341, R351, R356, R358). -/

namespace Sys2Proof.Machine

open Sys2Proof

/-! ## Codewords (R339, R340, R351, R358) -/

/-- The codeword that an access touches: memory instance, line, codeword in the instance; `staging` for the two-channel code. -/
structure Cw where
  inst : Nat
  line : Nat
  cw : Nat
  staging : Bool := false
  deriving DecidableEq, Repr

/-- The codeword of a word of a core's local data memory. -/
def ldmCw (c a : Nat) : Cw := { inst := c, line := a / 8, cw := a }
/-- The codeword of a byte of the shared buffer SRAM. -/
def sramCw (o : Nat) : Cw := { inst := sramInst o, line := sramLine o, cw := o % 3145728 / 8 }
/-- Does a DRAM data offset lie in a staging row (R340)? -/
def stagingRow (x : Nat) : Bool := decide (1198372 ≤ x / 14336) && decide (x / 14336 ≤ 1497965)
/-- The codeword of a DRAM data offset. -/
def dramCw (x : Nat) : Cw :=
  if stagingRow x then { inst := dramInst x, line := x / 64, cw := 2147483648 + x / 224, staging := true }
  else { inst := dramInst x, line := x / 64, cw := x / 64 }

/-- Check bits of a codeword that the test mode reaches: 7 of a word memory, 8 of the SRAM, 72 of DRAM. -/
def cwWidth (w : Cw) : Nat := if w.inst < 32 then 7 else if w.inst < 162 then 8 else 72
/-- The bits of a codeword that are wrong. -/
def cwFlips (s : State) (w : Cw) : Nat := tget s.memi.flips 0 (lineKey w.inst w.cw)
/-- Replaces them. -/
def setFlips (s : State) (w : Cw) (m : Nat) : State :=
  modMemi s (fun t => { t with flips := tset t.flips 0 (lineKey w.inst w.cw) m })
/-- Wrong bits of a mask. -/
def wrongBits (m : Nat) : Nat := ((List.range 72).filter (fun i => m / 2 ^ i % 2 == 1)).length
/-- Wrong bytes of a mask. -/
def wrongBytes (m : Nat) : Nat := ((List.range 9).filter (fun i => m / 256 ^ i % 256 != 0)).length

/-- What a decoder makes of a codeword; beyond what the code guarantees the outcome is open. -/
inductive Decoded where
  | clean | corrected | bad | beyond
  deriving DecidableEq, Repr

/-- The decoder (R339, R340, R351). -/
def decodeCw (w : Cw) (m : Nat) : Decoded :=
  if m = 0 then .clean
  else if w.inst < 162 then (if wrongBits m = 1 then .corrected else if wrongBits m = 2 then .bad else .beyond)
  else if w.staging then (if wrongBytes m ≤ 8 then .corrected else .beyond)
  else if wrongBytes m ≤ 4 then .corrected
  else if wrongBytes m = 5 then .bad
  else .beyond

/-- Counts a corrected error of a line (R354). -/
def countCorrected (s : State) (w : Cw) : State :=
  modMemi s (fun m => { m with
    insts := tmod m.insts {} w.inst (fun v => { v with ce := satInc v.ce }),
    errs := tmod m.errs 0 (lineKey w.inst w.line) (· + 1) })

/-- Notes that a codeword of a line was uncorrectable: the line is due for a spare (R354). -/
def countBad (s : State) (w : Cw) : State :=
  setLine (modMemi s (fun m => { m with errs := tset m.errs 0 (lineKey w.inst w.line) 3 })) w.inst w.line 3

/-- Does the armed injection of a mode act on an access (R358)? `own` tells that it is stamped 0 and polder 0 owns the address. -/
def injects (s : State) (w : Cw) (mode own : Bool) : Bool :=
  own && s.memi.armed && s.memi.mode == mode &&
    (s.memi.target.toNat == w.inst || (w.staging && decide (162 ≤ s.memi.target.toNat) && decide (s.memi.target.toNat ≤ 169)))

/-- The outcome of reading a codeword: its data, data that the spec leaves open, or uncorrectable. -/
inductive CwRead where
  | good
  | loose (n : Nat)
  | bad
  deriving DecidableEq, Repr

/-- The decoding of one codeword; beyond the guarantee a free choice: the trial of R340 or a miscorrection, an uncorrectable error,
or none seen. -/
def readFlips (s : State) (w : Cw) (x : Nat) : CwRead × State :=
  match decodeCw w (cwFlips s w) with
  | .clean => (.good, s)
  | .corrected => (.good, countCorrected s w)
  | .bad => (.bad, countBad s w)
  | .beyond =>
    let (n, s) := takeFree s
    let k := Config.freeNat n % 3
    if k = 0 then (.bad, countBad s w)
    else if w.staging then
      (.good, modMemi (countCorrected s w) (fun m => { m with trials := tmod m.trials 0 (x % 14336 / 224 % 8) (· + 1) }))
    else if k = 1 then (.loose n, countCorrected s w)
    else (.good, s)

/-- Reads a codeword (R341, R356, R358): a raw read of the test mode puts its check bits, which the spec's codes do not give in
numbers, into MEMI_TEST_CHK. -/
def readCw (s : State) (w : Cw) (x : Nat) (own : Bool) : CwRead × State :=
  let s :=
    if injects s w true own then
      let (n, s) := takeFree s
      let v := Config.freeNat n % 2 ^ cwWidth w
      modMemi s (fun m => { m with armed := false, chk0 := BitVec.ofNat 32 v, chk1 := BitVec.ofNat 32 (v / 2 ^ 32), chk2 := BitVec.ofNat 32 (v / 2 ^ 64) })
    else s
  if lineBad s w.inst w.line then (.bad, s) else readFlips s w x

/-- Writes a codeword, whole or in part: an armed mask of the test mode is stored with its check bits; a partial write is a
read-modify-write, which an uncorrectable codeword survives (R339, R358). -/
def writeCw (s : State) (w : Cw) (whole own : Bool) : State :=
  if injects s w false own then
    let v := (s.memi.chk0.toNat + s.memi.chk1.toNat * 2 ^ 32 + s.memi.chk2.toNat * 2 ^ 64) % 2 ^ cwWidth w
    modMemi (setFlips s w v) (fun m => { m with armed := false })
  else
    let m := cwFlips s w
    if m = 0 then s
    else if whole then setFlips s w 0
    else
      match decodeCw w m with
      | .corrected => setFlips (countCorrected s w) w 0
      | _ => s

/-! ## Bus errors and breaches of a core -/

/-- The bus error of a load (R132); `val` is the address the instruction formed (R157). -/
def busTrap (val : W36) (evs : List Nat) : Trap := { cause := 6, val := val, evs := evs }

/-- An uncorrectable load of core `c`; a second one of its own local memory takes the core out (R356, R396). -/
def loadBad (s : State) (c : Nat) (w : Cw) : State :=
  let s := ueRead s w.inst w.line 0 (core s c).polder
  if w.inst = c then
    let s := modCore s c (fun k => { k with ldmErrs := k.ldmErrs + 1 })
    if (core s c).ldmErrs = 2 then coreOut s c else s
  else s

/-- A load's outcome: the word, or a trap. -/
abbrev Loaded := Except Trap W36 × State

/-- The word of a codeword that was read: the stored one, a free one, or a bus error. -/
def gotWord (c : Nat) (w : Cw) (val : W36) (data : State → W36) : CwRead × State → Loaded
  | (.good, s) => (.ok (data s), s)
  | (.loose n, s) => (.ok (Config.freeWord n), s)
  | (.bad, s) => (.error (busTrap val []), loadBad s c w)

/-- A 32-bit word of little-endian bytes, tags zero. -/
def wordOf (bs : Bytes) : W36 := BitVec.ofNat 36 (ofLe bs % 2 ^ 32)

/-- One DRAM access of 64 bytes by a core: counted and charged ("Events and coefficients"; R440). -/
def dramAccess (s : State) (c : Nat) : State :=
  let k := core s c
  chargeJob (dramCount s k.polder 64) k.polder k.job (dramFj s 64)

/-! ## Ring areas (R174, R177) -/

/-- The absolute ring that a byte of the ring window names for a stamp. -/
def windowRing (s : State) (p o : Nat) : Option Nat := absRing s p ((o - ringAreas) / 4096)

/-- The state word STATUS. -/
def statusOf (g : Ring) : W32 :=
  put g.concerned.toNat 31 16 ||| putB g.foreign 3 ||| put g.cause.toNat 2 1 ||| putB g.halted 0

/-- Word `w` of a ring area. -/
def areaWord (g : Ring) (w : Nat) : W32 :=
  if w < 512 then tget g.desc 0 w
  else if w < 768 then tget g.comp 0 (w - 512)
  else
    match w - 768 with
    | 0 => put g.prod.toNat 15 0
    | 1 => put g.cons.toNat 15 0
    | 2 => put g.cprod.toNat 15 0
    | 3 => put g.ccons.toNat 15 0
    | 4 => statusOf g
    | 5 => putB g.cancelReq 31 ||| put g.cancelIdx.toNat 15 0
    | _ => 0

/-- A write of word `w` of ring `r`'s area: descriptor and completion slots, CCONS, CANCEL, RESTART; all else is discarded. -/
def areaSet (s : State) (r w : Nat) (v : W32) : State :=
  if w < 512 then modRing s r (fun g => { g with desc := tset g.desc 0 w v })
  else if w < 768 then modRing s r (fun g => { g with comp := tset g.comp 0 (w - 512) v })
  else if w = 771 then setCcons s r (v.setWidth 16)
  else if w = 773 then cancelWord s r v
  else if w = 774 then restartWord s r v
  else s

/-! ## Loads of one word -/

/-- Does polder 0 own the buffer that holds a byte of the shared buffer SRAM? -/
def svcBuf (s : State) (o : Nat) : Bool :=
  match bufAt o with
  | some (p, i) => (buf s (bufKey p i)).owner == 0
  | none => true

/-- A load from the shared buffer SRAM at byte offset `o`: a ring area through the ring window, or a buffer. -/
def loadSram (s : State) (c a : Nat) (val : W36) : Loaded :=
  let p := (core s c).polder
  let o := (a - sramWin) * 4
  if ringAreas ≤ o then
    match windowRing s p o with
    | none => (.error (busTrap val [0x14]), coreBreach s c a (ringOwner s (ringFirst (polder s p) + (o - ringAreas) / 4096)) 4 false)
    | some r =>
      let w := sramCw (ringAreas + r * 4096 + o % 4096)
      gotWord c w val (fun s => (areaWord (ring s r) (o % 4096 / 4)).setWidth 36) (readCw s w 0 (p == 0 && ringOwner s r == 0))
  else
    match curBreach s p (4 * a) with
    | some (b, q) => (.error (busTrap val [0x14]), coreBreach s c a q b false)
    | none =>
      let w := sramCw o
      if curPoison s (4 * a) then (.error (busTrap val []), if lineBad s w.inst w.line then loadBad s c w else s)
      else gotWord c w val (fun s => wordOf (curRead s (4 * a) 4)) (readCw s w 0 (p == 0 && svcBuf s o))

/-- A load from the DRAM window. -/
def loadDram (s : State) (c a : Nat) (val : W36) : Loaded :=
  let p := (core s c).polder
  let x := (a - dramWin) * 4
  match curBreach s p (4 * a) with
  | some (b, q) => (.error (busTrap val [0x14]), coreBreach s c a q b false)
  | none =>
    gotWord c (dramCw x) val (fun s => wordOf (curRead s (4 * a) 4))
      (readCw (dramRead (dramAccess s c) x 4) (dramCw x) x (p == 0 && dramOwner s x == 0))

/-- A load from the image window, through the image-region dike (R38); a word outside every section is not stated (a free value). -/
def loadImg (s : State) (c a : Nat) (val : W36) : Loaded :=
  let k := core s c
  let s := dramAccess s c
  match imageFill s k a with
  | .breach x o => (.error (busTrap val [0x14]), coreBreach s c (dramWin + x / 4) o 0x0B false)
  | .bad x => (.error (busTrap val []), loadBad s c (dramCw x))
  | .good =>
    let (n, s) := takeFree s
    (.ok ((imageWord s k a).getD (Config.freeWord n)), s)

/-- A load from the control window: a register read (R9, R123); poison is a breach on a load. -/
def loadControl (s : State) (c a : Nat) (val : W36) : Loaded :=
  let x := (a - controlWin) * 4
  match gate s (.core c) (x / 4096) (x % 4096) false with
  | (.poison, s) => (.error (busTrap val [0x14]), s)
  | _ =>
    let r := regRead s (.core c) x
    (.ok (r.1.setWidth 36), r.2)

/-- A load of one word (R121, R132). -/
def loadWord (s : State) (c a : Nat) (val : W36) : Loaded :=
  match regionOf a with
  | .ldm => gotWord c (ldmCw c a) val (fun s => tget (core s c).ldm 0 a) (readCw s (ldmCw c a) 0 ((core s c).polder == 0))
  | .sram => loadSram s c a val
  | .image => loadImg s c a val
  | .control => loadControl s c a val
  | .dram => loadDram s c a val
  | .hole => (.error { cause := 3, val := val }, s)

/-! ## Stores of one word -/

/-- The lanes that a store writes. -/
abbrev Lanes := Nat → Bool

/-- A word with the nonets of the lanes given replaced. -/
def mergeWord (old v : W36) (l : Lanes) : W36 :=
  ofLanes (fun n => if l n then byteN v n else byteN old n) (fun n => if l n then tagN v n else tagN old n)

/-- Are all four lanes written? -/
def allLanes (l : Lanes) : Bool := l 0 && l 1 && l 2 && l 3

/-- The lanes written, in order. -/
def laneList (l : Lanes) : List Nat := (List.range 4).filter l

/-- A store to the local data memory: the nonets of the lanes given. -/
def storeLdm (s : State) (c a : Nat) (v : W36) (l : Lanes) : State :=
  let s := writeCw s (ldmCw c a) (allLanes l) ((core s c).polder == 0)
  modCore s c (fun k => { k with ldm := tset k.ldm 0 a (mergeWord (tget k.ldm 0 a) v l) })

/-- A store to the shared buffer SRAM, and whether it was a breach. -/
def storeSram (s : State) (c a : Nat) (v : W36) (l : Lanes) : Bool × State :=
  let p := (core s c).polder
  let o := (a - sramWin) * 4
  if ringAreas ≤ o then
    match windowRing s p o with
    | none => (true, coreBreach s c a (ringOwner s (ringFirst (polder s p) + (o - ringAreas) / 4096)) 4 true)
    | some r =>
      let w := o % 4096 / 4
      let s := writeCw s (sramCw (ringAreas + r * 4096 + o % 4096)) false (p == 0 && ringOwner s r == 0)
      (false, areaSet s r w (dataOf (mergeWord ((areaWord (ring s r) w).setWidth 36) v l)))
  else
    match curBreach s p (4 * a) with
    | some (b, q) => (true, coreBreach s c a q b true)
    | none =>
      if freeAt s o then (false, s)
      else
        let s := writeCw s (sramCw o) false (p == 0 && svcBuf s o)
        (false, (laneList l).foldl (fun s n => sramWrite s (o + n) [byteN v n]) s)

/-- A store to the DRAM window, and whether it was a breach. -/
def storeDram (s : State) (c a : Nat) (v : W36) (l : Lanes) : Bool × State :=
  let k := core s c
  let x := (a - dramWin) * 4
  match curBreach s k.polder (4 * a) with
  | some (b, q) => (true, coreBreach s c a q b true)
  | none =>
    let s := writeCw (dramAccess s c) (dramCw x) false (k.polder == 0 && dramOwner s x == 0)
    (false, (laneList l).foldl (fun s n =>
      if slmBase ≤ x ∧ x < imgBase then jobSlmWrite s k.job (x - slmBase + n) [byteN v n] else dramWrite s (x + n) [byteN v n]) s)

/-- A store of one word to memory other than the control window: the events it counts beside the word's, and the state. -/
def storeWord (s : State) (c a : Nat) (v : W36) (l : Lanes) : List Nat × State :=
  let evs := fun (r : Bool × State) => (if r.1 then [9, 0x14] else [9], r.2)
  match regionOf a with
  | .ldm => ([], storeLdm s c a v l)
  | .sram => evs (storeSram s c a v l)
  | .dram => evs (storeDram s c a v l)
  | _ => ([], s)

/-! ## What an operation answers -/

/-- An operation of a core on values: the result for rd if it has one, the flags, the state, counter events, data address; or a
trap; or a stall while the job is HELD. -/
inductive OpRes where
  | ok (v : Option W36) (g : BitVec 4) (s : State) (evs : List Nat) (addr : Option Nat)
  | trap (t : Trap) (s : State)
  | held (s : State)

/-- A long word of one operation: rd and flags are written and the pc goes on. -/
def opWord (c : Nat) (rd : BitVec 5) (f : State → Core → OpRes) (s : State) : State :=
  runWord c s (fun s =>
    match f s (core s c) with
    | .ok v g s evs addr =>
      let k := core s c
      let k := match v with
        | some x => rset k rd x
        | none => k
      .ok (setCore s c { k with flags := g, pc := k.pc + 1 }) ([2, 3] ++ evs) addr
    | .trap t s => .trap t s
    | .held s => .held s)

/-- The illegal-instruction trap of an operation. -/
def opIllegal (s : State) : OpRes := .trap { cause := 1 } s

/-- The event of a load from a region. -/
def loadEvent (a : Nat) : List Nat :=
  match regionOf a with
  | .ldm => [6]
  | .sram => [7]
  | .dram => [8]
  | _ => []

/-! ## LD (R132) -/

/-- The result of LD modes 0 to 3 from the word read. -/
def laneVal (mode lane : Nat) (w : W36) : W36 :=
  match mode with
  | 0 => w
  | 1 => (byteN w lane).setWidth 36
  | 2 => (byteN w lane).signExtend 36
  | _ => ofLanes (fun _ => byteN w lane) (fun _ => false)

/-- The words that `n` bytes from a cursor touch. -/
def cursorWords (cur n : Nat) : List Nat := if n = 0 then [] else if cur / 4 = (cur + n - 1) / 4 then [cur / 4] else [cur / 4, cur / 4 + 1]

/-- The check of a byte-cursor access (R122, R123, R152): each word granted, both in one region of the map, not the control window. -/
def cursorCheck (s : State) (k : Core) (cur n : Nat) (write : Bool) : Option Nat :=
  let ws := cursorWords cur n
  match ws.findSome? (fun a => protect s k a write) with
  | some t => some t
  | none =>
    if ws.any (fun a => regionOf a != regionOf (cur / 4)) then some 3
    else if ws ≠ [] ∧ regionOf (cur / 4) = .control then some 5
    else none

/-- Loads `n` bytes at a cursor: the bytes, or a trap. -/
def loadBytes (s : State) (c cur n : Nat) : Except Trap Bytes × State :=
  let val := BitVec.ofNat 36 cur
  let ws := cursorWords cur n
  let pick := fun (l : List W36) => (List.range n).map (fun i => byteN (l.getD ((cur + i) / 4 - cur / 4) 0) ((cur + i) % 4))
  match loadWord s c (cur / 4) val with
  | (.error t, s) => (.error t, s)
  | (.ok w, s) =>
    if ws.length < 2 then (.ok (pick [w]), s)
    else
      match loadWord s c (cur / 4 + 1) val with
      | (.error t, s) => (.error t, s)
      | (.ok w', s) => (.ok (pick [w, w']), s)

/-- A load of one word in modes 0 to 3 at a word address. -/
def loadAt (s : State) (c : Nat) (k : Core) (a : W36) (g : BitVec 4) (f : W36 → W36) : OpRes :=
  match protect s k a.toNat false with
  | some t => .trap { cause := t, val := a } s
  | none =>
    match loadWord s c a.toNat a with
    | (.error t, s) => .trap t s
    | (.ok w, s) => .ok (some (f w)) g s (loadEvent a.toNat) (some a.toNat)

/-- A load of bytes at a cursor. -/
def loadCur (s : State) (c : Nat) (k : Core) (cur : W36) (n : Nat) (g : BitVec 4) (f : Bytes → W36) : OpRes :=
  match cursorCheck s k cur.toNat n false with
  | some t => .trap { cause := t, val := cur } s
  | none =>
    match loadBytes s c cur.toNat n with
    | (.error t, s) => .trap t s
    | (.ok bs, s) => .ok (some (f bs)) g s (loadEvent (cur.toNat / 4)) (some (cur.toNat / 4))

/-- LD: `a` is ra (R132). -/
def ldOp (s : State) (c : Nat) (mode lane : Nat) (off : BitVec 13) (a : W36) (g : BitVec 4) : OpRes :=
  let k := core s c
  let x := a + sext13 off
  if mode < 4 then loadAt s c k x g (laneVal mode lane)
  else if mode = 4 ∧ lane = 0 then loadCur s c k x 4 g wordOf
  else opIllegal s

/-- LD (R132, R147: mode U traps under a version 1 image). -/
def execILd (c : Nat) (rd ra : BitVec 5) (mode : BitVec 3) (lane : BitVec 2) (off : BitVec 13) (s : State) : Res :=
  .next (opWord c rd (fun s k =>
    if mode = 4 ∧ k.v1 = true then opIllegal s else ldOp s c mode.toNat lane.toNat off (rget k ra) k.flags) s)

/-! ## ST (R132) -/

/-- The lanes and the word that ST modes 0 to 3 store of `d`: a byte goes to its lane with tag 0. -/
def stWord (mode lane : Nat) (d : W36) : W36 × Lanes :=
  match mode with
  | 0 => (d, fun _ => true)
  | 1 => (ofLanes (fun _ => byteN d 0) (fun _ => false), fun n => n == lane)
  | 2 => (d, fun n => tagN d n)
  | _ => (d, fun n => !tagN d n)

/-- A store of one word in modes 0 to 3 at a word address. -/
def storeAt (s : State) (c : Nat) (k : Core) (a : W36) (mode lane : Nat) (d : W36) (g : BitVec 4) : OpRes :=
  match protect s k a.toNat true with
  | some t => .trap { cause := t, val := a } s
  | none =>
    if regionOf a.toNat = .control then
      .ok none g (regWrite s (.core c) ((a.toNat - controlWin) * 4) (if mode = 0 then 4 else 1) (dataOf d)) [9] (some a.toNat)
    else
      let r := storeWord s c a.toNat (stWord mode lane d).1 (stWord mode lane d).2
      .ok none g r.2 r.1 (if r.1.contains 0x14 then none else some a.toNat)

/-- ST: `a` is ra, `d` the data (R132). -/
def stOp (s : State) (c : Nat) (mode lane : Nat) (off : BitVec 13) (a d : W36) (g : BitVec 4) : OpRes :=
  if mode < 4 then storeAt s c (core s c) (a + sext13 off) mode lane d g else opIllegal s

/-- ST (R132). -/
def execISt (c : Nat) (rd ra : BitVec 5) (mode : BitVec 3) (lane : BitVec 2) (off : BitVec 13) (s : State) : Res :=
  .next (opWord c 0 (fun s k => stOp s c mode.toNat lane.toNat off (rget k ra) (rget k rd) k.flags) s)

/-! ## STP (R127, R129) -/

/-- Stores bytes from a cursor, each with tag 0 in word memory, word by word. -/
def storeCur (s : State) (c cur : Nat) (bs : Bytes) : List Nat × State :=
  (cursorWords cur bs.length).foldl (fun r a =>
    let l : Lanes := fun n => decide (cur ≤ 4 * a + n) && decide (4 * a + n < cur + bs.length)
    let v := ofLanes (fun n => byteAt bs (4 * a + n - cur)) (fun _ => false)
    let q := storeWord r.2 c a v l
    (r.1 ++ q.1, q.2)) ([], s)

/-- STP: the selected bytes of `a` at the byte cursor `d`, which advances; flags stay (R122, R129). -/
def stpOp (s : State) (c : Nat) (a d : W36) (untagged : Bool) (g : BitVec 4) : OpRes :=
  let bs := selected a untagged
  match cursorCheck s (core s c) d.toNat bs.length true with
  | some t => .trap { cause := t, val := d } s
  | none =>
    let r := storeCur s c d.toNat bs
    .ok (some (d + BitVec.ofNat 36 bs.length)) g r.2 r.1 (if bs = [] ∨ r.1.contains 0x14 = true then none else some (d.toNat / 4))

/-- STP (R127, R147): fn 0 tagged, 1 untagged; a version 1 image takes the illegal-instruction trap. -/
def execIStp (c : Nat) (rd ra _rb : BitVec 5) (fn : BitVec 13) (s : State) : Res :=
  .next (opWord c rd (fun s k =>
    if k.v1 = true ∨ 1 < fn.toNat then opIllegal s else stpOp s c (rget k ra) (rget k rd) (fn == 1) k.flags) s)

/-! ## AADD, ASWP (R134) -/

/-- An atomic operation on the word at `a`: rd is the old value, `f` gives the new one; on a bus error nothing is stored. -/
def atomicOp (s : State) (c : Nat) (a : W36) (f : W36 → W36) (g : BitVec 4) : OpRes :=
  let k := core s c
  let x := a.toNat
  let t := if k.user = true ∨ regionOf x = .hole then (protect s k x false).orElse (fun _ => protect s k x true) else none
  match t with
  | some t => .trap { cause := t, val := a } s
  | none =>
    if regionOf x = .sram ∨ regionOf x = .dram then
      match loadWord s c x a with
      | (.error t, s) => .trap t s
      | (.ok w, s) =>
        let r := storeWord s c x (f w) (fun _ => true)
        .ok (some w) g r.2 (loadEvent x ++ r.1) (some x)
    else .trap { cause := 5, val := a } s

/-- The sum of AADD, wrapping at 32 bits. -/
def add32 (a b : W36) : W36 := (dataOf a + dataOf b).setWidth 36

/-- AADD (R134). -/
def execIAadd (c : Nat) (rd ra rb : BitVec 5) (s : State) : Res :=
  .next (opWord c rd (fun s k => atomicOp s c (rget k ra) (fun w => add32 w (rget k rb)) k.flags) s)

/-- ASWP (R134, R147: traps under a version 1 image). -/
def execIAswp (c : Nat) (rd ra rb : BitVec 5) (s : State) : Res :=
  .next (opWord c rd (fun s k =>
    if k.v1 then opIllegal s else atomicOp s c (rget k ra) (fun _ => rget k rb) k.flags) s)

end Sys2Proof.Machine
end

