-- ==== Sys2Proof/Machine/Pairs.lean ====
section
/-! DEFINITION. Paired words: short operations, pairing rules and the traps of a pair (R125, R126, R140-R144, R147). -/

namespace Sys2Proof.Machine

open Sys2Proof

/-! ## Fields of a short operation (R125) -/

/-- op. -/
def sOp (w : BitVec 17) : Nat := w.toNat / 4096
/-- rd. -/
def sRd (w : BitVec 17) : BitVec 5 := (w >>> 7).setWidth 5
/-- rs. -/
def sRs (w : BitVec 17) : BitVec 5 := (w >>> 2).setWidth 5
/-- sub. -/
def sSub (w : BitVec 17) : Nat := w.toNat % 4
/-- imm7. -/
def sImm (w : BitVec 17) : BitVec 7 := w.setWidth 7

/-- A memory operation: LD, ST, STP, LDB. -/
def sMem (w : BitVec 17) : Bool := decide (16 ≤ sOp w) && decide (sOp w ≤ 19)
/-- A branch: LOOP, BZ, BNZ, BF. -/
def sBranch (w : BitVec 17) : Bool := decide (20 ≤ sOp w) && decide (sOp w ≤ 23)
/-- A post-increment of rs: LD and ST with sub 1, STP, LDB with sub bit 0. -/
def sPost (w : BitVec 17) : Bool :=
  ((sOp w == 16 || sOp w == 17) && sSub w == 1) || sOp w == 18 || (sOp w == 19 && sSub w % 2 == 1)

/-- Is a short operation defined, with the fields it marks as zero zero (R126, R140)? -/
def sValid (w : BitVec 17) : Bool :=
  (match sOp w with
   | 0 => decide (w = 0)
   | 9 => decide ((sImm w).toNat % 64 ≤ 35)
   | 16 => sSub w != 3
   | 17 => sSub w != 3
   | 18 => decide (sSub w < 2)
   | 23 => decide ((sRd w).toNat < 8)
   | n => decide (n ≤ 25))
  && !(sMem w && sRd w == sRs w)

/-- Does a short operation write rd? -/
def sWritesRd (w : BitVec 17) : Bool :=
  let o := sOp w
  (decide (1 ≤ o) && decide (o ≤ 16)) || o == 19 || o == 20 || o == 24 || o == 25

/-- The registers that a short operation writes. -/
def sDests (w : BitVec 17) : List (BitVec 5) :=
  (if sWritesRd w then [sRd w] else []) ++ (if sPost w then [sRs w] else [])

/-- The pairing rules (R142). -/
def pairOk (a b : BitVec 17) : Bool :=
  !(sDests a).any (fun r => r != 0 && (sDests b).contains r) && !(sMem a && sMem b) && !sBranch a

/-! ## What a slot does -/

/-- The effect of a slot: register writes, flag t, the target of a taken branch, counter events, data address. -/
structure Slot where
  writes : List (BitVec 5 × W36) := []
  t : Option Bool := none
  target : Option W36 := none
  evs : List Nat := []
  addr : Option Nat := none

/-- A slot that writes rd only. -/
def sVal (w : BitVec 17) (v : W36) : Slot := { writes := [(sRd w, v)] }
/-- A tag-setting slot (R120). -/
def sTag (w : BitVec 17) (v : W36) : Slot := { writes := [(sRd w, v)], t := some (tags v != 0) }
/-- A branch slot, taken or not. -/
def sJump (k : Core) (w : BitVec 17) (taken : Bool) : Slot :=
  if taken then { target := some (k.pc + sext7 (sImm w)), evs := [0x0A] } else {}

/-- TOPS (R140). -/
def sTops (w : BitVec 17) (d x : W36) : Slot :=
  match sSub w with
  | 0 => sTag w (mkWord (tags d &&& tags x) (dataOf d))
  | 1 => sTag w (mkWord (tags d ||| tags x) (dataOf d))
  | 2 => sTag w (mkWord (tags d &&& ~~~tags x) (dataOf d))
  | _ => sVal w (d + BitVec.ofNat 36 (tagCount x))

/-- A short operation other than a memory operation, on the registers and flags before the pair (R140, R141). -/
def sPlain (k : Core) (w : BitVec 17) : Slot :=
  let d := rget k (sRd w)
  let x := rget k (sRs w)
  let n := (sImm w).toNat % 64
  match sOp w with
  | 1 => sVal w x
  | 2 => sVal w (d + x)
  | 3 => sVal w (d - x)
  | 4 => sVal w (d &&& x)
  | 5 => sVal w (d ||| x)
  | 6 => sVal w (d ^^^ x)
  | 7 => sVal w (halves (hiHalf d + hiHalf x) (loHalf d + loHalf x))
  | 8 => sVal w (d + sext7 (sImm w))
  | 9 => sVal w (if (sImm w).getLsbD 6 then srl36 d n else sll36 d n)
  | 10 => sVal w (sext7 (sImm w))
  | 11 => sTag w (tcmp d x (sSub w) 0)
  | 12 => sTag w (tcmp d x (sSub w) 1)
  | 13 => sTag w (tcmp d x (sSub w) 2)
  | 14 => sTag w (clsTag k x (sSub w) 15 0)
  | 15 => sTops w d x
  | 20 => { sJump k w (decide (d - 1 ≠ 0)) with writes := [(sRd w, d - 1)] }
  | 21 => sJump k w (decide (d = 0))
  | 22 => sJump k w (decide (d ≠ 0))
  | 23 => sJump k w (flagCond k.flags (sRd w).toNat)
  | 24 => sVal w (nrot x (sSub w))
  | 25 => sVal w (naln d x (sSub w))
  | _ => {}

/-- A memory operation of a slot (R132, R140). -/
def sMemOp (s : State) (c : Nat) (k : Core) (w : BitVec 17) : OpRes :=
  let d := rget k (sRd w)
  let x := rget k (sRs w)
  let a := if sSub w = 2 then x + 1 else x
  match sOp w with
  | 16 => loadAt s c k a k.flags (fun v => v)
  | 17 => storeAt s c k a 0 0 d k.flags
  | 18 => stpOp s c d x (sSub w == 1) k.flags
  | _ => loadCur s c k x 1 k.flags (fun bs =>
      if 2 ≤ sSub w then ofLanes (fun _ => byteAt bs 0) (fun _ => false) else (byteAt bs 0).setWidth 36)

/-- The writes of a memory slot: the loaded value to rd, the advanced cursor or address to rs. -/
def memWrites (k : Core) (w : BitVec 17) (v : Option W36) : List (BitVec 5 × W36) :=
  if sOp w = 18 then [(sRs w, v.getD 0)]
  else
    (match v with
     | some x => [(sRd w, x)]
     | none => []) ++ (if sPost w then [(sRs w, rget k (sRs w) + 1)] else [])

/-- A slot on the state: its effect and the state after its memory access, or its trap. -/
def runSlot (s : State) (c : Nat) (k : Core) (w : BitVec 17) (slot : Nat) : Except (Trap × State) (Slot × State) :=
  if sMem w then
    match sMemOp s c k w with
    | .ok v _ s evs addr => .ok ({ writes := memWrites k w v, evs := evs, addr := addr }, s)
    | .trap t s => .error ({ t with slot := slot }, s)
    | .held s => .ok ({}, s)
  else .ok (sPlain k w, s)

/-- Commits both slots (R141, R143). -/
def commitPair (s : State) (c : Nat) (k0 : Core) (a b : Slot) : State :=
  let k := (a.writes ++ b.writes).foldl (fun k e => rset k e.1 e.2) (core s c)
  let g := match b.t with
    | some t => setT k0.flags t
    | none => match a.t with
      | some t => setT k0.flags t
      | none => k0.flags
  setCore s c { k with flags := g, pc := b.target.getD (k0.pc + 1) }

/-- The illegal-instruction trap of a slot, or of the word (R142, R144). -/
def pairIllegal (slot : Nat) (s : State) : Ran := .trap { cause := 1, slot := slot } s

/-- A pair whose encoding is legal: at most one slot accesses memory, so that a trap leaves nothing of the other (R144). -/
def runPair (c : Nat) (a b : BitVec 17) (s : State) : Ran :=
  let k := core s c
  match runSlot s c k a 1 with
  | .error (t, s) => .trap t s
  | .ok (ra, s) =>
    match runSlot s c k b 2 with
    | .error (t, s) => .trap t s
    | .ok (rb, s) =>
      .parts (commitPair s c k ra rb) [([2, 4], 3, none), (3 :: ra.evs, 1, ra.addr), (3 :: rb.evs, 2, rb.addr)]

/-- PAIRED_WORD (R125, R140-R144, R147). Where both slots trap, slot A's cause is reported (R161). -/
def execPairedWord (c : Nat) (rsvd : Bool) (a b : BitVec 17) (s : State) : Res :=
  .next (runWord c s (fun s =>
    if (core s c).v1 || rsvd then pairIllegal 3 s
    else if !sValid a then pairIllegal 1 s
    else if !sValid b then
      match runSlot s c (core s c) a 1 with
      | .error (t, s) => .trap t s
      | .ok _ => pairIllegal 2 s
    else if !pairOk a b then pairIllegal 3 s
    else runPair c a b s))

end Sys2Proof.Machine
end

