-- ==== Sys2Proof/Machine/System.lean ====
section
/-! DEFINITION. The system group (R135-R139), the control registers and privileged operations (R156, R158), counters, sampling and
interrupts of a core (R159, R160, R166-R172), and the forced stop (R162). -/

namespace Sys2Proof.Machine

open Sys2Proof

/-- A word of the system group; fn 12:6 is zero where `ok` says so (R126). -/
def sysWord (c : Nat) (rd : BitVec 5) (ok : Bool) (f : State → Core → OpRes) (s : State) : State :=
  opWord c rd (fun s k => if ok then f s k else opIllegal s) s

/-! ## DBR (R136) -/

/-- The job of a core is HELD: the core stalls at a doorbell ("Job states"). -/
def coreHeld (s : State) (k : Core) : Bool :=
  match k.job with
  | none => false
  | some j => match job s j with
    | none => false
    | some v => v.st == .held

/-- Who a core's doorbells come from (R176). -/
def doorHolder (k : Core) : Holder :=
  match k.job with
  | some j => if k.user then .job j else .service
  | none => .service

/-- DBR: ring `a`, producer index `b` 15:0; a ring outside the window is a breach, dropped and counted without a trap (R136). -/
def dbrOp (s : State) (c : Nat) (a b : W36) (g : BitVec 4) : OpRes :=
  let k := core s c
  if coreHeld s k then .held s
  else
    let n := if k.polder = 0 then a.toNat % 256 else a.toNat % 64
    match absRing s k.polder n with
    | some r => .ok none g (doorbell s r (doorHolder k) (b.setWidth 16)) [0x0D] none
    | none =>
      .ok none g (breach s k.polder (ringOwner s (ringFirst (polder s k.polder) + n)) 4 0 true n (.core c)) [0x0D, 0x14] none

/-- DBR (R136): rd zero. -/
def execIDbr (c : Nat) (rd ra rb : BitVec 5) (m : BitVec 7) (s : State) : Res :=
  .next (sysWord c 0 (decide (m = 0) && decide (rd = 0)) (fun s k => dbrOp s c (rget k ra) (rget k rb) k.flags) s)

/-! ## WFE, SIG, FENCE (R124, R137) -/

/-- WFE (R137): a masked pending event is returned and cleared at once; else the core waits, and the word's result comes later. -/
def wfeOp (s : State) (c : Nat) (rd : BitVec 5) (a b : W36) (g : BitVec 4) : OpRes :=
  let k := core s c
  let m : BitVec 33 := a.setWidth 33
  let v := k.pend &&& m
  if a.toNat / 2 ^ 33 ≠ 0 ∨ (a = 0 ∧ b = 0) then opIllegal s
  else if v = 0 then .ok none g (setCore s c { k with st := .waiting, wfe := some { mask := m, rd := rd, timeout := b.toNat } }) [] none
  else .ok (some (v.setWidth 36)) g (setCore s c { k with pend := k.pend &&& ~~~m }) [] none

/-- WFE (R137). -/
def execIWfe (c : Nat) (rd ra rb : BitVec 5) (m : BitVec 7) (s : State) : Res :=
  .next (sysWord c rd (decide (m = 0)) (fun s k => wfeOp s c rd (rget k ra) (rget k rb) k.flags) s)

/-- WFE_TIMEOUT (R137): a wait with a timeout ends with rd = 0. -/
def execWfeTimeout (c : Nat) (s : State) : Res :=
  let k := core s c
  .next (match k.wfe with
  | none => s
  | some w =>
    if k.st = .waiting ∧ w.timeout ≠ 0 ∧ k.out = false then
      waited (setCore s c { rset k w.rd 0 with wfe := none, st := .running }) c
    else s)

/-- Event 32 on the core of a job-relative index; discarded outside the job and on a core that has ended (R137, R139). -/
def sigTo (s : State) (k : Core) (n : Nat) : State :=
  match k.job with
  | none => s
  | some j => match job s j with
    | none => s
    | some v => match v.cores[n]? with
      | none => s
      | some d => if (core s d).st = .stopping then s else setEvent s d 32

/-- SIG (R137). -/
def execISig (c : Nat) (_rd ra _rb : BitVec 5) (m : BitVec 7) (s : State) : Res :=
  .next (sysWord c 0 (decide (m = 0)) (fun s k => .ok none k.flags (sigTo s k (rget k ra).toNat) [] none) s)

/-- FENCE (R124): accesses take effect in program order here, so none is left to wait for. -/
def execIFence (c : Nat) (_rd _ra _rb : BitVec 5) (m : BitVec 7) (s : State) : Res :=
  .next (sysWord c 0 (decide (m = 0)) (fun s k => .ok none k.flags s [] none) s)

/-! ## MFS, MFF, MTF (R118, R135) -/

/-- Microseconds that a job's time limit leaves, saturating; pauses do not count (R85, R104). -/
def remainingUs (s : State) (v : Job) : Nat :=
  if v.limitMs = 0 then 2 ^ 36 - 1 else satN 36 (v.startT + v.pausedUs + v.limitMs * 1000 - s.now)

/-- The value of MFS selectors that a job gives (1, 2, 4, 5); for a service core they are not stated (free values). -/
def mfsJob (s : State) (k : Core) (sel : Nat) : W36 × State :=
  match k.job.bind (job s) with
  | none => let (n, s) := takeFree s; (Config.freeWord n, s)
  | some v =>
    (match sel with
     | 1 => BitVec.ofNat 36 k.rel
     | 2 => BitVec.ofNat 36 v.cores.length
     | 4 => BitVec.ofNat 36 k.prog
     | _ => BitVec.ofNat 36 (remainingUs s v), s)

/-- The value of an MFS selector. -/
def mfsVal (s : State) (c : Nat) (sel : Nat) : W36 × State :=
  if sel = 0 then (BitVec.ofNat 36 c, s)
  else if sel = 3 then (BitVec.ofNat 36 (core s c).polder, s)
  else mfsJob s (core s c) sel

/-- MFS (R135): selector fn 10:6, 0 to 5. -/
def execIMfs (c : Nat) (rd _ra _rb : BitVec 5) (m : BitVec 7) (s : State) : Res :=
  .next (sysWord c rd (decide (m.toNat ≤ 5)) (fun s k => let r := mfsVal s c m.toNat; .ok (some r.1) k.flags r.2 [] none) s)

/-- MFF (R118). -/
def execIMff (c : Nat) (rd _ra _rb : BitVec 5) (m : BitVec 7) (s : State) : Res :=
  .next (sysWord c rd (decide (m = 0)) (fun s k => .ok (some (k.flags.setWidth 36)) k.flags s [] none) s)

/-- MTF (R118): flags = ra 3:0. -/
def execIMtf (c : Nat) (_rd ra _rb : BitVec 5) (m : BitVec 7) (s : State) : Res :=
  .next (sysWord c 0 (decide (m = 0)) (fun s k => .ok none ((rget k ra).setWidth 4) s [] none) s)

/-! ## RDC (R135, R168) -/

/-- Bits 71:36 of the cycle counter. -/
def cycHi (k : Core) : W36 := (k.cyc >>> 36).setWidth 36

/-- The read of a counter selector: a low half latches the high half, and the next read of the high half returns the latch. -/
def rdcVal (k : Core) (sel : Nat) : W36 × Core :=
  if sel = 0 then (k.cyc.setWidth 36, { k with snapHi := some (cycHi k) })
  else if sel = 1 then (k.snapHi.getD (cycHi k), { k with snapHi := none })
  else
    let n := sel - 2
    if n % 2 = 0 then
      (lowHalf k n, if cfgChain (counter k (n + 1)).cfg then
          { k with snapPair := tset k.snapPair none (n + 1) (some (counter k (n + 1)).val) } else k)
    else ((tget k.snapPair none n).getD (counter k n).val, { k with snapPair := tset k.snapPair none n none })

/-- POL_PERM bits: cnt_user 0, sample 1. -/
def permOf (s : State) (k : Core) (n : Nat) : Bool := (polder s k.polder).perm.getLsbD n

/-- RDC (R135, R168): selectors 0 to 9; the privilege trap while POL_PERM.cnt_user = 0. -/
def execIRdc (c : Nat) (rd _ra _rb : BitVec 5) (m : BitVec 7) (s : State) : Res :=
  .next (sysWord c rd (decide (m.toNat ≤ 9)) (fun s k =>
    if permOf s k 0 then let r := rdcVal k m.toNat; .ok (some r.1) k.flags (setCore s c r.2) [] none
    else .trap { cause := 2 } s) s)

/-! ## END, TRAP (R103, R104, R139) -/

/-- END: on the lead core the job ends with w1, unless its limit expired first; any other core stops alone (R103, R104, R139). -/
def endOp (s : State) (c : Nat) (g : BitVec 4) : OpRes :=
  let k := core s c
  let stop := setCore s c { k with st := .stopping }
  .ok none g (match k.job with
    | none => stop
    | some j => match job s j with
      | none => stop
      | some v =>
        if k.rel = 0 then
          endJob s j (some (if limitReached s v then (.interrupted, putB true 31) else (.success, dataOf (rget k 1))))
        else stop) [] none

/-- END (R139). -/
def execIEnd (c : Nat) (_rd _ra _rb : BitVec 5) (m : BitVec 7) (s : State) : Res :=
  .next (sysWord c 0 (decide (m = 0)) (fun s k => endOp s c k.flags) s)

/-- TRAP (R157): the software trap with code fn 12:6. -/
def execITrap (c : Nat) (_rd _ra _rb : BitVec 5) (m : BitVec 7) (s : State) : Res :=
  .next (sysWord c 0 true (fun s _ => .trap { cause := 8, info := m.toNat } s) s)

/-! ## Control registers (R156) -/

/-- How an access to a control register ends: permitted, the privilege trap, or no such register. -/
inductive CrAccess where
  | ok | priv | none
  deriving DecidableEq, Repr

/-- The access rule of a control register. -/
def crAccess (s : State) (k : Core) (sel : Nat) (write : Bool) : CrAccess :=
  let need := fun (b : Bool) => if k.user = false ∨ b = true then CrAccess.ok else .priv
  if sel ≤ 3 then .ok
  else if 8 ≤ sel ∧ sel ≤ 15 then need (permOf s k 0)
  else if 16 ≤ sel ∧ sel ≤ 23 then need (write && permOf s k 0)
  else if sel = 24 then need (permOf s k 0)
  else if 25 ≤ sel ∧ sel ≤ 28 then need (permOf s k 1)
  else if 32 ≤ sel ∧ sel ≤ 37 then need false
  else .none

/-- The value of a control register. -/
def crVal (k : Core) (sel : Nat) : W36 :=
  match sel with
  | 0 => k.utvec
  | 1 => k.uepc
  | 2 => k.ucause
  | 3 => k.utval
  | 24 => k.ovf.setWidth 36
  | 25 => k.smpBase.setWidth 36
  | 26 => k.smpLimit.setWidth 36
  | 27 => k.smpNext.setWidth 36
  | 28 => (put k.smpLost.toNat 31 16 ||| putB k.smpFull 0).setWidth 36
  | 32 => k.sstatus.setWidth 36
  | 33 => k.stvec
  | 34 => k.sepc
  | 35 => k.scause
  | 36 => k.stval
  | 37 => k.sscratch
  | n => if n < 16 then (counter k (n - 8)).cfg.setWidth 36 else (counter k (n - 16)).val

/-- A trap vector base: bits 5:0 read as zero. -/
def vecBase (v : W36) : W36 := v &&& ~~~63#36

/-- The write of a control register; a read-only one is left alone. -/
def crSet (s : State) (c sel : Nat) (v : W36) : State :=
  match sel with
  | 0 => modCore s c (fun k => { k with utvec := vecBase v })
  | 1 => modCore s c (fun k => { k with uepc := v })
  | 24 => modCore s c (fun k => { k with ovf := k.ovf &&& ~~~v.setWidth 8 })
  | 25 => smpWrite s c false (v.toNat % 2 ^ 21)
  | 26 => smpWrite s c true (v.toNat % 2 ^ 21)
  | 32 => modCore s c (fun k => { k with sstatus := v.setWidth 2 })
  | 33 => modCore s c (fun k => { k with stvec := vecBase v })
  | 34 => modCore s c (fun k => { k with sepc := v })
  | 37 => modCore s c (fun k => { k with sscratch := v })
  | n =>
    if 8 ≤ n ∧ n < 16 then cfgWrite s c (n - 8) (v.setWidth 16)
    else if 16 ≤ n ∧ n < 24 then modCore s c (fun k => modCounter k (n - 16) (fun x => { x with val := v, reload := v }))
    else s

/-- The counter that an MTC word of core `c` writes, where the word retires. -/
def mtcCounter (s : State) (c sel : Nat) (ok : Bool) : Option Nat :=
  if coreRuns s c && (fetchTrap s (core s c)).isNone && ok && decide (16 ≤ sel) && decide (sel < 24)
      && crAccess s (core s c) sel true == .ok then some (sel - 16) else none

/-- MFC (R156): selector fn 5:0; ra, rb and fn 12:6 zero. -/
def execIMfc (c : Nat) (rd ra rb : BitVec 5) (fn : BitVec 13) (s : State) : Res :=
  .next (sysWord c rd (decide (ra = 0) && decide (rb = 0) && decide (fn.toNat < 64)) (fun s k =>
    match crAccess s k fn.toNat false with
    | .ok => .ok (some (crVal k fn.toNat)) k.flags s [] none
    | .priv => .trap { cause := 2 } s
    | .none => opIllegal s) s)

/-- MTC but for the count of its own word. -/
def mtcWord (c : Nat) (ok : Bool) (ra : BitVec 5) (sel : Nat) (s : State) : State :=
  sysWord c 0 ok (fun s k =>
    match crAccess s k sel true with
    | .ok => .ok none k.flags (crSet s c sel (rget k ra)) [] none
    | .priv => .trap { cause := 2 } s
    | .none => opIllegal s) s

/-- MTC (R156): selector fn 5:0; rd, rb and fn 12:6 zero. A counter that it writes does not count the word itself (R169). -/
def execIMtc (c : Nat) (rd ra rb : BitVec 5) (fn : BitVec 13) (s : State) : Res :=
  let ok := decide (rd = 0) && decide (rb = 0) && decide (fn.toNat < 64)
  let t := mtcWord c ok ra fn.toNat s
  .next (match mtcCounter s c fn.toNat ok with
  | some n =>
    let x := counter (core s c) n
    modCore t c (fun k => modCounter k n (fun _ => { x with val := rget (core s c) ra, reload := rget (core s c) ra }))
  | none => t)

/-- Bit 31 of a cause register, busy. -/
def busyBit : W36 := 0x80000000#36

/-- The core after ERET in its mode (R158, R160). -/
def eretCore (k : Core) : Core :=
  if k.user then { k with pc := k.uepc, flags := (k.ucause >>> 32).setWidth 4, ucause := k.ucause &&& ~~~busyBit }
  else { k with pc := k.sepc, flags := (k.scause >>> 32).setWidth 4, scause := k.scause &&& ~~~busyBit, sstatus := k.sstatus &&& 1 }

/-- ERET (R156, R158): all fields zero; in user mode the privilege trap while UCAUSE.busy = 0. -/
def execIEret (c : Nat) (rd ra rb : BitVec 5) (fn : BitVec 13) (s : State) : Res :=
  .next (runWord c s (fun s =>
    let k := core s c
    if rd ≠ 0 ∨ ra ≠ 0 ∨ rb ≠ 0 ∨ fn ≠ 0 then illegal s
    else if k.user && !k.ucause.getLsbD 31 then .trap { cause := 2 } s
    else .ok (setCore s c (eretCore k)) [2, 3] none))

/-- HALT (R156): system mode only; all fields zero. -/
def execIHalt (c : Nat) (rd ra rb : BitVec 5) (fn : BitVec 13) (s : State) : Res :=
  .next (runWord c s (fun s =>
    let k := core s c
    if rd ≠ 0 ∨ ra ≠ 0 ∨ rb ≠ 0 ∨ fn ≠ 0 then illegal s
    else if k.user then .trap { cause := 2 } s
    else .ok (setCore s c { k with st := .halted, pc := k.pc + 1 }) [2, 3] none))

/-! ## Counter wraps and sampling records (R167, R170-R172) -/

/-- The kind of a data address (R171), and the address as a record may show it (R172); `a` is one more than the word address. -/
def dataAddr (s : State) (k : Core) (a : Nat) : Nat × Nat :=
  if a = 0 then (0, 0)
  else
    let w := a - 1
    let mine := fun (b : Bool) (kind : Nat) => if b then (kind, w) else (0, 0)
    match regionOf w with
    | .ldm => (1, w)
    | .image => mine (sections (coreImage s k)).isEmpty.not 2
    | .sram => mine (match bufAt ((w - sramWin) * 4) with
        | some (p, i) => (buf s (bufKey p i)).owner == k.polder && (buf s (bufKey p i)).ref != 0
        | none => false) 3
    | .dram => mine (inOwnSlm s k w) 4
    | _ => (0, 0)

/-- The eight words of a sampling record (R171). -/
def sampleWords (s : State) (k : Core) (n : Nat) (pc : W36) (slot a lat : Nat) : List W32 :=
  let d := dataAddr s k a
  let v := counter k n
  [put 1 31 28 ||| put (pc.toNat / 2 ^ 32) 27 24 ||| put (cfgEvent v.cfg) 23 16 ||| put n 15 13 ||| put slot 12 11
     ||| put k.rel 10 6 ||| put k.polder 5 0,
   pc.setWidth 32, BitVec.ofNat 32 d.2,
   put (d.2 / 2 ^ 32) 31 28 ||| put d.1 27 24 ||| put (if a = 0 then 0 else satN 24 lat) 23 0,
   k.cyc.setWidth 32, (k.cyc >>> 32).setWidth 32, 0, 0]

/-- Bytes of the sampling area. -/
def smpSize (k : Core) : Nat := (k.smpLimit.toNat - k.smpBase.toNat) * 4096

/-- Stores a sampling record at a byte of the SLM region, through the DRC dike with the core's stamp (R171). -/
def storeSample (s : State) (c o : Nat) (ws : List W32) : State :=
  let k := core s c
  match curBreach s k.polder (dramCur + slmBase + o) with
  | some (b, q) => coreBreach s c (dramWin + (slmBase + o) / 4) q b true
  | none => jobSlmWrite s k.job o (ws.flatMap (fun (w : W32) => leBytes 4 w.toNat))

/-- Does an interrupt of a context become pending? While UTVEC is 0 the flag alone records it (R159). -/
def userPends (k : Core) : Bool := decide (k.utvec ≠ 0)

/-- Writes a sampling record; at the end of the area nothing is written and the record is counted as lost (R171). -/
def writeSample (s : State) (c : Nat) (ws : List W32) : State :=
  let k := core s c
  if smpSize k = 0 ∨ areaInSet s k k.smpBase.toNat k.smpLimit.toNat = false then s
  else if k.smpFull = true ∨ smpSize k < k.smpNext.toNat + 32 then
    setCore s c { k with smpLost := satInc k.smpLost, smpFull := true, fullPend := k.fullPend || (!k.smpFull && userPends k) }
  else
    let t := storeSample s c (slmFirst (polder s k.polder) + k.smpBase.toNat * 4096 + k.smpNext.toNat) ws
    let full := decide (smpSize k ≤ k.smpNext.toNat + 32)
    setCore t c { k with smpNext := k.smpNext + 32, smpFull := full, fullPend := k.fullPend || (full && userPends k) }

/-- What a wrap of counter `n` does to the flags: a carry into the odd counter of a chain, or the overflow bit and interrupt (R159,
R167). -/
def wrapFlags (k : Core) (n : Nat) (w : Wrap) : Core :=
  let up := (counter k (n + 1)).cfg
  if n % 2 = 0 ∧ cfgChain up = true then
    (if cfgEn up then modCounter k (n + 1) (fun v => bump v 1 w.pc w.slot w.addr w.lat) else k)
  else { k with ovf := k.ovf ||| BitVec.ofNat 8 (2 ^ n), ovfPend := k.ovfPend || (cfgInt (counter k n).cfg && userPends k) }

/-- The wraps of a counter without the oldest. -/
def dropWrap : List Wrap → List Wrap
  | [] => []
  | w :: r => if w.n ≤ 1 then r else { w with n := w.n - 1 } :: r

/-- COUNTER_WRAP (R167, R170): the oldest wrap takes effect; a sampling counter writes its record. -/
def execCounterWrap (c n : Nat) (s : State) : Res :=
  let k := core s c
  .next (if n < 8 then
    match (counter k n).wraps with
    | [] => s
    | w :: _ =>
      let k := wrapFlags (modCounter k n (fun v => { v with wraps := dropWrap v.wraps })) n w
      if cfgSample (counter k n).cfg then writeSample (setCore s c k) c (sampleWords s k n w.pc w.slot w.addr w.lat)
      else setCore s c k
  else s)

/-! ## Interrupts (R159, R160, R434) -/

/-- Enters the user handler for an interrupt: UEPC is the next word. -/
def userInt (s : State) (c cause : Nat) : State :=
  let k := countWord (core s c) [0x12] 0 0 0 0 0
  setCore s c { k with uepc := k.pc, ucause := causeWord k.flags { cause := cause }, utval := 0,
                       pc := k.utvec + BitVec.ofNat 36 cause }

/-- May a core take a user interrupt between two words (R159)? -/
def userIntOk (s : State) (c : Nat) : Bool :=
  let k := core s c
  coreRuns s c && k.user && decide (k.utvec ≠ 0) && !k.ucause.getLsbD 31

/-- COUNTER_OVF (R159). -/
def execCounterOvf (c : Nat) (s : State) : Res :=
  .next (if userIntOk s c && (core s c).ovfPend then userInt (modCore s c (fun k => { k with ovfPend := false })) c 0x0A else s)

/-- SMP_FULL (R159, R171). -/
def execSmpFull (c : Nat) (s : State) : Res :=
  .next (if userIntOk s c && (core s c).fullPend then userInt (modCore s c (fun k => { k with fullPend := false })) c 0x0B else s)

/-- The lowest frame with an interrupt pending for a core (R434). -/
def extFrame (s : State) (c : Nat) : Option Nat :=
  (s.hdrs.find? (fun e => e.2.intEn && e.2.raw &&& e.2.en != 0 && hdrTarget s e.2 == c)).map Prod.fst

/-- EXT_INT (R160, R412, R434): a page interrupt or the watchdog's, on a service core with interrupts enabled and no handler busy. -/
def execExtInt (c : Nat) (s : State) : Res :=
  let k := core s c
  .next (if coreRuns s c && !k.user && k.sstatus == 1 && ((extFrame s c).isSome || k.wdtInt) then
    let k := countWord k [0x12] 0 0 0 0 0
    let info := (extFrame s c).getD (frameOf 0x0F 0 0)
    setCore s c { k with sepc := k.pc, scause := causeWord k.flags { cause := 0x10, info := info }, stval := 0, sstatus := 3,
                         pc := k.stvec + 0x10, wdtInt := false }
  else s)

/-! ## The forced stop (R162, R396) -/

/-- Has a core not reached step 2 of the job end by 2 µs? The model shows STOPPING from the stop request on; the command tells that
the core had not got there (assumption 66). -/
def stopLate (s : State) (c : Nat) : Bool :=
  match (core s c).stopT with
  | some t => (coreNow s c).st == .stopping && decide (t + 2 ≤ s.now) && !(core s c).out
  | none => false

/-- CORE_FORCE_STOP (R162): reported with class 8; the core goes on from step 3 of the job end, and is out of service (R396). -/
def execCoreForceStop (c : Nat) (s : State) : Res :=
  .next (if stopLate s c then modCore (coreOut s c) c scrubCore else s)

end Sys2Proof.Machine
end

