-- ==== Sys2Proof/Machine/Custom.lean ====
section
/-! DEFINITION. Custom instructions: the decode table, the microcode sequencer and its faults (R146, R147, R163-R165). -/

namespace Sys2Proof.Machine

open Sys2Proof

/-- A routine in progress: micro-temporaries, held register writes, flags, the state with what has been issued, counter events, the
last data address. -/
structure Micro where
  u : Tbl W36 := []
  held : List (BitVec 5 × W36) := []
  g : BitVec 4
  s : State
  evs : List Nat := []
  addr : Option Nat := none

/-- The registers that a custom instruction names, and its fn. -/
structure MicroArgs where
  rd : BitVec 5
  ra : BitVec 5
  rb : BitVec 5
  fn : BitVec 13

/-- The register of selectors 4 to 6. -/
def selReg (x : MicroArgs) (sel : Nat) : Option (BitVec 5) :=
  match sel with
  | 4 => some x.rd
  | 5 => some x.ra
  | 6 => some x.rb
  | _ => none

/-- Reads an operand selector; selectors 4 to 6 see the held values (R164). -/
def selGet (c : Nat) (x : MicroArgs) (m : Micro) (sel : Nat) : W36 :=
  if sel < 4 then tget m.u 0 sel
  else if sel = 8 then x.fn.setWidth 36
  else
    match selReg x sel with
    | none => 0
    | some r => if r = 0 then 0 else match m.held.find? (fun e => e.1 == r) with
      | some e => e.2
      | none => rget (core m.s c) r

/-- Writes a selector: a temporary, or a held register; selector 7 and w0 discard it (R164). -/
def selPut (x : MicroArgs) (m : Micro) (sel : Nat) (v : W36) : Micro :=
  if sel < 4 then { m with u := tset m.u 0 sel v }
  else
    match selReg x sel with
    | none => m
    | some r => if r = 0 then m else { m with held := (r, v) :: m.held.filter (fun e => e.1 != r) }

/-- A value-only operation. -/
def opVal (s : State) (r : Option (W36 × BitVec 4)) : OpRes :=
  match r with
  | some (v, g) => .ok (some v) g s [] none
  | none => opIllegal s

/-- A search operation in a routine. -/
def opSearch (r : CoreHit × State) (g : BitVec 4) (keepM : Bool) : OpRes :=
  .ok (some r.1.val) (setTM g r.1.hit (if keepM then flagM g else r.1.multi)) r.2 r.1.evs none

/-- The operations of class 0 microwords by long opcode, on operand values: `d` the old value of the destination, `low` the 18 low
bits of the operation (R127, R163). -/
def opLong (s : State) (c op low : Nat) (d a b : W36) (g : BitVec 4) : OpRes :=
  let imm := BitVec.ofNat 18 low
  let fn := low % 8192
  match op with
  | 0 => opVal s (if fn < 64 then (aluOp fn).map (fun f => f a b g) else none)
  | 1 => opVal s (some (immAddi imm a g))
  | 2 => opVal s (some (immAndi imm a g))
  | 3 => opVal s (some (immOri imm a g))
  | 4 => opVal s (some (immXori imm a g))
  | 5 => opVal s (some (immLui imm a g))
  | 6 => opVal s (if shiOk imm then some (immShi imm a g) else none)
  | 8 => opVal s ((nonetOp (fn % 64) (BitVec.ofNat 7 (fn / 64))).map (fun f => f a b g))
  | 9 => opVal s (if low < 4096 then some (immTcmpi imm a g) else none)
  | 10 => opVal s (clsOp (core s c) fn a g)
  | 11 => if fn < 8 then .ok none g (modCore s c (fun k => clswSet k fn a b)) [] none else opIllegal s
  | 12 =>
    match fn with
    | 0 => opSearch (coreLookup s c a b (fun e => e.result)) g false
    | 1 => opSearch (coreLookup s c a b (fun _ => tagMask)) g false
    | 2 => opSearch (coreNext s c) g true
    | _ => opIllegal s
  | 16 => ldOp s c (low / 32768) (low / 8192 % 4) (BitVec.ofNat 13 fn) a g
  | 17 => stOp s c (low / 32768) (low / 8192 % 4) (BitVec.ofNat 13 fn) a d g
  | 18 => if fn < 2 then stpOp s c a d (fn == 1) g else opIllegal s
  | 19 =>
    match fn with
    | 0 => atomicOp s c a (fun w => add32 w b) g
    | 1 => atomicOp s c a (fun _ => b) g
    | _ => opIllegal s
  | 40 =>
    match fn with
    | 1 => dbrOp s c a b g
    | 4 => .ok none g s [] none
    | _ => opIllegal s
  | _ => opIllegal s

/-- UCODE_FAULT at a microaddress (R165). -/
def ucodeFault (m : Micro) (a : Nat) : Ran := .trap { cause := 9, info := a, evs := m.evs } m.s

/-- How one microword ends: the routine goes on at an address, it is complete, it stops the word, or it waits at a doorbell. -/
inductive MicroEnd where
  | next (m : Micro) (a : Nat)
  | done (m : Micro)
  | stop (r : Ran)
  | wait

/-- The condition of a class 2 microword, bits 33:32, with sel in bits 31:28. -/
def microTaken (c : Nat) (x : MicroArgs) (m : Micro) (w : Nat) : Bool :=
  match w / 2 ^ 32 % 4 with
  | 0 => true
  | 1 => flagT m.g
  | 2 => !flagT m.g
  | _ => selGet c x m (w / 2 ^ 28 % 16) == 0

/-- A class 2 microword: a branch in the routine. -/
def microBr (c : Nat) (x : MicroArgs) (m : Micro) (a : Nat) (w : Nat) : MicroEnd :=
  MicroEnd.next m (if microTaken c x m w then w % 4096 else a + 1)

/-- A class 0 microword. -/
def microOp (c : Nat) (x : MicroArgs) (m : Micro) (a : Nat) (w : Nat) : MicroEnd :=
  let op := w / 2 ^ 26 % 128
  let dsel := w / 2 ^ 22 % 16
  let low := w % 2 ^ 18
  match opLong m.s c op low (selGet c x m dsel) (selGet c x m (w / 2 ^ 18 % 16)) (selGet c x m (low / 2 ^ 14)) m.g with
  | .ok v g s evs addr =>
    let m := { m with s := s, g := g, evs := m.evs ++ evs, addr := addr.orElse (fun _ => m.addr) }
    let m := match v with
      | some y => selPut x m dsel y
      | none => m
    if w / 2 ^ 33 % 2 = 1 then .done m else .next m (a + 1)
  | .trap t s => .stop (.trap { t with info := a, evs := m.evs ++ t.evs } s)
  | .held _ => .wait

/-- One microword at address `a` (R164). -/
def microStep (c : Nat) (x : MicroArgs) (m : Micro) (a : Nat) : MicroEnd :=
  let line := (64 + a) / 8
  if lineBad m.s (64 + c) line then .stop (ucodeFault { m with s := ueRead m.s (64 + c) line 2 (core m.s c).polder } a)
  else
    let w := (tget (core m.s c).cs 0 a).toNat
    let m := { m with evs := m.evs ++ [0x11] }
    match w / 2 ^ 34 with
    | 0 => microOp c x m a w
    | 1 =>
      let m := selPut x m (w / 2 ^ 29 % 16) (BitVec.ofNat 36 (w % 2 ^ 29))
      if w / 2 ^ 33 % 2 = 1 then .done m else .next m (a + 1)
    | 2 => microBr c x m a w
    | _ => .stop (ucodeFault m a)

/-- The routine commits: held registers and flags together; the pc goes on (R164). -/
def microCommit (c : Nat) (m : Micro) : Ran :=
  let k := m.held.foldl (fun k e => rset k e.1 e.2) (core m.s c)
  .ok (setCore m.s c { k with flags := m.g, pc := k.pc + 1 }) ([2, 3, 0x10] ++ m.evs) m.addr

/-- The routine waits at the microword `a`: what it has issued stands, what it holds stays with the core (R164). -/
def microWait (c : Nat) (m : Micro) (a left : Nat) : Ran :=
  .held (modCore m.s c (fun k => { k with
    routine := some { u := m.u, held := m.held, g := m.g, a := a, left := left, evs := m.evs, addr := m.addr } }))

/-- Runs a routine in its window `lo` to `hi` − 1; at most 256 microwords (R165). -/
def microRun (c : Nat) (x : MicroArgs) (lo hi : Nat) : Nat → Micro → Nat → Ran
  | 0, m, a => ucodeFault m a
  | n + 1, m, a =>
    match microStep c x m a with
    | .stop r => r
    | .done m => microCommit c m
    | .wait => microWait c m a (n + 1)
    | .next m b => if lo ≤ b ∧ b < hi then microRun c x lo hi n m b else ucodeFault m a

/-- The decode entry of an index: entry microaddress and length, where it is valid. -/
def decEntry (k : Core) (i : Nat) : Option (Nat × Nat) :=
  let e := (tget k.dec 0 i).toNat
  if e / 2 ^ 35 % 2 = 1 then some (e / 2 ^ 21 % 4096, e / 2 ^ 12 % 512) else none

/-- CUSTOM_INSTRUCTION (R146, R147, R164): illegal without a valid entry and under a version 1 image; a routine that waits at a
doorbell goes on at its microword. -/
def execCustomInstruction (c : Nat) (idx : BitVec 6) (rd ra rb : BitVec 5) (fn : BitVec 13) (s : State) : Res :=
  .next (runWord c s (fun s =>
    let k := core s c
    let m : Micro := { g := k.flags, s := s }
    if k.v1 then illegal s
    else if lineBad s (64 + c) (idx.toNat / 8) then ucodeFault { m with s := ueRead s (64 + c) (idx.toNat / 8) 2 k.polder } 0
    else
      match decEntry k idx.toNat with
      | none => illegal s
      | some (a, n) =>
        let x : MicroArgs := { rd := rd, ra := ra, rb := rb, fn := fn }
        match k.routine with
        | none => microRun c x a (a + n) 256 m a
        | some r => microRun c x a (a + n) r.left { u := r.u, held := r.held, g := r.g, s := s, evs := r.evs, addr := r.addr } r.a))

end Sys2Proof.Machine
end

