-- ==== Sys2Proof/Machine/Dispatch.lean ====
section
/-! DEFINITION. One arm per command: the command's meaning. -/

namespace Sys2Proof.Machine

/-- The effect of a command on everything but the queue of waiting commands. -/
def exec (i : Instr) (s : State) : Host.Outcome State Fault Refusal :=
  match i with
  | .coldPowerOn slotPins => Sys2Proof.Machine.execColdPowerOn slotPins s
  | .mainPowerOn => Sys2Proof.Machine.execMainPowerOn s
  | .mainPowerLoss grans => Sys2Proof.Machine.execMainPowerLoss grans s
  | .auxPowerLoss => Sys2Proof.Machine.execAuxPowerLoss s
  | .boot env => Sys2Proof.Machine.execBoot env s
  | .mramWriteRelease => Sys2Proof.Machine.execMramWriteRelease s
  | .mramReleaseTimeout => Sys2Proof.Machine.execMramReleaseTimeout s
  | .bootTimeout env => Sys2Proof.Machine.execBootTimeout env s
  | .nvmSubsystemReset fn value => Sys2Proof.Machine.execNvmSubsystemReset fn value s
  | .watchdogPeriodEnd => Sys2Proof.Machine.execWatchdogPeriodEnd s
  | .portAConventionalReset => Sys2Proof.Machine.execPortAConventionalReset s
  | .portAPfFlr => Sys2Proof.Machine.execPortAPfFlr s
  | .portBConventionalReset flr => Sys2Proof.Machine.execPortBConventionalReset flr s
  | .vfFlr k => Sys2Proof.Machine.execVfFlr k s
  | .controllerReset fn => Sys2Proof.Machine.execControllerReset fn s
  | .optionPolderReactivation => Sys2Proof.Machine.execOptionPolderReactivation s
  | .powerDisable => Sys2Proof.Machine.execPowerDisable s
  | .powerDisableRelease => Sys2Proof.Machine.execPowerDisableRelease s
  | .brownoutLatch => Sys2Proof.Machine.execBrownoutLatch s
  | .brownoutRecovery => Sys2Proof.Machine.execBrownoutRecovery s
  | .holdupDrainDone grans => Sys2Proof.Machine.execHoldupDrainDone grans s
  | .thermalShutdown sensor => Sys2Proof.Machine.execThermalShutdown sensor s
  | .railFault rail cause => Sys2Proof.Machine.execRailFault rail cause s
  | .clockLoss dom => Sys2Proof.Machine.execClockLoss dom s
  | .linkTraining port speed width flit => Sys2Proof.Machine.execLinkTraining port speed width flit s
  | .vfEnableClear => Sys2Proof.Machine.execVfEnableClear s
  | .numvfsLower n => Sys2Proof.Machine.execNumvfsLower n s
  | .controllerEnable fn cc => Sys2Proof.Machine.execControllerEnable fn cc s
  | .controllerReady fn => Sys2Proof.Machine.execControllerReady fn s
  | .normalShutdown fn => Sys2Proof.Machine.execNormalShutdown fn s
  | .shutdownComplete fn => Sys2Proof.Machine.execShutdownComplete fn s
  | .sqTailDoorbell fn sq tail => Sys2Proof.Machine.execSqTailDoorbell fn sq tail s
  | .createIoSubmissionQueue fn cid qid size cqid => Sys2Proof.Machine.execCreateIoSubmissionQueue fn cid qid size cqid s
  | .deleteIoSubmissionQueue fn cid qid => Sys2Proof.Machine.execDeleteIoSubmissionQueue fn cid qid s
  | .createIoCompletionQueue fn cid qid size vector => Sys2Proof.Machine.execCreateIoCompletionQueue fn cid qid size vector s
  | .deleteIoCompletionQueue fn cid qid => Sys2Proof.Machine.execDeleteIoCompletionQueue fn cid qid s
  | .getLogPage fn cid lid off len rae => Sys2Proof.Machine.execGetLogPage fn cid lid off len rae s
  | .getLogPolderStatus fn cid off len rae => Sys2Proof.Machine.execGetLogPolderStatus fn cid off len rae s
  | .getLogCalibrationExport fn cid off len => Sys2Proof.Machine.execGetLogCalibrationExport fn cid off len s
  | .identify fn cid cns nsid => Sys2Proof.Machine.execIdentify fn cid cns nsid s
  | .abort fn cid sq acid => Sys2Proof.Machine.execAbort fn cid sq acid s
  | .getFeatures fn cid fid sel cdw11 => Sys2Proof.Machine.execGetFeatures fn cid fid sel cdw11 s
  | .setFeatures fn cid fid sv cdw11 cdw12 => Sys2Proof.Machine.execSetFeatures fn cid fid sv cdw11 cdw12 s
  | .setPowerManagement fn cid sv ps => Sys2Proof.Machine.execSetPowerManagement fn cid sv ps s
  | .setApst fn cid sv enable table => Sys2Proof.Machine.execSetApst fn cid sv enable table s
  | .setTimestamp fn cid sv ms => Sys2Proof.Machine.execSetTimestamp fn cid sv ms s
  | .setNumberOfQueues fn cid nsq ncq sv => Sys2Proof.Machine.execSetNumberOfQueues fn cid nsq ncq sv s
  | .setFreezeOnError fn cid sv freeze => Sys2Proof.Machine.execSetFreezeOnError fn cid sv freeze s
  | .queueThaw fn cid sq sv => Sys2Proof.Machine.execQueueThaw fn cid sq sv s
  | .setPowerEnvelope fn cid sv ceiling => Sys2Proof.Machine.execSetPowerEnvelope fn cid sv ceiling s
  | .setPolderEnergyShare fn cid sv polder weight cap => Sys2Proof.Machine.execSetPolderEnergyShare fn cid sv polder weight cap s
  | .setReadAroundPolicy fn cid sv enable threshold => Sys2Proof.Machine.execSetReadAroundPolicy fn cid sv enable threshold s
  | .asynchronousEventRequest fn cid => Sys2Proof.Machine.execAsynchronousEventRequest fn cid s
  | .namespaceCreate fn cid blocks lbaf => Sys2Proof.Machine.execNamespaceCreate fn cid blocks lbaf s
  | .namespaceDelete fn cid nsid => Sys2Proof.Machine.execNamespaceDelete fn cid nsid s
  | .namespaceAttach fn cid nsid cntlid => Sys2Proof.Machine.execNamespaceAttach fn cid nsid cntlid s
  | .namespaceDetach fn cid nsid cntlid => Sys2Proof.Machine.execNamespaceDetach fn cid nsid cntlid s
  | .virtualizationManagement fn cid act cntlid => Sys2Proof.Machine.execVirtualizationManagement fn cid act cntlid s
  | .nvmeMiSend fn cid opcode data => Sys2Proof.Machine.execNvmeMiSend fn cid opcode data s
  | .nvmeMiReceive fn cid opcode len => Sys2Proof.Machine.execNvmeMiReceive fn cid opcode len s
  | .formatNvm fn cid nsid lbaf ses => Sys2Proof.Machine.execFormatNvm fn cid nsid lbaf ses s
  | .deviceSelfTest fn cid code => Sys2Proof.Machine.execDeviceSelfTest fn cid code s
  | .sanitizeBlockErase fn cid => Sys2Proof.Machine.execSanitizeBlockErase fn cid s
  | .sanitizeCryptoErase fn cid => Sys2Proof.Machine.execSanitizeCryptoErase fn cid s
  | .firmwareImageDownload fn cid off data => Sys2Proof.Machine.execFirmwareImageDownload fn cid off data s
  | .firmwareCommitReplace fn cid slot => Sys2Proof.Machine.execFirmwareCommitReplace fn cid slot s
  | .firmwareCommitReplaceActivate fn cid slot => Sys2Proof.Machine.execFirmwareCommitReplaceActivate fn cid slot s
  | .firmwareCommitActivate fn cid slot => Sys2Proof.Machine.execFirmwareCommitActivate fn cid slot s
  | .firmwareActivationWithoutReset fn cid slot => Sys2Proof.Machine.execFirmwareActivationWithoutReset fn cid slot s
  | .fwActivationQuiesced => Sys2Proof.Machine.execFwActivationQuiesced s
  | .fwActivationSelfCheck pass => Sys2Proof.Machine.execFwActivationSelfCheck pass s
  | .securityProtocolList fn cid send secp spsp => Sys2Proof.Machine.execSecurityProtocolList fn cid send secp spsp s
  | .transportKey fn cid nssf => Sys2Proof.Machine.execTransportKey fn cid nssf s
  | .attestationChain fn cid nssf => Sys2Proof.Machine.execAttestationChain fn cid nssf s
  | .slotStatus fn cid nssf => Sys2Proof.Machine.execSlotStatus fn cid nssf s
  | .quoteNonce fn cid nssf data => Sys2Proof.Machine.execQuoteNonce fn cid nssf data s
  | .quote fn cid nssf => Sys2Proof.Machine.execQuote fn cid nssf s
  | .establish fn cid nssf data => Sys2Proof.Machine.execEstablish fn cid nssf data s
  | .loadKey fn cid nssf data => Sys2Proof.Machine.execLoadKey fn cid nssf data s
  | .eraseKey fn cid nssf data => Sys2Proof.Machine.execEraseKey fn cid nssf data s
  | .imageKey fn cid nssf data => Sys2Proof.Machine.execImageKey fn cid nssf data s
  | .eraseAll fn cid nssf data => Sys2Proof.Machine.execEraseAll fn cid nssf data s
  | .flush fn sq cid nsid => Sys2Proof.Machine.execFlush fn sq cid nsid s
  | .write fn sq cid nsid slba blocks pi => Sys2Proof.Machine.execWrite fn sq cid nsid slba blocks pi s
  | .read fn sq cid nsid start count => Sys2Proof.Machine.execRead fn sq cid nsid start count s
  | .writeUncorrectable fn sq cid nsid slba count => Sys2Proof.Machine.execWriteUncorrectable fn sq cid nsid slba count s
  | .compare fn sq cid nsid start blocks => Sys2Proof.Machine.execCompare fn sq cid nsid start blocks s
  | .writeZeroes fn sq cid nsid slba count deac => Sys2Proof.Machine.execWriteZeroes fn sq cid nsid slba count deac s
  | .datasetManagement fn sq cid nsid ranges => Sys2Proof.Machine.execDatasetManagement fn sq cid nsid ranges s
  | .verify fn sq cid nsid start count => Sys2Proof.Machine.execVerify fn sq cid nsid start count s
  | .copy fn sq cid nsid start format ranges => Sys2Proof.Machine.execCopy fn sq cid nsid start format ranges s
  | .ioManagementReceive fn sq cid nsid mo len => Sys2Proof.Machine.execIoManagementReceive fn sq cid nsid mo len s
  | .ioManagementSend fn sq cid nsid mo data => Sys2Proof.Machine.execIoManagementSend fn sq cid nsid mo data s
  | .commandInterrupted fn sq cid => Sys2Proof.Machine.execCommandInterrupted fn sq cid s
  | .stagingAdmit fn sq cid => Sys2Proof.Machine.execStagingAdmit fn sq cid s
  | .programUnitIssue ch die block page planes parity units => Sys2Proof.Machine.execProgramUnitIssue ch die block page planes parity units s
  | .loadProgram fn sq cid engine index off data => Sys2Proof.Machine.execLoadProgram fn sq cid engine index off data s
  | .programUnload fn sq cid engine index => Sys2Proof.Machine.execProgramUnload fn sq cid engine index s
  | .programActivate fn sq cid engine index => Sys2Proof.Machine.execProgramActivate fn sq cid engine index s
  | .programDeactivate fn sq cid engine index => Sys2Proof.Machine.execProgramDeactivate fn sq cid engine index s
  | .executeProgram fn sq cid engine index rset params => Sys2Proof.Machine.execExecuteProgram fn sq cid engine index rset params s
  | .executeProgramDeferred job => Sys2Proof.Machine.execExecuteProgramDeferred job s
  | .jobTimeLimit job => Sys2Proof.Machine.execJobTimeLimit job s
  | .jobOutputsSettled job => Sys2Proof.Machine.execJobOutputsSettled job s
  | .voidBlockZeroed block => Sys2Proof.Machine.execVoidBlockZeroed block s
  | .memoryRangeSetCreate fn sq cid rset ranges => Sys2Proof.Machine.execMemoryRangeSetCreate fn sq cid rset ranges s
  | .memoryRangeSetDelete fn sq cid rset => Sys2Proof.Machine.execMemoryRangeSetDelete fn sq cid rset s
  | .memoryRead fn sq cid off len => Sys2Proof.Machine.execMemoryRead fn sq cid off len s
  | .memoryWrite fn sq cid off data => Sys2Proof.Machine.execMemoryWrite fn sq cid off data s
  | .memoryCopy fn sq cid dst src => Sys2Proof.Machine.execMemoryCopy fn sq cid dst src s
  | .apstIdleTimer => Sys2Proof.Machine.execApstIdleTimer s
  | .powerStateEntry => Sys2Proof.Machine.execPowerStateEntry s
  | .powerStateExit => Sys2Proof.Machine.execPowerStateExit s
  | .dramSegmentInitDone => Sys2Proof.Machine.execDramSegmentInitDone s
  | .provision ini p => Sys2Proof.Machine.execProvision ini p s
  | .activate ini p => Sys2Proof.Machine.execActivate ini p s
  | .quiesce ini p => Sys2Proof.Machine.execQuiesce ini p s
  | .polderDrained p => Sys2Proof.Machine.execPolderDrained p s
  | .teardown ini p => Sys2Proof.Machine.execTeardown ini p s
  | .teardownHaltTimeout p late => Sys2Proof.Machine.execTeardownHaltTimeout p late s
  | .teardownComplete p => Sys2Proof.Machine.execTeardownComplete p s
  | .breachRecordRead ini => Sys2Proof.Machine.execBreachRecordRead ini s
  | .breachRecordPop ini v => Sys2Proof.Machine.execBreachRecordPop ini v s
  | .iAdd c rd ra rb m => Sys2Proof.Machine.execIAdd c rd ra rb m s
  | .iSub c rd ra rb m => Sys2Proof.Machine.execISub c rd ra rb m s
  | .iAddc c rd ra rb m => Sys2Proof.Machine.execIAddc c rd ra rb m s
  | .iSubc c rd ra rb m => Sys2Proof.Machine.execISubc c rd ra rb m s
  | .iAnd c rd ra rb m => Sys2Proof.Machine.execIAnd c rd ra rb m s
  | .iOr c rd ra rb m => Sys2Proof.Machine.execIOr c rd ra rb m s
  | .iXor c rd ra rb m => Sys2Proof.Machine.execIXor c rd ra rb m s
  | .iAndn c rd ra rb m => Sys2Proof.Machine.execIAndn c rd ra rb m s
  | .iSll c rd ra rb m => Sys2Proof.Machine.execISll c rd ra rb m s
  | .iSrl c rd ra rb m => Sys2Proof.Machine.execISrl c rd ra rb m s
  | .iSra c rd ra rb m => Sys2Proof.Machine.execISra c rd ra rb m s
  | .iRot c rd ra rb m => Sys2Proof.Machine.execIRot c rd ra rb m s
  | .iSlt c rd ra rb m => Sys2Proof.Machine.execISlt c rd ra rb m s
  | .iSltu c rd ra rb m => Sys2Proof.Machine.execISltu c rd ra rb m s
  | .iMinu c rd ra rb m => Sys2Proof.Machine.execIMinu c rd ra rb m s
  | .iMaxu c rd ra rb m => Sys2Proof.Machine.execIMaxu c rd ra rb m s
  | .iMul c rd ra rb m => Sys2Proof.Machine.execIMul c rd ra rb m s
  | .iMulhu c rd ra rb m => Sys2Proof.Machine.execIMulhu c rd ra rb m s
  | .iMulh c rd ra rb m => Sys2Proof.Machine.execIMulh c rd ra rb m s
  | .iAddh c rd ra rb m => Sys2Proof.Machine.execIAddh c rd ra rb m s
  | .iSubh c rd ra rb m => Sys2Proof.Machine.execISubh c rd ra rb m s
  | .iAddhs c rd ra rb m => Sys2Proof.Machine.execIAddhs c rd ra rb m s
  | .iClz c rd ra rb m => Sys2Proof.Machine.execIClz c rd ra rb m s
  | .iPopc c rd ra rb m => Sys2Proof.Machine.execIPopc c rd ra rb m s
  | .iAddi c rd ra imm => Sys2Proof.Machine.execIAddi c rd ra imm s
  | .iAndi c rd ra imm => Sys2Proof.Machine.execIAndi c rd ra imm s
  | .iOri c rd ra imm => Sys2Proof.Machine.execIOri c rd ra imm s
  | .iXori c rd ra imm => Sys2Proof.Machine.execIXori c rd ra imm s
  | .iLui c rd ra imm => Sys2Proof.Machine.execILui c rd ra imm s
  | .iShi c rd ra imm => Sys2Proof.Machine.execIShi c rd ra imm s
  | .iTcmpi c rd ra imm => Sys2Proof.Machine.execITcmpi c rd ra imm s
  | .iTcmp c rd ra rb m => Sys2Proof.Machine.execITcmp c rd ra rb m s
  | .iTset c rd ra rb m => Sys2Proof.Machine.execITset c rd ra rb m s
  | .iTand c rd ra rb m => Sys2Proof.Machine.execITand c rd ra rb m s
  | .iTor c rd ra rb m => Sys2Proof.Machine.execITor c rd ra rb m s
  | .iTxor c rd ra rb m => Sys2Proof.Machine.execITxor c rd ra rb m s
  | .iTandn c rd ra rb m => Sys2Proof.Machine.execITandn c rd ra rb m s
  | .iTget c rd ra rb m => Sys2Proof.Machine.execITget c rd ra rb m s
  | .iTput c rd ra rb m => Sys2Proof.Machine.execITput c rd ra rb m s
  | .iTcnta c rd ra rb m => Sys2Proof.Machine.execITcnta c rd ra rb m s
  | .iTfirst c rd ra rb m => Sys2Proof.Machine.execITfirst c rd ra rb m s
  | .iTsprd c rd ra rb m => Sys2Proof.Machine.execITsprd c rd ra rb m s
  | .iNext c rd ra rb m => Sys2Proof.Machine.execINext c rd ra rb m s
  | .iNins c rd ra rb m => Sys2Proof.Machine.execINins c rd ra rb m s
  | .iNrot c rd ra rb m => Sys2Proof.Machine.execINrot c rd ra rb m s
  | .iNaln c rd ra rb m => Sys2Proof.Machine.execINaln c rd ra rb m s
  | .iPackt c rd ra rb m => Sys2Proof.Machine.execIPackt c rd ra rb m s
  | .iNbcast c rd ra rb m => Sys2Proof.Machine.execINbcast c rd ra rb m s
  | .iCls c rd ra rb fn => Sys2Proof.Machine.execICls c rd ra rb fn s
  | .iClsw c rd ra rb fn => Sys2Proof.Machine.execIClsw c rd ra rb fn s
  | .iLd c rd ra mode lane off => Sys2Proof.Machine.execILd c rd ra mode lane off s
  | .iSt c rd ra mode lane off => Sys2Proof.Machine.execISt c rd ra mode lane off s
  | .iStp c rd ra rb fn => Sys2Proof.Machine.execIStp c rd ra rb fn s
  | .iAadd c rd ra rb => Sys2Proof.Machine.execIAadd c rd ra rb s
  | .iAswp c rd ra rb => Sys2Proof.Machine.execIAswp c rd ra rb s
  | .iRsl c rd ra rb => Sys2Proof.Machine.execIRsl c rd ra rb s
  | .iRslt c rd ra rb => Sys2Proof.Machine.execIRslt c rd ra rb s
  | .iRsn c rd ra rb => Sys2Proof.Machine.execIRsn c rd ra rb s
  | .iBeq c ra rb off => Sys2Proof.Machine.execIBeq c ra rb off s
  | .iBne c ra rb off => Sys2Proof.Machine.execIBne c ra rb off s
  | .iBlt c ra rb off => Sys2Proof.Machine.execIBlt c ra rb off s
  | .iBge c ra rb off => Sys2Proof.Machine.execIBge c ra rb off s
  | .iBltu c ra rb off => Sys2Proof.Machine.execIBltu c ra rb off s
  | .iBgeu c ra rb off => Sys2Proof.Machine.execIBgeu c ra rb off s
  | .iBf c ra rb off => Sys2Proof.Machine.execIBf c ra rb off s
  | .iJal c rd off => Sys2Proof.Machine.execIJal c rd off s
  | .iJalr c rd ra imm => Sys2Proof.Machine.execIJalr c rd ra imm s
  | .iDbr c rd ra rb m => Sys2Proof.Machine.execIDbr c rd ra rb m s
  | .iWfe c rd ra rb m => Sys2Proof.Machine.execIWfe c rd ra rb m s
  | .wfeTimeout c => Sys2Proof.Machine.execWfeTimeout c s
  | .iSig c rd ra rb m => Sys2Proof.Machine.execISig c rd ra rb m s
  | .iFence c rd ra rb m => Sys2Proof.Machine.execIFence c rd ra rb m s
  | .iMfs c rd ra rb m => Sys2Proof.Machine.execIMfs c rd ra rb m s
  | .iMff c rd ra rb m => Sys2Proof.Machine.execIMff c rd ra rb m s
  | .iMtf c rd ra rb m => Sys2Proof.Machine.execIMtf c rd ra rb m s
  | .iRdc c rd ra rb m => Sys2Proof.Machine.execIRdc c rd ra rb m s
  | .iEnd c rd ra rb m => Sys2Proof.Machine.execIEnd c rd ra rb m s
  | .iTrap c rd ra rb m => Sys2Proof.Machine.execITrap c rd ra rb m s
  | .iMfc c rd ra rb fn => Sys2Proof.Machine.execIMfc c rd ra rb fn s
  | .iMtc c rd ra rb fn => Sys2Proof.Machine.execIMtc c rd ra rb fn s
  | .iEret c rd ra rb fn => Sys2Proof.Machine.execIEret c rd ra rb fn s
  | .iHalt c rd ra rb fn => Sys2Proof.Machine.execIHalt c rd ra rb fn s
  | .customInstruction c idx rd ra rb fn => Sys2Proof.Machine.execCustomInstruction c idx rd ra rb fn s
  | .pairedWord c rsvd a b => Sys2Proof.Machine.execPairedWord c rsvd a b s
  | .counterWrap c n => Sys2Proof.Machine.execCounterWrap c n s
  | .counterOvf c => Sys2Proof.Machine.execCounterOvf c s
  | .smpFull c => Sys2Proof.Machine.execSmpFull c s
  | .extInt c => Sys2Proof.Machine.execExtInt c s
  | .coreForceStop c => Sys2Proof.Machine.execCoreForceStop c s
  | .coreHalt ini c => Sys2Proof.Machine.execCoreHalt ini c s
  | .coreRestart ini c => Sys2Proof.Machine.execCoreRestart ini c s
  | .controlStoreRead ini c => Sys2Proof.Machine.execControlStoreRead ini c s
  | .counterPageWrite ini c off v => Sys2Proof.Machine.execCounterPageWrite ini c off v s
  | .samplingAreaWrite ini c limit v => Sys2Proof.Machine.execSamplingAreaWrite ini c limit v s
  | .cycleCounterRead ini c off => Sys2Proof.Machine.execCycleCounterRead ini c off s
  | .ringDoorbell ini r prod => Sys2Proof.Machine.execRingDoorbell ini r prod s
  | .descriptorDispatch r => Sys2Proof.Machine.execDescriptorDispatch r s
  | .engineCompletion r idx agree => Sys2Proof.Machine.execEngineCompletion r idx agree s
  | .heldCompletionWrite ini r ccons => Sys2Proof.Machine.execHeldCompletionWrite ini r ccons s
  | .ringCancel ini r v => Sys2Proof.Machine.execRingCancel ini r v s
  | .cancelAtBoundary r idx => Sys2Proof.Machine.execCancelAtBoundary r idx s
  | .ringRestart ini r v => Sys2Proof.Machine.execRingRestart ini r v s
  | .ringRelease ini r => Sys2Proof.Machine.execRingRelease ini r s
  | .alloc r idx => Sys2Proof.Machine.execAlloc r idx s
  | .hold r idx => Sys2Proof.Machine.execHold r idx s
  | .release r idx => Sys2Proof.Machine.execRelease r idx s
  | .bufferWaitTimeout r idx => Sys2Proof.Machine.execBufferWaitTimeout r idx s
  | .bufferFreeDone pool index => Sys2Proof.Machine.execBufferFreeDone pool index s
  | .toSlm r idx => Sys2Proof.Machine.execToSlm r idx s
  | .fromSlm r idx => Sys2Proof.Machine.execFromSlm r idx s
  | .extentRead r idx => Sys2Proof.Machine.execExtentRead r idx s
  | .bufferAudit ini v => Sys2Proof.Machine.execBufferAudit ini v s
  | .gcmEnc r start => Sys2Proof.Machine.execGcmEnc r start s
  | .gcmDec r start => Sys2Proof.Machine.execGcmDec r start s
  | .keyErase r idx => Sys2Proof.Machine.execKeyErase r idx s
  | .ctxRelease r idx => Sys2Proof.Machine.execCtxRelease r idx s
  | .digest r idx => Sys2Proof.Machine.execDigest r idx s
  | .extend r idx => Sys2Proof.Machine.execExtend r idx s
  | .measRead r idx => Sys2Proof.Machine.execMeasRead r idx s
  | .digestCtxRelease r idx => Sys2Proof.Machine.execDigestCtxRelease r idx s
  | .entropyHealthWindow ok => Sys2Proof.Machine.execEntropyHealthWindow ok s
  | .voltageGlitch => Sys2Proof.Machine.execVoltageGlitch s
  | .clockGlitch => Sys2Proof.Machine.execClockGlitch s
  | .temperature => Sys2Proof.Machine.execTemperature s
  | .slotIntegrity store slot => Sys2Proof.Machine.execSlotIntegrity store slot s
  | .alarmMediaReady => Sys2Proof.Machine.execAlarmMediaReady s
  | .alarmRingReady => Sys2Proof.Machine.execAlarmRingReady s
  | .drbgReseed => Sys2Proof.Machine.execDrbgReseed s
  | .mediaKeyNew ini ns => Sys2Proof.Machine.execMediaKeyNew ini ns s
  | .mediaKeyReload ini => Sys2Proof.Machine.execMediaKeyReload ini s
  | .measSelect ini v => Sys2Proof.Machine.execMeasSelect ini v s
  | .measDataRead ini => Sys2Proof.Machine.execMeasDataRead ini s
  | .ciphRngStatRead ini => Sys2Proof.Machine.execCiphRngStatRead ini s
  | .compress r idx => Sys2Proof.Machine.execCompress r idx s
  | .deflateBlockEnd inst => Sys2Proof.Machine.execDeflateBlockEnd inst s
  | .decompress r idx => Sys2Proof.Machine.execDecompress r idx s
  | .cmprCtxRelease r idx => Sys2Proof.Machine.execCmprCtxRelease r idx s
  | .cmprErrRead ini e => Sys2Proof.Machine.execCmprErrRead ini e s
  | .lookup r idx => Sys2Proof.Machine.execLookup r idx s
  | .searchWrite r idx => Sys2Proof.Machine.execSearchWrite r idx s
  | .invalidate r idx => Sys2Proof.Machine.execInvalidate r idx s
  | .searchRead r idx => Sys2Proof.Machine.execSearchRead r idx s
  | .step r idx => Sys2Proof.Machine.execStep r idx s
  | .shift r idx => Sys2Proof.Machine.execShift r idx s
  | .maskRecomputeDone row => Sys2Proof.Machine.execMaskRecomputeDone row s
  | .searchEntrySnapshot ini v => Sys2Proof.Machine.execSearchEntrySnapshot ini v s
  | .descriptorPushWord ini ch q w => Sys2Proof.Machine.execDescriptorPushWord ini ch q w s
  | .readPage ch q k => Sys2Proof.Machine.execReadPage ch q k s
  | .readCache ch q k => Sys2Proof.Machine.execReadCache ch q k s
  | .readRetry ch q k => Sys2Proof.Machine.execReadRetry ch q k s
  | .program ch q k => Sys2Proof.Machine.execProgram ch q k s
  | .erase ch q k => Sys2Proof.Machine.execErase ch q k s
  | .suspend ch q k => Sys2Proof.Machine.execSuspend ch q k s
  | .resume ch q k => Sys2Proof.Machine.execResume ch q k s
  | .resetDie ch q k => Sys2Proof.Machine.execResetDie ch q k s
  | .getFeature ch q k => Sys2Proof.Machine.execGetFeature ch q k s
  | .setFeature ch q k => Sys2Proof.Machine.execSetFeature ch q k s
  | .readStatus ch q k => Sys2Proof.Machine.execReadStatus ch q k s
  | .dieCommandEnd ch die out => Sys2Proof.Machine.execDieCommandEnd ch die out s
  | .softDecodeDone ch tag gran ok set => Sys2Proof.Machine.execSoftDecodeDone ch tag gran ok set s
  | .flcCompletionWrite ini ch cons => Sys2Proof.Machine.execFlcCompletionWrite ini ch cons s
  | .flcCancel ini ch v => Sys2Proof.Machine.execFlcCancel ini ch v s
  | .flcEnable ini ch v => Sys2Proof.Machine.execFlcEnable ini ch v s
  | .blockStateSelect ini ch v => Sys2Proof.Machine.execBlockStateSelect ini ch v s
  | .blockStateRestore ini ch v => Sys2Proof.Machine.execBlockStateRestore ini ch v s
  | .autoSuspend ch die => Sys2Proof.Machine.execAutoSuspend ch die s
  | .autoResume ch die => Sys2Proof.Machine.execAutoResume ch die s
  | .dieRetrain ch die drift => Sys2Proof.Machine.execDieRetrain ch die drift s
  | .dieTimeout ch die => Sys2Proof.Machine.execDieTimeout ch die s
  | .flcEccSoftRead ini ch => Sys2Proof.Machine.execFlcEccSoftRead ini ch s
  | .flcEccUncRead ini ch => Sys2Proof.Machine.execFlcEccUncRead ini ch s
  | .readAround fn sq cid lba => Sys2Proof.Machine.execReadAround fn sq cid lba s
  | .mapWriteBack pages => Sys2Proof.Machine.execMapWriteBack pages s
  | .qWindowReadback sb page bad => Sys2Proof.Machine.execQWindowReadback sb page bad s
  | .ftlaReady grans => Sys2Proof.Machine.execFtlaReady grans s
  | .mapGet => Sys2Proof.Machine.execMapGet s
  | .mapSet => Sys2Proof.Machine.execMapSet s
  | .mapMove => Sys2Proof.Machine.execMapMove s
  | .trim => Sys2Proof.Machine.execTrim s
  | .pageOut loc => Sys2Proof.Machine.execPageOut loc s
  | .record => Sys2Proof.Machine.execRecord s
  | .rebuild => Sys2Proof.Machine.execRebuild s
  | .sbSet => Sys2Proof.Machine.execSbSet s
  | .ftlaCompletionWrite ini v => Sys2Proof.Machine.execFtlaCompletionWrite ini v s
  | .ftlaLaMissRead ini => Sys2Proof.Machine.execFtlaLaMissRead ini s
  | .ftlaMcMissRead ini => Sys2Proof.Machine.execFtlaMcMissRead ini s
  | .ftlaRaCntRead ini => Sys2Proof.Machine.execFtlaRaCntRead ini s
  | .dramRetrainPause ch rd wr => Sys2Proof.Machine.execDramRetrainPause ch rd wr s
  | .dramRepairPause ch row => Sys2Proof.Machine.execDramRepairPause ch row s
  | .orderSwitch ini v => Sys2Proof.Machine.execOrderSwitch ini v s
  | .scrub inst line found => Sys2Proof.Machine.execScrub inst line found s
  | .lineRemap inst line => Sys2Proof.Machine.execLineRemap inst line s
  | .dramDeviceFailed dev => Sys2Proof.Machine.execDramDeviceFailed dev s
  | .checkBitTestArm ini v => Sys2Proof.Machine.execCheckBitTestArm ini v s
  | .memiSelect ini v => Sys2Proof.Machine.execMemiSelect ini v s
  | .ueRecordRead ini => Sys2Proof.Machine.execUeRecordRead ini s
  | .drcFwdRead ini => Sys2Proof.Machine.execDrcFwdRead ini s
  | .nrgSample rails => Sys2Proof.Machine.execNrgSample rails s
  | .epochBoundary temps => Sys2Proof.Machine.execEpochBoundary temps s
  | .envelopeGuardWindow => Sys2Proof.Machine.execEnvelopeGuardWindow s
  | .energyDeferred r idx => Sys2Proof.Machine.execEnergyDeferred r idx s
  | .embankmentMeasurement => Sys2Proof.Machine.execEmbankmentMeasurement s
  | .embankmentMeasurementEnd stepMv fallUs => Sys2Proof.Machine.execEmbankmentMeasurementEnd stepMv fallUs s
  | .bankCharged => Sys2Proof.Machine.execBankCharged s
  | .safetyDrain grans => Sys2Proof.Machine.execSafetyDrain grans s
  | .drainRelease => Sys2Proof.Machine.execDrainRelease s
  | .calendarTick => Sys2Proof.Machine.execCalendarTick s
  | .calendarSave => Sys2Proof.Machine.execCalendarSave s
  | .powerOnSecond => Sys2Proof.Machine.execPowerOnSecond s
  | .calendarShadowRead ini => Sys2Proof.Machine.execCalendarShadowRead ini s
  | .powerOnSecondsRead ini => Sys2Proof.Machine.execPowerOnSecondsRead ini s
  | .energyDeliveredRead ini => Sys2Proof.Machine.execEnergyDeliveredRead ini s
  | .epochRead ini => Sys2Proof.Machine.execEpochRead ini s
  | .calibrationCommit ini v => Sys2Proof.Machine.execCalibrationCommit ini v s
  | .optionCommit ini v => Sys2Proof.Machine.execOptionCommit ini v s
  | .faultReport blk inst cls tinst cause action => Sys2Proof.Machine.execFaultReport blk inst cls tinst cause action s
  | .faultWindowEnd => Sys2Proof.Machine.execFaultWindowEnd s
  | .tagRelease cls tinst => Sys2Proof.Machine.execTagRelease cls tinst s
  | .fltAbsRead ini => Sys2Proof.Machine.execFltAbsRead ini s
  | .entdaa addr won tie => Sys2Proof.Machine.execEntdaa addr won tie s
  | .setdasa legacy addr => Sys2Proof.Machine.execSetdasa legacy addr s
  | .rstdaa => Sys2Proof.Machine.execRstdaa s
  | .enec => Sys2Proof.Machine.execEnec s
  | .disec => Sys2Proof.Machine.execDisec s
  | .getpid => Sys2Proof.Machine.execGetpid s
  | .getbcr => Sys2Proof.Machine.execGetbcr s
  | .getdcr => Sys2Proof.Machine.execGetdcr s
  | .getstatus => Sys2Proof.Machine.execGetstatus s
  | .getmwl => Sys2Proof.Machine.execGetmwl s
  | .setmwl n => Sys2Proof.Machine.execSetmwl n s
  | .getmrl => Sys2Proof.Machine.execGetmrl s
  | .setmrl n => Sys2Proof.Machine.execSetmrl n s
  | .unsupportedCcc addressed => Sys2Proof.Machine.execUnsupportedCcc addressed s
  | .i2cFruRead addr len => Sys2Proof.Machine.execI2cFruRead addr len s
  | .i2cFruOffsetWrite addr off => Sys2Proof.Machine.execI2cFruOffsetWrite addr off s
  | .mctpPacket pkt => Sys2Proof.Machine.execMctpPacket pkt s
  | .setEndpointId eid => Sys2Proof.Machine.execSetEndpointId eid s
  | .getEndpointId => Sys2Proof.Machine.execGetEndpointId s
  | .getEndpointUuid => Sys2Proof.Machine.execGetEndpointUuid s
  | .getMctpVersionSupport => Sys2Proof.Machine.execGetMctpVersionSupport s
  | .getMessageTypeSupport => Sys2Proof.Machine.execGetMessageTypeSupport s
  | .readNvmeMiDataStructure slot dtype ctrl => Sys2Proof.Machine.execReadNvmeMiDataStructure slot dtype ctrl s
  | .nvmSubsystemHealthStatusPoll slot => Sys2Proof.Machine.execNvmSubsystemHealthStatusPoll slot s
  | .controllerHealthStatusPoll slot ctrl => Sys2Proof.Machine.execControllerHealthStatusPoll slot ctrl s
  | .configurationGet slot item => Sys2Proof.Machine.execConfigurationGet slot item s
  | .configurationSet slot item value => Sys2Proof.Machine.execConfigurationSet slot item value s
  | .vpdRead slot off len => Sys2Proof.Machine.execVpdRead slot off len s
  | .adminTunnel slot ctrl cmd => Sys2Proof.Machine.execAdminTunnel slot ctrl cmd s
  | .miResponseReady slot => Sys2Proof.Machine.execMiResponseReady slot s
  | .sbdStatRead ini => Sys2Proof.Machine.execSbdStatRead ini s
  | .keyWrite ini frame v => Sys2Proof.Machine.execKeyWrite ini frame v s
  | .keyWindowEnd frame => Sys2Proof.Machine.execKeyWindowEnd frame s
  | .registerWrite ini off width v => Sys2Proof.Machine.execRegisterWrite ini off width v s
  | .bridgeTimeout ini off write => Sys2Proof.Machine.execBridgeTimeout ini off write s
  | .errorRecordRead ini frame => Sys2Proof.Machine.execErrorRecordRead ini frame s
  | .bar2Request off write dwords => Sys2Proof.Machine.execBar2Request off write dwords s
  | .pmonClear ini => Sys2Proof.Machine.execPmonClear ini s
  | .pmonCounterRead ini n => Sys2Proof.Machine.execPmonCounterRead ini n s
  | .cqHeadDoorbell fn cq head => Sys2Proof.Machine.execCqHeadDoorbell fn cq head s
  | .vfEnableSet numVfs => Sys2Proof.Machine.execVfEnableSet numVfs s

end Sys2Proof.Machine
end

