-- ==== Sys2Proof/Laws/Encoding.lean ====
section
/-! SUPPORT. Decoding gives back what encoding wrote, command by command. -/

namespace Sys2Proof.Laws

open Sys2Proof

/-! encR -/

theorem encR_bit (op : BitVec 7) (rd ra rb : BitVec 5) (fn : BitVec 13) (i : Nat) :
    (encR op rd ra rb fn).getLsbD i = BitVec.getLsbD (w := 1 + 7 + 5 + 5 + 5 + 13) (0#1 ++ op ++ rd ++ ra ++ rb ++ fn) i := rfl

@[simp] theorem encR_35 (op : BitVec 7) (rd ra rb : BitVec 5) (fn : BitVec 13) : (encR op rd ra rb fn).getLsbD 35 = false := by
  rw [encR_bit]; simp only [BitVec.getLsbD_append]; simp

@[simp] theorem encR_fldOp (op : BitVec 7) (rd ra rb : BitVec 5) (fn : BitVec 13) : fldOp (encR op rd ra rb fn) = op := by
  ext i hi
  rw [fldOp, BitVec.getElem_extractLsb', encR_bit]
  simp only [BitVec.getLsbD_append]
  rw [← BitVec.getLsbD_eq_getElem]
  repeat' split
  all_goals first | omega | (congr 1; omega)

@[simp] theorem encR_fldRd (op : BitVec 7) (rd ra rb : BitVec 5) (fn : BitVec 13) : fldRd (encR op rd ra rb fn) = rd := by
  ext i hi
  rw [fldRd, BitVec.getElem_extractLsb', encR_bit]
  simp only [BitVec.getLsbD_append]
  rw [← BitVec.getLsbD_eq_getElem]
  repeat' split
  all_goals first | omega | (congr 1; omega)

@[simp] theorem encR_fldRa (op : BitVec 7) (rd ra rb : BitVec 5) (fn : BitVec 13) : fldRa (encR op rd ra rb fn) = ra := by
  ext i hi
  rw [fldRa, BitVec.getElem_extractLsb', encR_bit]
  simp only [BitVec.getLsbD_append]
  rw [← BitVec.getLsbD_eq_getElem]
  repeat' split
  all_goals first | omega | (congr 1; omega)

@[simp] theorem encR_fldRb (op : BitVec 7) (rd ra rb : BitVec 5) (fn : BitVec 13) : fldRb (encR op rd ra rb fn) = rb := by
  ext i hi
  rw [fldRb, BitVec.getElem_extractLsb', encR_bit]
  simp only [BitVec.getLsbD_append]
  rw [← BitVec.getLsbD_eq_getElem]
  repeat' split
  all_goals first | omega | (congr 1; omega)

@[simp] theorem encR_fldFn (op : BitVec 7) (rd ra rb : BitVec 5) (fn : BitVec 13) : fldFn (encR op rd ra rb fn) = fn := by
  ext i hi
  rw [fldFn, BitVec.getElem_extractLsb', encR_bit]
  simp only [BitVec.getLsbD_append]
  rw [← BitVec.getLsbD_eq_getElem]
  repeat' split
  all_goals first | omega | (congr 1; omega)

/-! encF -/

theorem encF_bit (op : BitVec 7) (rd ra rb : BitVec 5) (m : BitVec 7) (f : BitVec 6) (i : Nat) :
    (encF op rd ra rb m f).getLsbD i = BitVec.getLsbD (w := 1 + 7 + 5 + 5 + 5 + 7 + 6) (0#1 ++ op ++ rd ++ ra ++ rb ++ m ++ f) i := rfl

@[simp] theorem encF_35 (op : BitVec 7) (rd ra rb : BitVec 5) (m : BitVec 7) (f : BitVec 6) : (encF op rd ra rb m f).getLsbD 35 = false := by
  rw [encF_bit]; simp only [BitVec.getLsbD_append]; simp

@[simp] theorem encF_fldOp (op : BitVec 7) (rd ra rb : BitVec 5) (m : BitVec 7) (f : BitVec 6) : fldOp (encF op rd ra rb m f) = op := by
  ext i hi
  rw [fldOp, BitVec.getElem_extractLsb', encF_bit]
  simp only [BitVec.getLsbD_append]
  rw [← BitVec.getLsbD_eq_getElem]
  repeat' split
  all_goals first | omega | (congr 1; omega)

@[simp] theorem encF_fldRd (op : BitVec 7) (rd ra rb : BitVec 5) (m : BitVec 7) (f : BitVec 6) : fldRd (encF op rd ra rb m f) = rd := by
  ext i hi
  rw [fldRd, BitVec.getElem_extractLsb', encF_bit]
  simp only [BitVec.getLsbD_append]
  rw [← BitVec.getLsbD_eq_getElem]
  repeat' split
  all_goals first | omega | (congr 1; omega)

@[simp] theorem encF_fldRa (op : BitVec 7) (rd ra rb : BitVec 5) (m : BitVec 7) (f : BitVec 6) : fldRa (encF op rd ra rb m f) = ra := by
  ext i hi
  rw [fldRa, BitVec.getElem_extractLsb', encF_bit]
  simp only [BitVec.getLsbD_append]
  rw [← BitVec.getLsbD_eq_getElem]
  repeat' split
  all_goals first | omega | (congr 1; omega)

@[simp] theorem encF_fldRb (op : BitVec 7) (rd ra rb : BitVec 5) (m : BitVec 7) (f : BitVec 6) : fldRb (encF op rd ra rb m f) = rb := by
  ext i hi
  rw [fldRb, BitVec.getElem_extractLsb', encF_bit]
  simp only [BitVec.getLsbD_append]
  rw [← BitVec.getLsbD_eq_getElem]
  repeat' split
  all_goals first | omega | (congr 1; omega)

@[simp] theorem encF_fldMod (op : BitVec 7) (rd ra rb : BitVec 5) (m : BitVec 7) (f : BitVec 6) : fldMod (encF op rd ra rb m f) = m := by
  ext i hi
  rw [fldMod, BitVec.getElem_extractLsb', encF_bit]
  simp only [BitVec.getLsbD_append]
  rw [← BitVec.getLsbD_eq_getElem]
  repeat' split
  all_goals first | omega | (congr 1; omega)

@[simp] theorem encF_fldSel (op : BitVec 7) (rd ra rb : BitVec 5) (m : BitVec 7) (f : BitVec 6) : fldSel (encF op rd ra rb m f) = f := by
  ext i hi
  rw [fldSel, BitVec.getElem_extractLsb', encF_bit]
  simp only [BitVec.getLsbD_append]
  rw [← BitVec.getLsbD_eq_getElem]
  repeat' split
  all_goals first | omega | (congr 1; omega)

/-! encI -/

theorem encI_bit (op : BitVec 7) (rd ra : BitVec 5) (imm : BitVec 18) (i : Nat) :
    (encI op rd ra imm).getLsbD i = BitVec.getLsbD (w := 1 + 7 + 5 + 5 + 18) (0#1 ++ op ++ rd ++ ra ++ imm) i := rfl

@[simp] theorem encI_35 (op : BitVec 7) (rd ra : BitVec 5) (imm : BitVec 18) : (encI op rd ra imm).getLsbD 35 = false := by
  rw [encI_bit]; simp only [BitVec.getLsbD_append]; simp

@[simp] theorem encI_fldOp (op : BitVec 7) (rd ra : BitVec 5) (imm : BitVec 18) : fldOp (encI op rd ra imm) = op := by
  ext i hi
  rw [fldOp, BitVec.getElem_extractLsb', encI_bit]
  simp only [BitVec.getLsbD_append]
  rw [← BitVec.getLsbD_eq_getElem]
  repeat' split
  all_goals first | omega | (congr 1; omega)

@[simp] theorem encI_fldRd (op : BitVec 7) (rd ra : BitVec 5) (imm : BitVec 18) : fldRd (encI op rd ra imm) = rd := by
  ext i hi
  rw [fldRd, BitVec.getElem_extractLsb', encI_bit]
  simp only [BitVec.getLsbD_append]
  rw [← BitVec.getLsbD_eq_getElem]
  repeat' split
  all_goals first | omega | (congr 1; omega)

@[simp] theorem encI_fldRa (op : BitVec 7) (rd ra : BitVec 5) (imm : BitVec 18) : fldRa (encI op rd ra imm) = ra := by
  ext i hi
  rw [fldRa, BitVec.getElem_extractLsb', encI_bit]
  simp only [BitVec.getLsbD_append]
  rw [← BitVec.getLsbD_eq_getElem]
  repeat' split
  all_goals first | omega | (congr 1; omega)

@[simp] theorem encI_fldImm (op : BitVec 7) (rd ra : BitVec 5) (imm : BitVec 18) : fldImm (encI op rd ra imm) = imm := by
  ext i hi
  rw [fldImm, BitVec.getElem_extractLsb', encI_bit]
  simp only [BitVec.getLsbD_append]
  rw [← BitVec.getLsbD_eq_getElem]
  repeat' split
  all_goals first | omega | (congr 1; omega)

/-! encM -/

theorem encM_bit (op : BitVec 7) (rd ra : BitVec 5) (mode : BitVec 3) (lane : BitVec 2) (off : BitVec 13) (i : Nat) :
    (encM op rd ra mode lane off).getLsbD i = BitVec.getLsbD (w := 1 + 7 + 5 + 5 + 3 + 2 + 13) (0#1 ++ op ++ rd ++ ra ++ mode ++ lane ++ off) i := rfl

@[simp] theorem encM_35 (op : BitVec 7) (rd ra : BitVec 5) (mode : BitVec 3) (lane : BitVec 2) (off : BitVec 13) : (encM op rd ra mode lane off).getLsbD 35 = false := by
  rw [encM_bit]; simp only [BitVec.getLsbD_append]; simp

@[simp] theorem encM_fldOp (op : BitVec 7) (rd ra : BitVec 5) (mode : BitVec 3) (lane : BitVec 2) (off : BitVec 13) : fldOp (encM op rd ra mode lane off) = op := by
  ext i hi
  rw [fldOp, BitVec.getElem_extractLsb', encM_bit]
  simp only [BitVec.getLsbD_append]
  rw [← BitVec.getLsbD_eq_getElem]
  repeat' split
  all_goals first | omega | (congr 1; omega)

@[simp] theorem encM_fldRd (op : BitVec 7) (rd ra : BitVec 5) (mode : BitVec 3) (lane : BitVec 2) (off : BitVec 13) : fldRd (encM op rd ra mode lane off) = rd := by
  ext i hi
  rw [fldRd, BitVec.getElem_extractLsb', encM_bit]
  simp only [BitVec.getLsbD_append]
  rw [← BitVec.getLsbD_eq_getElem]
  repeat' split
  all_goals first | omega | (congr 1; omega)

@[simp] theorem encM_fldRa (op : BitVec 7) (rd ra : BitVec 5) (mode : BitVec 3) (lane : BitVec 2) (off : BitVec 13) : fldRa (encM op rd ra mode lane off) = ra := by
  ext i hi
  rw [fldRa, BitVec.getElem_extractLsb', encM_bit]
  simp only [BitVec.getLsbD_append]
  rw [← BitVec.getLsbD_eq_getElem]
  repeat' split
  all_goals first | omega | (congr 1; omega)

@[simp] theorem encM_fldFn (op : BitVec 7) (rd ra : BitVec 5) (mode : BitVec 3) (lane : BitVec 2) (off : BitVec 13) : fldFn (encM op rd ra mode lane off) = off := by
  ext i hi
  rw [fldFn, BitVec.getElem_extractLsb', encM_bit]
  simp only [BitVec.getLsbD_append]
  rw [← BitVec.getLsbD_eq_getElem]
  repeat' split
  all_goals first | omega | (congr 1; omega)

@[simp] theorem encM_x15_3 (op : BitVec 7) (rd ra : BitVec 5) (mode : BitVec 3) (lane : BitVec 2) (off : BitVec 13) : (encM op rd ra mode lane off).extractLsb' 15 3 = mode := by
  ext i hi
  rw [BitVec.getElem_extractLsb', encM_bit]
  simp only [BitVec.getLsbD_append]
  rw [← BitVec.getLsbD_eq_getElem]
  repeat' split
  all_goals first | omega | (congr 1; omega)

@[simp] theorem encM_x13_2 (op : BitVec 7) (rd ra : BitVec 5) (mode : BitVec 3) (lane : BitVec 2) (off : BitVec 13) : (encM op rd ra mode lane off).extractLsb' 13 2 = lane := by
  ext i hi
  rw [BitVec.getElem_extractLsb', encM_bit]
  simp only [BitVec.getLsbD_append]
  rw [← BitVec.getLsbD_eq_getElem]
  repeat' split
  all_goals first | omega | (congr 1; omega)

/-! encJ -/

theorem encJ_bit (op : BitVec 7) (rd : BitVec 5) (off : BitVec 23) (i : Nat) :
    (encJ op rd off).getLsbD i = BitVec.getLsbD (w := 1 + 7 + 5 + 23) (0#1 ++ op ++ rd ++ off) i := rfl

@[simp] theorem encJ_35 (op : BitVec 7) (rd : BitVec 5) (off : BitVec 23) : (encJ op rd off).getLsbD 35 = false := by
  rw [encJ_bit]; simp only [BitVec.getLsbD_append]; simp

@[simp] theorem encJ_fldOp (op : BitVec 7) (rd : BitVec 5) (off : BitVec 23) : fldOp (encJ op rd off) = op := by
  ext i hi
  rw [fldOp, BitVec.getElem_extractLsb', encJ_bit]
  simp only [BitVec.getLsbD_append]
  rw [← BitVec.getLsbD_eq_getElem]
  repeat' split
  all_goals first | omega | (congr 1; omega)

@[simp] theorem encJ_fldRd (op : BitVec 7) (rd : BitVec 5) (off : BitVec 23) : fldRd (encJ op rd off) = rd := by
  ext i hi
  rw [fldRd, BitVec.getElem_extractLsb', encJ_bit]
  simp only [BitVec.getLsbD_append]
  rw [← BitVec.getLsbD_eq_getElem]
  repeat' split
  all_goals first | omega | (congr 1; omega)

@[simp] theorem encJ_fldOff (op : BitVec 7) (rd : BitVec 5) (off : BitVec 23) : fldOff (encJ op rd off) = off := by
  ext i hi
  rw [fldOff, BitVec.getElem_extractLsb', encJ_bit]
  simp only [BitVec.getLsbD_append]
  rw [← BitVec.getLsbD_eq_getElem]
  repeat' split
  all_goals first | omega | (congr 1; omega)

/-! encC -/

theorem encC_bit (idx : BitVec 6) (rd ra rb : BitVec 5) (fn : BitVec 13) (i : Nat) :
    (encC idx rd ra rb fn).getLsbD i = BitVec.getLsbD (w := 1 + 1 + 6 + 5 + 5 + 5 + 13) (0#1 ++ 1#1 ++ idx ++ rd ++ ra ++ rb ++ fn) i := rfl

@[simp] theorem encC_35 (idx : BitVec 6) (rd ra rb : BitVec 5) (fn : BitVec 13) : (encC idx rd ra rb fn).getLsbD 35 = false := by
  rw [encC_bit]; simp only [BitVec.getLsbD_append]; simp

@[simp] theorem encC_fldOp (idx : BitVec 6) (rd ra rb : BitVec 5) (fn : BitVec 13) : (fldOp (encC idx rd ra rb fn)).toNat = 64 + idx.toNat := by
  have h : fldOp (encC idx rd ra rb fn) = 1#1 ++ idx := by
    ext i hi
    rw [fldOp, BitVec.getElem_extractLsb', encC_bit]
    simp only [BitVec.getLsbD_append]
    rw [← BitVec.getLsbD_eq_getElem]
    rw [show (1#1 ++ idx : BitVec 7).getLsbD i = BitVec.getLsbD (w := 1 + 6) (1#1 ++ idx) i from rfl, BitVec.getLsbD_append]
    repeat' split
    all_goals first | omega | (congr 1; omega)
  rw [h]
  exact (by decide : ∀ x : BitVec 6, (1#1 ++ x : BitVec 7).toNat = 64 + x.toNat) idx

@[simp] theorem encC_fldRd (idx : BitVec 6) (rd ra rb : BitVec 5) (fn : BitVec 13) : fldRd (encC idx rd ra rb fn) = rd := by
  ext i hi
  rw [fldRd, BitVec.getElem_extractLsb', encC_bit]
  simp only [BitVec.getLsbD_append]
  rw [← BitVec.getLsbD_eq_getElem]
  repeat' split
  all_goals first | omega | (congr 1; omega)

@[simp] theorem encC_fldRa (idx : BitVec 6) (rd ra rb : BitVec 5) (fn : BitVec 13) : fldRa (encC idx rd ra rb fn) = ra := by
  ext i hi
  rw [fldRa, BitVec.getElem_extractLsb', encC_bit]
  simp only [BitVec.getLsbD_append]
  rw [← BitVec.getLsbD_eq_getElem]
  repeat' split
  all_goals first | omega | (congr 1; omega)

@[simp] theorem encC_fldRb (idx : BitVec 6) (rd ra rb : BitVec 5) (fn : BitVec 13) : fldRb (encC idx rd ra rb fn) = rb := by
  ext i hi
  rw [fldRb, BitVec.getElem_extractLsb', encC_bit]
  simp only [BitVec.getLsbD_append]
  rw [← BitVec.getLsbD_eq_getElem]
  repeat' split
  all_goals first | omega | (congr 1; omega)

@[simp] theorem encC_fldFn (idx : BitVec 6) (rd ra rb : BitVec 5) (fn : BitVec 13) : fldFn (encC idx rd ra rb fn) = fn := by
  ext i hi
  rw [fldFn, BitVec.getElem_extractLsb', encC_bit]
  simp only [BitVec.getLsbD_append]
  rw [← BitVec.getLsbD_eq_getElem]
  repeat' split
  all_goals first | omega | (congr 1; omega)

@[simp] theorem encC_x28_6 (idx : BitVec 6) (rd ra rb : BitVec 5) (fn : BitVec 13) : (encC idx rd ra rb fn).extractLsb' 28 6 = idx := by
  ext i hi
  rw [BitVec.getElem_extractLsb', encC_bit]
  simp only [BitVec.getLsbD_append]
  rw [← BitVec.getLsbD_eq_getElem]
  repeat' split
  all_goals first | omega | (congr 1; omega)

/-! encP -/

theorem encP_bit (r : Bool) (a b : BitVec 17) (i : Nat) :
    (encP r a b).getLsbD i = BitVec.getLsbD (w := 1 + 1 + 17 + 17) (1#1 ++ BitVec.ofBool r ++ a ++ b) i := rfl

@[simp] theorem encP_35 (r : Bool) (a b : BitVec 17) : (encP r a b).getLsbD 35 = true := by
  rw [encP_bit]; simp only [BitVec.getLsbD_append]; simp

@[simp] theorem encP_34 (r : Bool) (a b : BitVec 17) : (encP r a b).getLsbD 34 = r := by
  rw [encP_bit]; simp only [BitVec.getLsbD_append]; simp

@[simp] theorem encP_x17_17 (r : Bool) (a b : BitVec 17) : (encP r a b).extractLsb' 17 17 = a := by
  ext i hi
  rw [BitVec.getElem_extractLsb', encP_bit]
  simp only [BitVec.getLsbD_append]
  rw [← BitVec.getLsbD_eq_getElem]
  repeat' split
  all_goals first | omega | (congr 1; omega)

@[simp] theorem encP_x0_17 (r : Bool) (a b : BitVec 17) : (encP r a b).extractLsb' 0 17 = b := by
  ext i hi
  rw [BitVec.getElem_extractLsb', encP_bit]
  simp only [BitVec.getLsbD_append]
  rw [← BitVec.getLsbD_eq_getElem]
  repeat' split
  all_goals first | omega | (congr 1; omega)

end Sys2Proof.Laws
end

