-- ==== Sys2Proof/Laws/PerInstr.lean ====
section
/-! SUPPORT. The family Encoding: for each command, decoding the word that it encodes to gives the command back (R125-R134, R140,
R146, R156). A command that is no instruction word encodes to none. -/

namespace Sys2Proof.Laws.Encoding

open Sys2Proof Sys2Proof.Laws

/-- What the family says of a command. -/
def Statement (i : Instr) : Prop := ∀ e, encode i = some e → decodeWord e.1 e.2 = some i

theorem coldPowerOn (slotPins : BitVec 3) : Statement (.coldPowerOn slotPins) := by
  intro e h; cases h

theorem mainPowerOn : Statement .mainPowerOn := by
  intro e h; cases h

theorem mainPowerLoss (grans : List Nat) : Statement (.mainPowerLoss grans) := by
  intro e h; cases h

theorem auxPowerLoss : Statement .auxPowerLoss := by
  intro e h; cases h

theorem boot (env : BootEnv) : Statement (.boot env) := by
  intro e h; cases h

theorem mramWriteRelease : Statement .mramWriteRelease := by
  intro e h; cases h

theorem mramReleaseTimeout : Statement .mramReleaseTimeout := by
  intro e h; cases h

theorem bootTimeout (env : BootEnv) : Statement (.bootTimeout env) := by
  intro e h; cases h

theorem nvmSubsystemReset (fn : Nat) (value : W32) : Statement (.nvmSubsystemReset fn value) := by
  intro e h; cases h

theorem watchdogPeriodEnd : Statement .watchdogPeriodEnd := by
  intro e h; cases h

theorem portAConventionalReset : Statement .portAConventionalReset := by
  intro e h; cases h

theorem portAPfFlr : Statement .portAPfFlr := by
  intro e h; cases h

theorem portBConventionalReset (flr : Bool) : Statement (.portBConventionalReset flr) := by
  intro e h; cases h

theorem vfFlr (k : Nat) : Statement (.vfFlr k) := by
  intro e h; cases h

theorem controllerReset (fn : Nat) : Statement (.controllerReset fn) := by
  intro e h; cases h

theorem optionPolderReactivation : Statement .optionPolderReactivation := by
  intro e h; cases h

theorem powerDisable : Statement .powerDisable := by
  intro e h; cases h

theorem powerDisableRelease : Statement .powerDisableRelease := by
  intro e h; cases h

theorem brownoutLatch : Statement .brownoutLatch := by
  intro e h; cases h

theorem brownoutRecovery : Statement .brownoutRecovery := by
  intro e h; cases h

theorem holdupDrainDone (grans : List Nat) : Statement (.holdupDrainDone grans) := by
  intro e h; cases h

theorem thermalShutdown (sensor : Nat) : Statement (.thermalShutdown sensor) := by
  intro e h; cases h

theorem railFault (rail cause : Nat) : Statement (.railFault rail cause) := by
  intro e h; cases h

theorem clockLoss (dom : Nat) : Statement (.clockLoss dom) := by
  intro e h; cases h

theorem linkTraining (port speed width : Nat) (flit : Bool) : Statement (.linkTraining port speed width flit) := by
  intro e h; cases h

theorem vfEnableClear : Statement .vfEnableClear := by
  intro e h; cases h

theorem numvfsLower (n : Nat) : Statement (.numvfsLower n) := by
  intro e h; cases h

theorem controllerEnable (fn : Nat) (cc : W32) : Statement (.controllerEnable fn cc) := by
  intro e h; cases h

theorem controllerReady (fn : Nat) : Statement (.controllerReady fn) := by
  intro e h; cases h

theorem normalShutdown (fn : Nat) : Statement (.normalShutdown fn) := by
  intro e h; cases h

theorem shutdownComplete (fn : Nat) : Statement (.shutdownComplete fn) := by
  intro e h; cases h

theorem sqTailDoorbell (fn sq tail : Nat) : Statement (.sqTailDoorbell fn sq tail) := by
  intro e h; cases h

theorem createIoSubmissionQueue (fn cid qid size cqid : Nat) : Statement (.createIoSubmissionQueue fn cid qid size cqid) := by
  intro e h; cases h

theorem deleteIoSubmissionQueue (fn cid qid : Nat) : Statement (.deleteIoSubmissionQueue fn cid qid) := by
  intro e h; cases h

theorem createIoCompletionQueue (fn cid qid size vector : Nat) : Statement (.createIoCompletionQueue fn cid qid size vector) := by
  intro e h; cases h

theorem deleteIoCompletionQueue (fn cid qid : Nat) : Statement (.deleteIoCompletionQueue fn cid qid) := by
  intro e h; cases h

theorem getLogPage (fn cid lid off len : Nat) (rae : Bool) : Statement (.getLogPage fn cid lid off len rae) := by
  intro e h; cases h

theorem getLogPolderStatus (fn cid off len : Nat) (rae : Bool) : Statement (.getLogPolderStatus fn cid off len rae) := by
  intro e h; cases h

theorem getLogCalibrationExport (fn cid off len : Nat) : Statement (.getLogCalibrationExport fn cid off len) := by
  intro e h; cases h

theorem identify (fn cid cns nsid : Nat) : Statement (.identify fn cid cns nsid) := by
  intro e h; cases h

theorem abort (fn cid sq acid : Nat) : Statement (.abort fn cid sq acid) := by
  intro e h; cases h

theorem getFeatures (fn cid fid sel : Nat) (cdw11 : W32) : Statement (.getFeatures fn cid fid sel cdw11) := by
  intro e h; cases h

theorem setFeatures (fn cid fid : Nat) (sv : Bool) (cdw11 cdw12 : W32) : Statement (.setFeatures fn cid fid sv cdw11 cdw12) := by
  intro e h; cases h

theorem setPowerManagement (fn cid : Nat) (sv : Bool) (ps : Nat) : Statement (.setPowerManagement fn cid sv ps) := by
  intro e h; cases h

theorem setApst (fn cid : Nat) (sv enable : Bool) (table : List (Nat × Nat)) : Statement (.setApst fn cid sv enable table) := by
  intro e h; cases h

theorem setTimestamp (fn cid : Nat) (sv : Bool) (ms : Nat) : Statement (.setTimestamp fn cid sv ms) := by
  intro e h; cases h

theorem setNumberOfQueues (fn cid nsq ncq : Nat) (sv : Bool) : Statement (.setNumberOfQueues fn cid nsq ncq sv) := by
  intro e h; cases h

theorem setFreezeOnError (fn cid : Nat) (sv freeze : Bool) : Statement (.setFreezeOnError fn cid sv freeze) := by
  intro e h; cases h

theorem queueThaw (fn cid sq : Nat) (sv : Bool) : Statement (.queueThaw fn cid sq sv) := by
  intro e h; cases h

theorem setPowerEnvelope (fn cid : Nat) (sv : Bool) (ceiling : BitVec 2) : Statement (.setPowerEnvelope fn cid sv ceiling) := by
  intro e h; cases h

theorem setPolderEnergyShare (fn cid : Nat) (sv : Bool) (polder weight cap : Nat) : Statement (.setPolderEnergyShare fn cid sv polder weight cap) := by
  intro e h; cases h

theorem setReadAroundPolicy (fn cid : Nat) (sv enable : Bool) (threshold : Nat) : Statement (.setReadAroundPolicy fn cid sv enable threshold) := by
  intro e h; cases h

theorem asynchronousEventRequest (fn cid : Nat) : Statement (.asynchronousEventRequest fn cid) := by
  intro e h; cases h

theorem namespaceCreate (fn cid blocks lbaf : Nat) : Statement (.namespaceCreate fn cid blocks lbaf) := by
  intro e h; cases h

theorem namespaceDelete (fn cid nsid : Nat) : Statement (.namespaceDelete fn cid nsid) := by
  intro e h; cases h

theorem namespaceAttach (fn cid nsid cntlid : Nat) : Statement (.namespaceAttach fn cid nsid cntlid) := by
  intro e h; cases h

theorem namespaceDetach (fn cid nsid cntlid : Nat) : Statement (.namespaceDetach fn cid nsid cntlid) := by
  intro e h; cases h

theorem virtualizationManagement (fn cid : Nat) (act : VirtAct) (cntlid : Nat) : Statement (.virtualizationManagement fn cid act cntlid) := by
  intro e h; cases h

theorem nvmeMiSend (fn cid : Nat) (opcode : Nat) (data : Bytes) : Statement (.nvmeMiSend fn cid opcode data) := by
  intro e h; cases h

theorem nvmeMiReceive (fn cid : Nat) (opcode len : Nat) : Statement (.nvmeMiReceive fn cid opcode len) := by
  intro e h; cases h

theorem formatNvm (fn cid nsid lbaf ses : Nat) : Statement (.formatNvm fn cid nsid lbaf ses) := by
  intro e h; cases h

theorem deviceSelfTest (fn cid : Nat) (code : Nat) : Statement (.deviceSelfTest fn cid code) := by
  intro e h; cases h

theorem sanitizeBlockErase (fn cid : Nat) : Statement (.sanitizeBlockErase fn cid) := by
  intro e h; cases h

theorem sanitizeCryptoErase (fn cid : Nat) : Statement (.sanitizeCryptoErase fn cid) := by
  intro e h; cases h

theorem firmwareImageDownload (fn cid off : Nat) (data : Bytes) : Statement (.firmwareImageDownload fn cid off data) := by
  intro e h; cases h

theorem firmwareCommitReplace (fn cid slot : Nat) : Statement (.firmwareCommitReplace fn cid slot) := by
  intro e h; cases h

theorem firmwareCommitReplaceActivate (fn cid slot : Nat) : Statement (.firmwareCommitReplaceActivate fn cid slot) := by
  intro e h; cases h

theorem firmwareCommitActivate (fn cid slot : Nat) : Statement (.firmwareCommitActivate fn cid slot) := by
  intro e h; cases h

theorem firmwareActivationWithoutReset (fn cid slot : Nat) : Statement (.firmwareActivationWithoutReset fn cid slot) := by
  intro e h; cases h

theorem fwActivationQuiesced : Statement .fwActivationQuiesced := by
  intro e h; cases h

theorem fwActivationSelfCheck (pass : Bool) : Statement (.fwActivationSelfCheck pass) := by
  intro e h; cases h

theorem securityProtocolList (fn cid : Nat) (send : Bool) (secp spsp : Nat) : Statement (.securityProtocolList fn cid send secp spsp) := by
  intro e h; cases h

theorem transportKey (fn cid nssf : Nat) : Statement (.transportKey fn cid nssf) := by
  intro e h; cases h

theorem attestationChain (fn cid nssf : Nat) : Statement (.attestationChain fn cid nssf) := by
  intro e h; cases h

theorem slotStatus (fn cid nssf : Nat) : Statement (.slotStatus fn cid nssf) := by
  intro e h; cases h

theorem quoteNonce (fn cid nssf : Nat) (data : Bytes) : Statement (.quoteNonce fn cid nssf data) := by
  intro e h; cases h

theorem quote (fn cid nssf : Nat) : Statement (.quote fn cid nssf) := by
  intro e h; cases h

theorem establish (fn cid nssf : Nat) (data : Bytes) : Statement (.establish fn cid nssf data) := by
  intro e h; cases h

theorem loadKey (fn cid nssf : Nat) (data : Bytes) : Statement (.loadKey fn cid nssf data) := by
  intro e h; cases h

theorem eraseKey (fn cid nssf : Nat) (data : Bytes) : Statement (.eraseKey fn cid nssf data) := by
  intro e h; cases h

theorem imageKey (fn cid nssf : Nat) (data : Bytes) : Statement (.imageKey fn cid nssf data) := by
  intro e h; cases h

theorem eraseAll (fn cid nssf : Nat) (data : Bytes) : Statement (.eraseAll fn cid nssf data) := by
  intro e h; cases h

theorem flush (fn sq cid nsid : Nat) : Statement (.flush fn sq cid nsid) := by
  intro e h; cases h

theorem write (fn sq cid nsid slba : Nat) (blocks : List Bytes) (pi : PiChk) : Statement (.write fn sq cid nsid slba blocks pi) := by
  intro e h; cases h

theorem read (fn sq cid nsid : Nat) (start : FromLba) (count : Nat) : Statement (.read fn sq cid nsid start count) := by
  intro e h; cases h

theorem writeUncorrectable (fn sq cid nsid slba count : Nat) : Statement (.writeUncorrectable fn sq cid nsid slba count) := by
  intro e h; cases h

theorem compare (fn sq cid nsid : Nat) (start : FromLba) (blocks : List Bytes) : Statement (.compare fn sq cid nsid start blocks) := by
  intro e h; cases h

theorem writeZeroes (fn sq cid nsid slba count : Nat) (deac : Bool) : Statement (.writeZeroes fn sq cid nsid slba count deac) := by
  intro e h; cases h

theorem datasetManagement (fn sq cid nsid : Nat) (ranges : List (Nat × Nat)) : Statement (.datasetManagement fn sq cid nsid ranges) := by
  intro e h; cases h

theorem verify (fn sq cid nsid : Nat) (start : FromLba) (count : Nat) : Statement (.verify fn sq cid nsid start count) := by
  intro e h; cases h

theorem copy (fn sq cid nsid : Nat) (start : FromLba) (format : Nat) (ranges : List (Nat × Nat × Nat)) : Statement (.copy fn sq cid nsid start format ranges) := by
  intro e h; cases h

theorem ioManagementReceive (fn sq cid nsid mo len : Nat) : Statement (.ioManagementReceive fn sq cid nsid mo len) := by
  intro e h; cases h

theorem ioManagementSend (fn sq cid nsid mo : Nat) (data : Bytes) : Statement (.ioManagementSend fn sq cid nsid mo data) := by
  intro e h; cases h

theorem commandInterrupted (fn sq cid : Nat) : Statement (.commandInterrupted fn sq cid) := by
  intro e h; cases h

theorem stagingAdmit (fn sq cid : Nat) : Statement (.stagingAdmit fn sq cid) := by
  intro e h; cases h

theorem programUnitIssue (ch die block page : Nat) (planes : BitVec 4) (parity : Bool) (units : List (Nat × Nat)) : Statement (.programUnitIssue ch die block page planes parity units) := by
  intro e h; cases h

theorem loadProgram (fn sq cid engine index off : Nat) (data : Bytes) : Statement (.loadProgram fn sq cid engine index off data) := by
  intro e h; cases h

theorem programUnload (fn sq cid engine index : Nat) : Statement (.programUnload fn sq cid engine index) := by
  intro e h; cases h

theorem programActivate (fn sq cid engine index : Nat) : Statement (.programActivate fn sq cid engine index) := by
  intro e h; cases h

theorem programDeactivate (fn sq cid engine index : Nat) : Statement (.programDeactivate fn sq cid engine index) := by
  intro e h; cases h

theorem executeProgram (fn sq cid engine index rset : Nat) (params : Bytes) : Statement (.executeProgram fn sq cid engine index rset params) := by
  intro e h; cases h

theorem executeProgramDeferred (job : Nat) : Statement (.executeProgramDeferred job) := by
  intro e h; cases h

theorem jobTimeLimit (job : Nat) : Statement (.jobTimeLimit job) := by
  intro e h; cases h

theorem jobOutputsSettled (job : Nat) : Statement (.jobOutputsSettled job) := by
  intro e h; cases h

theorem voidBlockZeroed (block : Nat) : Statement (.voidBlockZeroed block) := by
  intro e h; cases h

theorem memoryRangeSetCreate (fn sq cid rset : Nat) (ranges : List (Nat × Nat)) : Statement (.memoryRangeSetCreate fn sq cid rset ranges) := by
  intro e h; cases h

theorem memoryRangeSetDelete (fn sq cid rset : Nat) : Statement (.memoryRangeSetDelete fn sq cid rset) := by
  intro e h; cases h

theorem memoryRead (fn sq cid off len : Nat) : Statement (.memoryRead fn sq cid off len) := by
  intro e h; cases h

theorem memoryWrite (fn sq cid off : Nat) (data : Bytes) : Statement (.memoryWrite fn sq cid off data) := by
  intro e h; cases h

theorem memoryCopy (fn sq cid dst : Nat) (src : CopySrc) : Statement (.memoryCopy fn sq cid dst src) := by
  intro e h; cases h

theorem apstIdleTimer : Statement .apstIdleTimer := by
  intro e h; cases h

theorem powerStateEntry : Statement .powerStateEntry := by
  intro e h; cases h

theorem powerStateExit : Statement .powerStateExit := by
  intro e h; cases h

theorem dramSegmentInitDone : Statement .dramSegmentInitDone := by
  intro e h; cases h

theorem provision (ini : Ini) (p : Nat) : Statement (.provision ini p) := by
  intro e h; cases h

theorem activate (ini : Ini) (p : Nat) : Statement (.activate ini p) := by
  intro e h; cases h

theorem quiesce (ini : Ini) (p : Nat) : Statement (.quiesce ini p) := by
  intro e h; cases h

theorem polderDrained (p : Nat) : Statement (.polderDrained p) := by
  intro e h; cases h

theorem teardown (ini : Ini) (p : Nat) : Statement (.teardown ini p) := by
  intro e h; cases h

theorem teardownHaltTimeout (p : Nat) (late : LateUnit) : Statement (.teardownHaltTimeout p late) := by
  intro e h; cases h

theorem teardownComplete (p : Nat) : Statement (.teardownComplete p) := by
  intro e h; cases h

theorem breachRecordRead (ini : Ini) : Statement (.breachRecordRead ini) := by
  intro e h; cases h

theorem breachRecordPop (ini : Ini) (v : W32) : Statement (.breachRecordPop ini v) := by
  intro e h; cases h

theorem iAdd (c : Nat) (rd ra rb : BitVec 5) (m : BitVec 7) : Statement (.iAdd c rd ra rb m) := by
  intro e h; cases h
  rw [decodeWord, encF_35, if_neg Bool.false_ne_true, decodeLong]
  simp only [encF_fldOp]
  simp [aluInstr]

theorem iSub (c : Nat) (rd ra rb : BitVec 5) (m : BitVec 7) : Statement (.iSub c rd ra rb m) := by
  intro e h; cases h
  rw [decodeWord, encF_35, if_neg Bool.false_ne_true, decodeLong]
  simp only [encF_fldOp]
  simp [aluInstr]

theorem iAddc (c : Nat) (rd ra rb : BitVec 5) (m : BitVec 7) : Statement (.iAddc c rd ra rb m) := by
  intro e h; cases h
  rw [decodeWord, encF_35, if_neg Bool.false_ne_true, decodeLong]
  simp only [encF_fldOp]
  simp [aluInstr]

theorem iSubc (c : Nat) (rd ra rb : BitVec 5) (m : BitVec 7) : Statement (.iSubc c rd ra rb m) := by
  intro e h; cases h
  rw [decodeWord, encF_35, if_neg Bool.false_ne_true, decodeLong]
  simp only [encF_fldOp]
  simp [aluInstr]

theorem iAnd (c : Nat) (rd ra rb : BitVec 5) (m : BitVec 7) : Statement (.iAnd c rd ra rb m) := by
  intro e h; cases h
  rw [decodeWord, encF_35, if_neg Bool.false_ne_true, decodeLong]
  simp only [encF_fldOp]
  simp [aluInstr]

theorem iOr (c : Nat) (rd ra rb : BitVec 5) (m : BitVec 7) : Statement (.iOr c rd ra rb m) := by
  intro e h; cases h
  rw [decodeWord, encF_35, if_neg Bool.false_ne_true, decodeLong]
  simp only [encF_fldOp]
  simp [aluInstr]

theorem iXor (c : Nat) (rd ra rb : BitVec 5) (m : BitVec 7) : Statement (.iXor c rd ra rb m) := by
  intro e h; cases h
  rw [decodeWord, encF_35, if_neg Bool.false_ne_true, decodeLong]
  simp only [encF_fldOp]
  simp [aluInstr]

theorem iAndn (c : Nat) (rd ra rb : BitVec 5) (m : BitVec 7) : Statement (.iAndn c rd ra rb m) := by
  intro e h; cases h
  rw [decodeWord, encF_35, if_neg Bool.false_ne_true, decodeLong]
  simp only [encF_fldOp]
  simp [aluInstr]

theorem iSll (c : Nat) (rd ra rb : BitVec 5) (m : BitVec 7) : Statement (.iSll c rd ra rb m) := by
  intro e h; cases h
  rw [decodeWord, encF_35, if_neg Bool.false_ne_true, decodeLong]
  simp only [encF_fldOp]
  simp [aluInstr]

theorem iSrl (c : Nat) (rd ra rb : BitVec 5) (m : BitVec 7) : Statement (.iSrl c rd ra rb m) := by
  intro e h; cases h
  rw [decodeWord, encF_35, if_neg Bool.false_ne_true, decodeLong]
  simp only [encF_fldOp]
  simp [aluInstr]

theorem iSra (c : Nat) (rd ra rb : BitVec 5) (m : BitVec 7) : Statement (.iSra c rd ra rb m) := by
  intro e h; cases h
  rw [decodeWord, encF_35, if_neg Bool.false_ne_true, decodeLong]
  simp only [encF_fldOp]
  simp [aluInstr]

theorem iRot (c : Nat) (rd ra rb : BitVec 5) (m : BitVec 7) : Statement (.iRot c rd ra rb m) := by
  intro e h; cases h
  rw [decodeWord, encF_35, if_neg Bool.false_ne_true, decodeLong]
  simp only [encF_fldOp]
  simp [aluInstr]

theorem iSlt (c : Nat) (rd ra rb : BitVec 5) (m : BitVec 7) : Statement (.iSlt c rd ra rb m) := by
  intro e h; cases h
  rw [decodeWord, encF_35, if_neg Bool.false_ne_true, decodeLong]
  simp only [encF_fldOp]
  simp [aluInstr]

theorem iSltu (c : Nat) (rd ra rb : BitVec 5) (m : BitVec 7) : Statement (.iSltu c rd ra rb m) := by
  intro e h; cases h
  rw [decodeWord, encF_35, if_neg Bool.false_ne_true, decodeLong]
  simp only [encF_fldOp]
  simp [aluInstr]

theorem iMinu (c : Nat) (rd ra rb : BitVec 5) (m : BitVec 7) : Statement (.iMinu c rd ra rb m) := by
  intro e h; cases h
  rw [decodeWord, encF_35, if_neg Bool.false_ne_true, decodeLong]
  simp only [encF_fldOp]
  simp [aluInstr]

theorem iMaxu (c : Nat) (rd ra rb : BitVec 5) (m : BitVec 7) : Statement (.iMaxu c rd ra rb m) := by
  intro e h; cases h
  rw [decodeWord, encF_35, if_neg Bool.false_ne_true, decodeLong]
  simp only [encF_fldOp]
  simp [aluInstr]

theorem iMul (c : Nat) (rd ra rb : BitVec 5) (m : BitVec 7) : Statement (.iMul c rd ra rb m) := by
  intro e h; cases h
  rw [decodeWord, encF_35, if_neg Bool.false_ne_true, decodeLong]
  simp only [encF_fldOp]
  simp [aluInstr]

theorem iMulhu (c : Nat) (rd ra rb : BitVec 5) (m : BitVec 7) : Statement (.iMulhu c rd ra rb m) := by
  intro e h; cases h
  rw [decodeWord, encF_35, if_neg Bool.false_ne_true, decodeLong]
  simp only [encF_fldOp]
  simp [aluInstr]

theorem iMulh (c : Nat) (rd ra rb : BitVec 5) (m : BitVec 7) : Statement (.iMulh c rd ra rb m) := by
  intro e h; cases h
  rw [decodeWord, encF_35, if_neg Bool.false_ne_true, decodeLong]
  simp only [encF_fldOp]
  simp [aluInstr]

theorem iAddh (c : Nat) (rd ra rb : BitVec 5) (m : BitVec 7) : Statement (.iAddh c rd ra rb m) := by
  intro e h; cases h
  rw [decodeWord, encF_35, if_neg Bool.false_ne_true, decodeLong]
  simp only [encF_fldOp]
  simp [aluInstr]

theorem iSubh (c : Nat) (rd ra rb : BitVec 5) (m : BitVec 7) : Statement (.iSubh c rd ra rb m) := by
  intro e h; cases h
  rw [decodeWord, encF_35, if_neg Bool.false_ne_true, decodeLong]
  simp only [encF_fldOp]
  simp [aluInstr]

theorem iAddhs (c : Nat) (rd ra rb : BitVec 5) (m : BitVec 7) : Statement (.iAddhs c rd ra rb m) := by
  intro e h; cases h
  rw [decodeWord, encF_35, if_neg Bool.false_ne_true, decodeLong]
  simp only [encF_fldOp]
  simp [aluInstr]

theorem iClz (c : Nat) (rd ra rb : BitVec 5) (m : BitVec 7) : Statement (.iClz c rd ra rb m) := by
  intro e h; cases h
  rw [decodeWord, encF_35, if_neg Bool.false_ne_true, decodeLong]
  simp only [encF_fldOp]
  simp [aluInstr]

theorem iPopc (c : Nat) (rd ra rb : BitVec 5) (m : BitVec 7) : Statement (.iPopc c rd ra rb m) := by
  intro e h; cases h
  rw [decodeWord, encF_35, if_neg Bool.false_ne_true, decodeLong]
  simp only [encF_fldOp]
  simp [aluInstr]

theorem iAddi (c : Nat) (rd ra : BitVec 5) (imm : BitVec 18) : Statement (.iAddi c rd ra imm) := by
  intro e h; cases h
  rw [decodeWord, encI_35, if_neg Bool.false_ne_true, decodeLong]
  simp only [encI_fldOp]
  simp

theorem iAndi (c : Nat) (rd ra : BitVec 5) (imm : BitVec 18) : Statement (.iAndi c rd ra imm) := by
  intro e h; cases h
  rw [decodeWord, encI_35, if_neg Bool.false_ne_true, decodeLong]
  simp only [encI_fldOp]
  simp

theorem iOri (c : Nat) (rd ra : BitVec 5) (imm : BitVec 18) : Statement (.iOri c rd ra imm) := by
  intro e h; cases h
  rw [decodeWord, encI_35, if_neg Bool.false_ne_true, decodeLong]
  simp only [encI_fldOp]
  simp

theorem iXori (c : Nat) (rd ra : BitVec 5) (imm : BitVec 18) : Statement (.iXori c rd ra imm) := by
  intro e h; cases h
  rw [decodeWord, encI_35, if_neg Bool.false_ne_true, decodeLong]
  simp only [encI_fldOp]
  simp

theorem iLui (c : Nat) (rd ra : BitVec 5) (imm : BitVec 18) : Statement (.iLui c rd ra imm) := by
  intro e h; cases h
  rw [decodeWord, encI_35, if_neg Bool.false_ne_true, decodeLong]
  simp only [encI_fldOp]
  simp

theorem iShi (c : Nat) (rd ra : BitVec 5) (imm : BitVec 18) : Statement (.iShi c rd ra imm) := by
  intro e h; cases h
  rw [decodeWord, encI_35, if_neg Bool.false_ne_true, decodeLong]
  simp only [encI_fldOp]
  simp

theorem iTcmpi (c : Nat) (rd ra : BitVec 5) (imm : BitVec 18) : Statement (.iTcmpi c rd ra imm) := by
  intro e h; cases h
  rw [decodeWord, encI_35, if_neg Bool.false_ne_true, decodeLong]
  simp only [encI_fldOp]
  simp

theorem iTcmp (c : Nat) (rd ra rb : BitVec 5) (m : BitVec 7) : Statement (.iTcmp c rd ra rb m) := by
  intro e h; cases h
  rw [decodeWord, encF_35, if_neg Bool.false_ne_true, decodeLong]
  simp only [encF_fldOp]
  simp [nonetInstr]

theorem iTset (c : Nat) (rd ra rb : BitVec 5) (m : BitVec 7) : Statement (.iTset c rd ra rb m) := by
  intro e h; cases h
  rw [decodeWord, encF_35, if_neg Bool.false_ne_true, decodeLong]
  simp only [encF_fldOp]
  simp [nonetInstr]

theorem iTand (c : Nat) (rd ra rb : BitVec 5) (m : BitVec 7) : Statement (.iTand c rd ra rb m) := by
  intro e h; cases h
  rw [decodeWord, encF_35, if_neg Bool.false_ne_true, decodeLong]
  simp only [encF_fldOp]
  simp [nonetInstr]

theorem iTor (c : Nat) (rd ra rb : BitVec 5) (m : BitVec 7) : Statement (.iTor c rd ra rb m) := by
  intro e h; cases h
  rw [decodeWord, encF_35, if_neg Bool.false_ne_true, decodeLong]
  simp only [encF_fldOp]
  simp [nonetInstr]

theorem iTxor (c : Nat) (rd ra rb : BitVec 5) (m : BitVec 7) : Statement (.iTxor c rd ra rb m) := by
  intro e h; cases h
  rw [decodeWord, encF_35, if_neg Bool.false_ne_true, decodeLong]
  simp only [encF_fldOp]
  simp [nonetInstr]

theorem iTandn (c : Nat) (rd ra rb : BitVec 5) (m : BitVec 7) : Statement (.iTandn c rd ra rb m) := by
  intro e h; cases h
  rw [decodeWord, encF_35, if_neg Bool.false_ne_true, decodeLong]
  simp only [encF_fldOp]
  simp [nonetInstr]

theorem iTget (c : Nat) (rd ra rb : BitVec 5) (m : BitVec 7) : Statement (.iTget c rd ra rb m) := by
  intro e h; cases h
  rw [decodeWord, encF_35, if_neg Bool.false_ne_true, decodeLong]
  simp only [encF_fldOp]
  simp [nonetInstr]

theorem iTput (c : Nat) (rd ra rb : BitVec 5) (m : BitVec 7) : Statement (.iTput c rd ra rb m) := by
  intro e h; cases h
  rw [decodeWord, encF_35, if_neg Bool.false_ne_true, decodeLong]
  simp only [encF_fldOp]
  simp [nonetInstr]

theorem iTcnta (c : Nat) (rd ra rb : BitVec 5) (m : BitVec 7) : Statement (.iTcnta c rd ra rb m) := by
  intro e h; cases h
  rw [decodeWord, encF_35, if_neg Bool.false_ne_true, decodeLong]
  simp only [encF_fldOp]
  simp [nonetInstr]

theorem iTfirst (c : Nat) (rd ra rb : BitVec 5) (m : BitVec 7) : Statement (.iTfirst c rd ra rb m) := by
  intro e h; cases h
  rw [decodeWord, encF_35, if_neg Bool.false_ne_true, decodeLong]
  simp only [encF_fldOp]
  simp [nonetInstr]

theorem iTsprd (c : Nat) (rd ra rb : BitVec 5) (m : BitVec 7) : Statement (.iTsprd c rd ra rb m) := by
  intro e h; cases h
  rw [decodeWord, encF_35, if_neg Bool.false_ne_true, decodeLong]
  simp only [encF_fldOp]
  simp [nonetInstr]

theorem iNext (c : Nat) (rd ra rb : BitVec 5) (m : BitVec 7) : Statement (.iNext c rd ra rb m) := by
  intro e h; cases h
  rw [decodeWord, encF_35, if_neg Bool.false_ne_true, decodeLong]
  simp only [encF_fldOp]
  simp [nonetInstr]

theorem iNins (c : Nat) (rd ra rb : BitVec 5) (m : BitVec 7) : Statement (.iNins c rd ra rb m) := by
  intro e h; cases h
  rw [decodeWord, encF_35, if_neg Bool.false_ne_true, decodeLong]
  simp only [encF_fldOp]
  simp [nonetInstr]

theorem iNrot (c : Nat) (rd ra rb : BitVec 5) (m : BitVec 7) : Statement (.iNrot c rd ra rb m) := by
  intro e h; cases h
  rw [decodeWord, encF_35, if_neg Bool.false_ne_true, decodeLong]
  simp only [encF_fldOp]
  simp [nonetInstr]

theorem iNaln (c : Nat) (rd ra rb : BitVec 5) (m : BitVec 7) : Statement (.iNaln c rd ra rb m) := by
  intro e h; cases h
  rw [decodeWord, encF_35, if_neg Bool.false_ne_true, decodeLong]
  simp only [encF_fldOp]
  simp [nonetInstr]

theorem iPackt (c : Nat) (rd ra rb : BitVec 5) (m : BitVec 7) : Statement (.iPackt c rd ra rb m) := by
  intro e h; cases h
  rw [decodeWord, encF_35, if_neg Bool.false_ne_true, decodeLong]
  simp only [encF_fldOp]
  simp [nonetInstr]

theorem iNbcast (c : Nat) (rd ra rb : BitVec 5) (m : BitVec 7) : Statement (.iNbcast c rd ra rb m) := by
  intro e h; cases h
  rw [decodeWord, encF_35, if_neg Bool.false_ne_true, decodeLong]
  simp only [encF_fldOp]
  simp [nonetInstr]

theorem iCls (c : Nat) (rd ra rb : BitVec 5) (fn : BitVec 13) : Statement (.iCls c rd ra rb fn) := by
  intro e h; cases h
  rw [decodeWord, encR_35, if_neg Bool.false_ne_true, decodeLong]
  simp only [encR_fldOp]
  simp

theorem iClsw (c : Nat) (rd ra rb : BitVec 5) (fn : BitVec 13) : Statement (.iClsw c rd ra rb fn) := by
  intro e h; cases h
  rw [decodeWord, encR_35, if_neg Bool.false_ne_true, decodeLong]
  simp only [encR_fldOp]
  simp

theorem iLd (c : Nat) (rd ra : BitVec 5) (mode : BitVec 3) (lane : BitVec 2) (off : BitVec 13) : Statement (.iLd c rd ra mode lane off) := by
  intro e h; cases h
  rw [decodeWord, encM_35, if_neg Bool.false_ne_true, decodeLong]
  simp only [encM_fldOp]
  simp

theorem iSt (c : Nat) (rd ra : BitVec 5) (mode : BitVec 3) (lane : BitVec 2) (off : BitVec 13) : Statement (.iSt c rd ra mode lane off) := by
  intro e h; cases h
  rw [decodeWord, encM_35, if_neg Bool.false_ne_true, decodeLong]
  simp only [encM_fldOp]
  simp

theorem iStp (c : Nat) (rd ra rb : BitVec 5) (fn : BitVec 13) : Statement (.iStp c rd ra rb fn) := by
  intro e h; cases h
  rw [decodeWord, encR_35, if_neg Bool.false_ne_true, decodeLong]
  simp only [encR_fldOp]
  simp

theorem iAadd (c : Nat) (rd ra rb : BitVec 5) : Statement (.iAadd c rd ra rb) := by
  intro e h; cases h
  rw [decodeWord, encR_35, if_neg Bool.false_ne_true, decodeLong]
  simp only [encR_fldOp]
  simp [exactInstr]

theorem iAswp (c : Nat) (rd ra rb : BitVec 5) : Statement (.iAswp c rd ra rb) := by
  intro e h; cases h
  rw [decodeWord, encR_35, if_neg Bool.false_ne_true, decodeLong]
  simp only [encR_fldOp]
  simp [exactInstr]

theorem iRsl (c : Nat) (rd ra rb : BitVec 5) : Statement (.iRsl c rd ra rb) := by
  intro e h; cases h
  rw [decodeWord, encR_35, if_neg Bool.false_ne_true, decodeLong]
  simp only [encR_fldOp]
  simp [exactInstr]

theorem iRslt (c : Nat) (rd ra rb : BitVec 5) : Statement (.iRslt c rd ra rb) := by
  intro e h; cases h
  rw [decodeWord, encR_35, if_neg Bool.false_ne_true, decodeLong]
  simp only [encR_fldOp]
  simp [exactInstr]

theorem iRsn (c : Nat) (rd ra rb : BitVec 5) : Statement (.iRsn c rd ra rb) := by
  intro e h; cases h
  rw [decodeWord, encR_35, if_neg Bool.false_ne_true, decodeLong]
  simp only [encR_fldOp]
  simp [exactInstr]

theorem iBeq (c : Nat) (ra rb : BitVec 5) (off : BitVec 18) : Statement (.iBeq c ra rb off) := by
  intro e h; cases h
  rw [decodeWord, encI_35, if_neg Bool.false_ne_true, decodeLong]
  simp only [encI_fldOp]
  simp

theorem iBne (c : Nat) (ra rb : BitVec 5) (off : BitVec 18) : Statement (.iBne c ra rb off) := by
  intro e h; cases h
  rw [decodeWord, encI_35, if_neg Bool.false_ne_true, decodeLong]
  simp only [encI_fldOp]
  simp

theorem iBlt (c : Nat) (ra rb : BitVec 5) (off : BitVec 18) : Statement (.iBlt c ra rb off) := by
  intro e h; cases h
  rw [decodeWord, encI_35, if_neg Bool.false_ne_true, decodeLong]
  simp only [encI_fldOp]
  simp

theorem iBge (c : Nat) (ra rb : BitVec 5) (off : BitVec 18) : Statement (.iBge c ra rb off) := by
  intro e h; cases h
  rw [decodeWord, encI_35, if_neg Bool.false_ne_true, decodeLong]
  simp only [encI_fldOp]
  simp

theorem iBltu (c : Nat) (ra rb : BitVec 5) (off : BitVec 18) : Statement (.iBltu c ra rb off) := by
  intro e h; cases h
  rw [decodeWord, encI_35, if_neg Bool.false_ne_true, decodeLong]
  simp only [encI_fldOp]
  simp

theorem iBgeu (c : Nat) (ra rb : BitVec 5) (off : BitVec 18) : Statement (.iBgeu c ra rb off) := by
  intro e h; cases h
  rw [decodeWord, encI_35, if_neg Bool.false_ne_true, decodeLong]
  simp only [encI_fldOp]
  simp

theorem iBf (c : Nat) (ra rb : BitVec 5) (off : BitVec 18) : Statement (.iBf c ra rb off) := by
  intro e h; cases h
  rw [decodeWord, encI_35, if_neg Bool.false_ne_true, decodeLong]
  simp only [encI_fldOp]
  simp

theorem iJal (c : Nat) (rd : BitVec 5) (off : BitVec 23) : Statement (.iJal c rd off) := by
  intro e h; cases h
  rw [decodeWord, encJ_35, if_neg Bool.false_ne_true, decodeLong]
  simp only [encJ_fldOp]
  simp

theorem iJalr (c : Nat) (rd ra : BitVec 5) (imm : BitVec 18) : Statement (.iJalr c rd ra imm) := by
  intro e h; cases h
  rw [decodeWord, encI_35, if_neg Bool.false_ne_true, decodeLong]
  simp only [encI_fldOp]
  simp

theorem iDbr (c : Nat) (rd ra rb : BitVec 5) (m : BitVec 7) : Statement (.iDbr c rd ra rb m) := by
  intro e h; cases h
  rw [decodeWord, encF_35, if_neg Bool.false_ne_true, decodeLong]
  simp only [encF_fldOp]
  simp [sysInstr]

theorem iWfe (c : Nat) (rd ra rb : BitVec 5) (m : BitVec 7) : Statement (.iWfe c rd ra rb m) := by
  intro e h; cases h
  rw [decodeWord, encF_35, if_neg Bool.false_ne_true, decodeLong]
  simp only [encF_fldOp]
  simp [sysInstr]

theorem wfeTimeout (c : Nat) : Statement (.wfeTimeout c) := by
  intro e h; cases h

theorem iSig (c : Nat) (rd ra rb : BitVec 5) (m : BitVec 7) : Statement (.iSig c rd ra rb m) := by
  intro e h; cases h
  rw [decodeWord, encF_35, if_neg Bool.false_ne_true, decodeLong]
  simp only [encF_fldOp]
  simp [sysInstr]

theorem iFence (c : Nat) (rd ra rb : BitVec 5) (m : BitVec 7) : Statement (.iFence c rd ra rb m) := by
  intro e h; cases h
  rw [decodeWord, encF_35, if_neg Bool.false_ne_true, decodeLong]
  simp only [encF_fldOp]
  simp [sysInstr]

theorem iMfs (c : Nat) (rd ra rb : BitVec 5) (m : BitVec 7) : Statement (.iMfs c rd ra rb m) := by
  intro e h; cases h
  rw [decodeWord, encF_35, if_neg Bool.false_ne_true, decodeLong]
  simp only [encF_fldOp]
  simp [sysInstr]

theorem iMff (c : Nat) (rd ra rb : BitVec 5) (m : BitVec 7) : Statement (.iMff c rd ra rb m) := by
  intro e h; cases h
  rw [decodeWord, encF_35, if_neg Bool.false_ne_true, decodeLong]
  simp only [encF_fldOp]
  simp [sysInstr]

theorem iMtf (c : Nat) (rd ra rb : BitVec 5) (m : BitVec 7) : Statement (.iMtf c rd ra rb m) := by
  intro e h; cases h
  rw [decodeWord, encF_35, if_neg Bool.false_ne_true, decodeLong]
  simp only [encF_fldOp]
  simp [sysInstr]

theorem iRdc (c : Nat) (rd ra rb : BitVec 5) (m : BitVec 7) : Statement (.iRdc c rd ra rb m) := by
  intro e h; cases h
  rw [decodeWord, encF_35, if_neg Bool.false_ne_true, decodeLong]
  simp only [encF_fldOp]
  simp [sysInstr]

theorem iEnd (c : Nat) (rd ra rb : BitVec 5) (m : BitVec 7) : Statement (.iEnd c rd ra rb m) := by
  intro e h; cases h
  rw [decodeWord, encF_35, if_neg Bool.false_ne_true, decodeLong]
  simp only [encF_fldOp]
  simp [sysInstr]

theorem iTrap (c : Nat) (rd ra rb : BitVec 5) (m : BitVec 7) : Statement (.iTrap c rd ra rb m) := by
  intro e h; cases h
  rw [decodeWord, encF_35, if_neg Bool.false_ne_true, decodeLong]
  simp only [encF_fldOp]
  simp [sysInstr]

theorem iMfc (c : Nat) (rd ra rb : BitVec 5) (fn : BitVec 13) : Statement (.iMfc c rd ra rb fn) := by
  intro e h; cases h
  rw [decodeWord, encR_35, if_neg Bool.false_ne_true, decodeLong]
  simp only [encR_fldOp]
  simp

theorem iMtc (c : Nat) (rd ra rb : BitVec 5) (fn : BitVec 13) : Statement (.iMtc c rd ra rb fn) := by
  intro e h; cases h
  rw [decodeWord, encR_35, if_neg Bool.false_ne_true, decodeLong]
  simp only [encR_fldOp]
  simp

theorem iEret (c : Nat) (rd ra rb : BitVec 5) (fn : BitVec 13) : Statement (.iEret c rd ra rb fn) := by
  intro e h; cases h
  rw [decodeWord, encR_35, if_neg Bool.false_ne_true, decodeLong]
  simp only [encR_fldOp]
  simp

theorem iHalt (c : Nat) (rd ra rb : BitVec 5) (fn : BitVec 13) : Statement (.iHalt c rd ra rb fn) := by
  intro e h; cases h
  rw [decodeWord, encR_35, if_neg Bool.false_ne_true, decodeLong]
  simp only [encR_fldOp]
  simp

theorem customInstruction (c : Nat) (idx : BitVec 6) (rd ra rb : BitVec 5) (fn : BitVec 13) : Statement (.customInstruction c idx rd ra rb fn) := by
  intro e h; cases h
  rw [decodeWord, encC_35, if_neg Bool.false_ne_true, decodeLong]
  rw [encC_fldOp]
  split <;> first | omega | simp

theorem pairedWord (c : Nat) (rsvd : Bool) (a b : BitVec 17) : Statement (.pairedWord c rsvd a b) := by
  intro e h; cases h
  rw [decodeWord, encP_35, if_pos rfl, encP_34, encP_x17_17, encP_x0_17]

theorem counterWrap (c n : Nat) : Statement (.counterWrap c n) := by
  intro e h; cases h

theorem counterOvf (c : Nat) : Statement (.counterOvf c) := by
  intro e h; cases h

theorem smpFull (c : Nat) : Statement (.smpFull c) := by
  intro e h; cases h

theorem extInt (c : Nat) : Statement (.extInt c) := by
  intro e h; cases h

theorem coreForceStop (c : Nat) : Statement (.coreForceStop c) := by
  intro e h; cases h

theorem coreHalt (ini : Ini) (c : Nat) : Statement (.coreHalt ini c) := by
  intro e h; cases h

theorem coreRestart (ini : Ini) (c : Nat) : Statement (.coreRestart ini c) := by
  intro e h; cases h

theorem controlStoreRead (ini : Ini) (c : Nat) : Statement (.controlStoreRead ini c) := by
  intro e h; cases h

theorem counterPageWrite (ini : Ini) (c off : Nat) (v : W32) : Statement (.counterPageWrite ini c off v) := by
  intro e h; cases h

theorem samplingAreaWrite (ini : Ini) (c : Nat) (limit : Bool) (v : W32) : Statement (.samplingAreaWrite ini c limit v) := by
  intro e h; cases h

theorem cycleCounterRead (ini : Ini) (c off : Nat) : Statement (.cycleCounterRead ini c off) := by
  intro e h; cases h

theorem ringDoorbell (ini : Ini) (r : Nat) (prod : BitVec 16) : Statement (.ringDoorbell ini r prod) := by
  intro e h; cases h

theorem descriptorDispatch (r : Nat) : Statement (.descriptorDispatch r) := by
  intro e h; cases h

theorem engineCompletion (r idx : Nat) (agree : Bool) : Statement (.engineCompletion r idx agree) := by
  intro e h; cases h

theorem heldCompletionWrite (ini : Ini) (r : Nat) (ccons : BitVec 16) : Statement (.heldCompletionWrite ini r ccons) := by
  intro e h; cases h

theorem ringCancel (ini : Ini) (r : Nat) (v : W32) : Statement (.ringCancel ini r v) := by
  intro e h; cases h

theorem cancelAtBoundary (r idx : Nat) : Statement (.cancelAtBoundary r idx) := by
  intro e h; cases h

theorem ringRestart (ini : Ini) (r : Nat) (v : W32) : Statement (.ringRestart ini r v) := by
  intro e h; cases h

theorem ringRelease (ini : Ini) (r : Nat) : Statement (.ringRelease ini r) := by
  intro e h; cases h

theorem alloc (r idx : Nat) : Statement (.alloc r idx) := by
  intro e h; cases h

theorem hold (r idx : Nat) : Statement (.hold r idx) := by
  intro e h; cases h

theorem release (r idx : Nat) : Statement (.release r idx) := by
  intro e h; cases h

theorem bufferWaitTimeout (r idx : Nat) : Statement (.bufferWaitTimeout r idx) := by
  intro e h; cases h

theorem bufferFreeDone (pool index : Nat) : Statement (.bufferFreeDone pool index) := by
  intro e h; cases h

theorem toSlm (r idx : Nat) : Statement (.toSlm r idx) := by
  intro e h; cases h

theorem fromSlm (r idx : Nat) : Statement (.fromSlm r idx) := by
  intro e h; cases h

theorem extentRead (r idx : Nat) : Statement (.extentRead r idx) := by
  intro e h; cases h

theorem bufferAudit (ini : Ini) (v : W32) : Statement (.bufferAudit ini v) := by
  intro e h; cases h

theorem gcmEnc (r : Nat) (start : GcmStart) : Statement (.gcmEnc r start) := by
  intro e h; cases h

theorem gcmDec (r : Nat) (start : GcmStart) : Statement (.gcmDec r start) := by
  intro e h; cases h

theorem keyErase (r idx : Nat) : Statement (.keyErase r idx) := by
  intro e h; cases h

theorem ctxRelease (r idx : Nat) : Statement (.ctxRelease r idx) := by
  intro e h; cases h

theorem digest (r idx : Nat) : Statement (.digest r idx) := by
  intro e h; cases h

theorem extend (r idx : Nat) : Statement (.extend r idx) := by
  intro e h; cases h

theorem measRead (r idx : Nat) : Statement (.measRead r idx) := by
  intro e h; cases h

theorem digestCtxRelease (r idx : Nat) : Statement (.digestCtxRelease r idx) := by
  intro e h; cases h

theorem entropyHealthWindow (ok : Bool) : Statement (.entropyHealthWindow ok) := by
  intro e h; cases h

theorem voltageGlitch : Statement .voltageGlitch := by
  intro e h; cases h

theorem clockGlitch : Statement .clockGlitch := by
  intro e h; cases h

theorem temperature : Statement .temperature := by
  intro e h; cases h

theorem slotIntegrity (store : SlotStore) (slot : Nat) : Statement (.slotIntegrity store slot) := by
  intro e h; cases h

theorem alarmMediaReady : Statement .alarmMediaReady := by
  intro e h; cases h

theorem alarmRingReady : Statement .alarmRingReady := by
  intro e h; cases h

theorem drbgReseed : Statement .drbgReseed := by
  intro e h; cases h

theorem mediaKeyNew (ini : Ini) (ns : Nat) : Statement (.mediaKeyNew ini ns) := by
  intro e h; cases h

theorem mediaKeyReload (ini : Ini) : Statement (.mediaKeyReload ini) := by
  intro e h; cases h

theorem measSelect (ini : Ini) (v : W32) : Statement (.measSelect ini v) := by
  intro e h; cases h

theorem measDataRead (ini : Ini) : Statement (.measDataRead ini) := by
  intro e h; cases h

theorem ciphRngStatRead (ini : Ini) : Statement (.ciphRngStatRead ini) := by
  intro e h; cases h

theorem compress (r idx : Nat) : Statement (.compress r idx) := by
  intro e h; cases h

theorem deflateBlockEnd (inst : Nat) : Statement (.deflateBlockEnd inst) := by
  intro e h; cases h

theorem decompress (r idx : Nat) : Statement (.decompress r idx) := by
  intro e h; cases h

theorem cmprCtxRelease (r idx : Nat) : Statement (.cmprCtxRelease r idx) := by
  intro e h; cases h

theorem cmprErrRead (ini : Ini) (e : Nat) : Statement (.cmprErrRead ini e) := by
  intro e h; cases h

theorem lookup (r idx : Nat) : Statement (.lookup r idx) := by
  intro e h; cases h

theorem searchWrite (r idx : Nat) : Statement (.searchWrite r idx) := by
  intro e h; cases h

theorem invalidate (r idx : Nat) : Statement (.invalidate r idx) := by
  intro e h; cases h

theorem searchRead (r idx : Nat) : Statement (.searchRead r idx) := by
  intro e h; cases h

theorem step (r idx : Nat) : Statement (.step r idx) := by
  intro e h; cases h

theorem shift (r idx : Nat) : Statement (.shift r idx) := by
  intro e h; cases h

theorem maskRecomputeDone (row : Nat) : Statement (.maskRecomputeDone row) := by
  intro e h; cases h

theorem searchEntrySnapshot (ini : Ini) (v : W32) : Statement (.searchEntrySnapshot ini v) := by
  intro e h; cases h

theorem descriptorPushWord (ini : Ini) (ch q : Nat) (w : W32) : Statement (.descriptorPushWord ini ch q w) := by
  intro e h; cases h

theorem readPage (ch q i : Nat) : Statement (.readPage ch q i) := by
  intro e h; cases h

theorem readCache (ch q i : Nat) : Statement (.readCache ch q i) := by
  intro e h; cases h

theorem readRetry (ch q i : Nat) : Statement (.readRetry ch q i) := by
  intro e h; cases h

theorem program (ch q i : Nat) : Statement (.program ch q i) := by
  intro e h; cases h

theorem erase (ch q i : Nat) : Statement (.erase ch q i) := by
  intro e h; cases h

theorem suspend (ch q i : Nat) : Statement (.suspend ch q i) := by
  intro e h; cases h

theorem resume (ch q i : Nat) : Statement (.resume ch q i) := by
  intro e h; cases h

theorem resetDie (ch q i : Nat) : Statement (.resetDie ch q i) := by
  intro e h; cases h

theorem getFeature (ch q i : Nat) : Statement (.getFeature ch q i) := by
  intro e h; cases h

theorem setFeature (ch q i : Nat) : Statement (.setFeature ch q i) := by
  intro e h; cases h

theorem readStatus (ch q i : Nat) : Statement (.readStatus ch q i) := by
  intro e h; cases h

theorem dieCommandEnd (ch die : Nat) (out : DieOut) : Statement (.dieCommandEnd ch die out) := by
  intro e h; cases h

theorem softDecodeDone (ch tag gran : Nat) (ok : Option Nat) (set : Option Nat) : Statement (.softDecodeDone ch tag gran ok set) := by
  intro e h; cases h

theorem flcCompletionWrite (ini : Ini) (ch : Nat) (cons : W32) : Statement (.flcCompletionWrite ini ch cons) := by
  intro e h; cases h

theorem flcCancel (ini : Ini) (ch : Nat) (v : W32) : Statement (.flcCancel ini ch v) := by
  intro e h; cases h

theorem flcEnable (ini : Ini) (ch : Nat) (v : W32) : Statement (.flcEnable ini ch v) := by
  intro e h; cases h

theorem blockStateSelect (ini : Ini) (ch : Nat) (v : W32) : Statement (.blockStateSelect ini ch v) := by
  intro e h; cases h

theorem blockStateRestore (ini : Ini) (ch : Nat) (v : W32) : Statement (.blockStateRestore ini ch v) := by
  intro e h; cases h

theorem autoSuspend (ch die : Nat) : Statement (.autoSuspend ch die) := by
  intro e h; cases h

theorem autoResume (ch die : Nat) : Statement (.autoResume ch die) := by
  intro e h; cases h

theorem dieRetrain (ch die drift : Nat) : Statement (.dieRetrain ch die drift) := by
  intro e h; cases h

theorem dieTimeout (ch die : Nat) : Statement (.dieTimeout ch die) := by
  intro e h; cases h

theorem flcEccSoftRead (ini : Ini) (ch : Nat) : Statement (.flcEccSoftRead ini ch) := by
  intro e h; cases h

theorem flcEccUncRead (ini : Ini) (ch : Nat) : Statement (.flcEccUncRead ini ch) := by
  intro e h; cases h

theorem readAround (fn sq cid lba : Nat) : Statement (.readAround fn sq cid lba) := by
  intro e h; cases h

theorem mapWriteBack (pages : List (Nat × Nat)) : Statement (.mapWriteBack pages) := by
  intro e h; cases h

theorem qWindowReadback (sb page : Nat) (bad : List (Nat × Nat)) : Statement (.qWindowReadback sb page bad) := by
  intro e h; cases h

theorem ftlaReady (grans : List Nat) : Statement (.ftlaReady grans) := by
  intro e h; cases h

theorem mapGet : Statement .mapGet := by
  intro e h; cases h

theorem mapSet : Statement .mapSet := by
  intro e h; cases h

theorem mapMove : Statement .mapMove := by
  intro e h; cases h

theorem trim : Statement .trim := by
  intro e h; cases h

theorem pageOut (loc : Nat) : Statement (.pageOut loc) := by
  intro e h; cases h

theorem record : Statement .record := by
  intro e h; cases h

theorem rebuild : Statement .rebuild := by
  intro e h; cases h

theorem sbSet : Statement .sbSet := by
  intro e h; cases h

theorem ftlaCompletionWrite (ini : Ini) (v : W32) : Statement (.ftlaCompletionWrite ini v) := by
  intro e h; cases h

theorem ftlaLaMissRead (ini : Ini) : Statement (.ftlaLaMissRead ini) := by
  intro e h; cases h

theorem ftlaMcMissRead (ini : Ini) : Statement (.ftlaMcMissRead ini) := by
  intro e h; cases h

theorem ftlaRaCntRead (ini : Ini) : Statement (.ftlaRaCntRead ini) := by
  intro e h; cases h

theorem dramRetrainPause (ch : Nat) (rd wr : BitVec 8) : Statement (.dramRetrainPause ch rd wr) := by
  intro e h; cases h

theorem dramRepairPause (ch row : Nat) : Statement (.dramRepairPause ch row) := by
  intro e h; cases h

theorem orderSwitch (ini : Ini) (v : W32) : Statement (.orderSwitch ini v) := by
  intro e h; cases h

theorem scrub (inst line : Nat) (found : ScrubResult) : Statement (.scrub inst line found) := by
  intro e h; cases h

theorem lineRemap (inst line : Nat) : Statement (.lineRemap inst line) := by
  intro e h; cases h

theorem dramDeviceFailed (dev : Nat) : Statement (.dramDeviceFailed dev) := by
  intro e h; cases h

theorem checkBitTestArm (ini : Ini) (v : W32) : Statement (.checkBitTestArm ini v) := by
  intro e h; cases h

theorem memiSelect (ini : Ini) (v : W32) : Statement (.memiSelect ini v) := by
  intro e h; cases h

theorem ueRecordRead (ini : Ini) : Statement (.ueRecordRead ini) := by
  intro e h; cases h

theorem drcFwdRead (ini : Ini) : Statement (.drcFwdRead ini) := by
  intro e h; cases h

theorem nrgSample (rails : List (Nat × Nat)) : Statement (.nrgSample rails) := by
  intro e h; cases h

theorem epochBoundary (temps : List Int) : Statement (.epochBoundary temps) := by
  intro e h; cases h

theorem envelopeGuardWindow : Statement .envelopeGuardWindow := by
  intro e h; cases h

theorem energyDeferred (r idx : Nat) : Statement (.energyDeferred r idx) := by
  intro e h; cases h

theorem embankmentMeasurement : Statement .embankmentMeasurement := by
  intro e h; cases h

theorem embankmentMeasurementEnd (stepMv fallUs : Nat) : Statement (.embankmentMeasurementEnd stepMv fallUs) := by
  intro e h; cases h

theorem bankCharged : Statement .bankCharged := by
  intro e h; cases h

theorem safetyDrain (grans : List Nat) : Statement (.safetyDrain grans) := by
  intro e h; cases h

theorem drainRelease : Statement .drainRelease := by
  intro e h; cases h

theorem calendarTick : Statement .calendarTick := by
  intro e h; cases h

theorem calendarSave : Statement .calendarSave := by
  intro e h; cases h

theorem powerOnSecond : Statement .powerOnSecond := by
  intro e h; cases h

theorem calendarShadowRead (ini : Ini) : Statement (.calendarShadowRead ini) := by
  intro e h; cases h

theorem powerOnSecondsRead (ini : Ini) : Statement (.powerOnSecondsRead ini) := by
  intro e h; cases h

theorem energyDeliveredRead (ini : Ini) : Statement (.energyDeliveredRead ini) := by
  intro e h; cases h

theorem epochRead (ini : Ini) : Statement (.epochRead ini) := by
  intro e h; cases h

theorem calibrationCommit (ini : Ini) (v : W32) : Statement (.calibrationCommit ini v) := by
  intro e h; cases h

theorem optionCommit (ini : Ini) (v : W32) : Statement (.optionCommit ini v) := by
  intro e h; cases h

theorem faultReport (blk inst cls tinst cause action : Nat) : Statement (.faultReport blk inst cls tinst cause action) := by
  intro e h; cases h

theorem faultWindowEnd : Statement .faultWindowEnd := by
  intro e h; cases h

theorem tagRelease (cls tinst : Nat) : Statement (.tagRelease cls tinst) := by
  intro e h; cases h

theorem fltAbsRead (ini : Ini) : Statement (.fltAbsRead ini) := by
  intro e h; cases h

theorem entdaa (addr : BitVec 7) (won tie : Bool) : Statement (.entdaa addr won tie) := by
  intro e h; cases h

theorem setdasa (legacy addr : BitVec 7) : Statement (.setdasa legacy addr) := by
  intro e h; cases h

theorem rstdaa : Statement .rstdaa := by
  intro e h; cases h

theorem enec : Statement .enec := by
  intro e h; cases h

theorem disec : Statement .disec := by
  intro e h; cases h

theorem getpid : Statement .getpid := by
  intro e h; cases h

theorem getbcr : Statement .getbcr := by
  intro e h; cases h

theorem getdcr : Statement .getdcr := by
  intro e h; cases h

theorem getstatus : Statement .getstatus := by
  intro e h; cases h

theorem getmwl : Statement .getmwl := by
  intro e h; cases h

theorem setmwl (n : Nat) : Statement (.setmwl n) := by
  intro e h; cases h

theorem getmrl : Statement .getmrl := by
  intro e h; cases h

theorem setmrl (n : Nat) : Statement (.setmrl n) := by
  intro e h; cases h

theorem unsupportedCcc (addressed : Bool) : Statement (.unsupportedCcc addressed) := by
  intro e h; cases h

theorem i2cFruRead (addr : BitVec 7) (len : Nat) : Statement (.i2cFruRead addr len) := by
  intro e h; cases h

theorem i2cFruOffsetWrite (addr : BitVec 7) (off : Nat) : Statement (.i2cFruOffsetWrite addr off) := by
  intro e h; cases h

theorem mctpPacket (pkt : MctpPacket) : Statement (.mctpPacket pkt) := by
  intro e h; cases h

theorem setEndpointId (eid : BitVec 8) : Statement (.setEndpointId eid) := by
  intro e h; cases h

theorem getEndpointId : Statement .getEndpointId := by
  intro e h; cases h

theorem getEndpointUuid : Statement .getEndpointUuid := by
  intro e h; cases h

theorem getMctpVersionSupport : Statement .getMctpVersionSupport := by
  intro e h; cases h

theorem getMessageTypeSupport : Statement .getMessageTypeSupport := by
  intro e h; cases h

theorem readNvmeMiDataStructure (slot dtype ctrl : Nat) : Statement (.readNvmeMiDataStructure slot dtype ctrl) := by
  intro e h; cases h

theorem nvmSubsystemHealthStatusPoll (slot : Nat) : Statement (.nvmSubsystemHealthStatusPoll slot) := by
  intro e h; cases h

theorem controllerHealthStatusPoll (slot ctrl : Nat) : Statement (.controllerHealthStatusPoll slot ctrl) := by
  intro e h; cases h

theorem configurationGet (slot item : Nat) : Statement (.configurationGet slot item) := by
  intro e h; cases h

theorem configurationSet (slot item value : Nat) : Statement (.configurationSet slot item value) := by
  intro e h; cases h

theorem vpdRead (slot off len : Nat) : Statement (.vpdRead slot off len) := by
  intro e h; cases h

theorem adminTunnel (slot ctrl : Nat) (cmd : TunnelCmd) : Statement (.adminTunnel slot ctrl cmd) := by
  intro e h; cases h

theorem miResponseReady (slot : Nat) : Statement (.miResponseReady slot) := by
  intro e h; cases h

theorem sbdStatRead (ini : Ini) : Statement (.sbdStatRead ini) := by
  intro e h; cases h

theorem keyWrite (ini : Ini) (frame : Nat) (v : W32) : Statement (.keyWrite ini frame v) := by
  intro e h; cases h

theorem keyWindowEnd (frame : Nat) : Statement (.keyWindowEnd frame) := by
  intro e h; cases h

theorem registerWrite (ini : Ini) (off width : Nat) (v : W32) : Statement (.registerWrite ini off width v) := by
  intro e h; cases h

theorem bridgeTimeout (ini : Ini) (off : Nat) (write : Bool) : Statement (.bridgeTimeout ini off write) := by
  intro e h; cases h

theorem errorRecordRead (ini : Ini) (frame : Nat) : Statement (.errorRecordRead ini frame) := by
  intro e h; cases h

theorem bar2Request (off : Nat) (write : Bool) (dwords : List (BitVec 4 × W32)) : Statement (.bar2Request off write dwords) := by
  intro e h; cases h

theorem pmonClear (ini : Ini) : Statement (.pmonClear ini) := by
  intro e h; cases h

theorem pmonCounterRead (ini : Ini) (n : Nat) : Statement (.pmonCounterRead ini n) := by
  intro e h; cases h

theorem cqHeadDoorbell (fn cq head : Nat) : Statement (.cqHeadDoorbell fn cq head) := by
  intro e h; cases h

theorem vfEnableSet (numVfs : Nat) : Statement (.vfEnableSet numVfs) := by
  intro e h; cases h

end Sys2Proof.Laws.Encoding
end

