-- ==== Sys2Proof/Safety.lean ====
section
/-! DEFINITION. The vocabulary of the claims: what it means that a command completes, that a core takes its next word, what
a word may change besides its own result, and where a trap goes. -/

namespace Sys2Proof.Machine

open Sys2Proof

/-! ## Completion -/

/-- The command answers a next state, and `P` holds of it. -/
def Gives (i : Instr) (s : State) (P : State → Prop) : Prop := ∃ t, exec i s = .next t ∧ P t

/-- A run is safe at a state when the next step neither faults nor refuses. -/
def Safe (s : State) : Prop := ∃ t, step s = .next t

/-! ## What a word of a core may change besides its result -/

/-- Only energy accounts change between the two states: the epoch's energy of an account and of a job (R361, R365). -/
structure OnlyCharges (s t : State) : Prop where
  nrg : t.nrg = { s.nrg with acct := t.nrg.acct }
  accounts : ∀ p, acct t p = { acct s p with pend := (acct t p).pend, est := (acct t p).est }
  jobs : ∀ j, (job t j).map (fun v => { v with pend := 0 }) = (job s j).map (fun v => { v with pend := 0 })

/-- Only core `c`, the energy that its cycles are charged as, and the model's own counter of free values change. -/
structure OnlyCore (s t : State) (c : Nat) : Prop where
  rest : t = { s with freeCtr := t.freeCtr, cores := t.cores, jobs := t.jobs, nrg := t.nrg }
  others : ∀ d, d ≠ c → core t d = core s d
  charges : OnlyCharges s t

/-- Only the program counter, the flags, the general registers, the cycle counter and the programmable counters' values and
wraps of a core change, and it waits at no word any longer: every special register, trap register, classify table, memory and
region entry stays. -/
structure SameContext (k l : Core) : Prop where
  rest : l = { k with regs := l.regs, pc := l.pc, flags := l.flags, cnt := l.cnt, cyc := l.cyc, stalled := false, routine := none }
  counters : ∀ n, counter l n = { counter k n with val := (counter l n).val, wraps := (counter l n).wraps }

/-- Register `rd` takes `v`, every other keeps its value; a write to w0 is discarded (R118). -/
def WritesReg (k l : Core) (rd : BitVec 5) (v : W36) : Prop := ∀ r, rget l r = if r = rd ∧ r ≠ 0 then v else rget k r

/-- No register changes. -/
def KeepsRegs (k l : Core) : Prop := ∀ r, rget l r = rget k r

/-! ## Taking a word -/

/-- Core `c` takes its next word: it is RUNNING and in service, and the fetch is granted (R154, R157). -/
def CanRun (s : State) (c : Nat) : Prop := coreRuns s c = true ∧ fetchTrap s (core s c) = none

/-- The word completes on core `c`: `rd` takes `v`, the flags are `g`, the core goes on at `pc`, nothing else changes. -/
def WordResult (i : Instr) (s : State) (c : Nat) (rd : BitVec 5) (v : W36) (g : BitVec 4) (pc : W36) : Prop :=
  Gives i s fun t => OnlyCore s t c ∧ SameContext (core s c) (core t c) ∧ WritesReg (core s c) (core t c) rd v ∧
    (core t c).flags = g ∧ (core t c).pc = pc

/-- The flags with c and v replaced (R118). -/
def withCV (g : BitVec 4) (cc vv : Bool) : BitVec 4 := (g &&& 12#4) ||| (if cc then 1#4 else 0#4) ||| (if vv then 2#4 else 0#4)

/-- The flags with t replaced (R118). -/
def withT (g : BitVec 4) (tt : Bool) : BitVec 4 := (g &&& 11#4) ||| (if tt then 4#4 else 0#4)

/-- The word completes on core `c` with a result given nonet by nonet (R117): byte and tag of each lane, t becoming the OR of
the tags where the instruction sets tags (R120), and the core going on at the next word. -/
def LaneResult (i : Instr) (s : State) (c : Nat) (rd : BitVec 5) (setsT : Bool) (byte : Nat → Byte) (tag : Nat → Bool) : Prop :=
  ∃ v, WordResult i s c rd v
      (if setsT then withT (core s c).flags (tag 0 || tag 1 || tag 2 || tag 3) else (core s c).flags) ((core s c).pc + 1) ∧
    ∀ n, n < 4 → (v >>> (8 * n)).setWidth 8 = byte n ∧ v.getLsbD (32 + n) = tag n

/-! ## Traps (R157-R160) -/

/-- The user context has a handler that may take a trap: UTVEC written, no user trap in progress (R158). -/
def HasHandler (k : Core) : Prop := k.user = true ∧ k.utvec ≠ 0 ∧ k.ucause.getLsbD 31 = false

/-- The entry of a user trap (R158): UEPC, UCAUSE (flags, the busy bit, slot, info, cause), UTVAL and the pc. -/
def UserEntry (k l : Core) (cause info slot : Nat) (val : W36) : Prop :=
  l.uepc = k.pc ∧ l.utval = val ∧ l.pc = k.utvec + BitVec.ofNat 36 cause ∧
    l.ucause = BitVec.ofNat 36 (k.flags.toNat * 2 ^ 32 + 2 ^ 31 + slot % 4 * 2 ^ 29 + info % 4096 * 256 + cause % 256) ∧
    KeepsRegs k l ∧ l.flags = k.flags

/-- The entry of a trap in system mode (R160): SEPC, SCAUSE, STVAL, SSTATUS.busy and the pc. -/
def SystemEntry (k l : Core) (cause info slot : Nat) (val : W36) : Prop :=
  l.sepc = k.pc ∧ l.stval = val ∧ l.sstatus = k.sstatus ||| 2 ∧ l.pc = k.stvec + BitVec.ofNat 36 cause ∧
    l.scause = BitVec.ofNat 36 (k.flags.toNat * 2 ^ 32 + 2 ^ 31 + slot % 4 * 2 ^ 29 + info % 4096 * 256 + cause % 256) ∧
    KeepsRegs k l ∧ l.flags = k.flags

/-- The time limit of a job has expired: the limit, in ms from the start of the run, is reached 1 ms early, and pauses do not count (R104). -/
def LimitPassed (s : State) (v : Job) : Prop := v.limitMs ≠ 0 ∧ v.startT + v.pausedUs + v.limitMs * 1000 ≤ s.now + 1000

/-- No stop request of an expired time limit wins against a trap of core `c` (R161). -/
def NoStop (s : State) (c : Nat) : Prop := ∀ j v, (core s c).job = some j → job s j = some v → ¬ LimitPassed s v

/-- The word takes a synchronous trap (R158, R160) in whichever of the two handlers its core has: nothing changes but that core,
whose registers and flags stay. A job whose time limit has expired ends with the stop's result, and its trap is not recorded (R161). -/
def WordTraps (i : Instr) (s : State) (c cause info slot : Nat) (val : W36) : Prop :=
  (∀ j v, (core s c).user = true → (core s c).job = some j → job s j = some v → LimitPassed s v → v.st ≠ .ending → Gives i s fun t =>
    job t j = some { v with st := .ending, result := some (.interrupted, 0x80000000#32) } ∧ (core t c).trap = (core s c).trap ∧
    (core t c).ucause = (core s c).ucause) ∧
  (HasHandler (core s c) → NoStop s c → Gives i s fun t =>
    t = { s with cores := t.cores } ∧ (∀ d, d ≠ c → core t d = core s d) ∧ UserEntry (core s c) (core t c) cause info slot val) ∧
  ((core s c).user = false → (core s c).sstatus.getLsbD 1 = false → Gives i s fun t =>
    t = { s with cores := t.cores } ∧ (∀ d, d ≠ c → core t d = core s d) ∧ SystemEntry (core s c) (core t c) cause info slot val)

/-! ## Memory as claims read it -/

/-- No check-bit test is armed, and no bit of the codeword is flipped (R339, R358). -/
def Intact (s : State) (w : Cw) : Prop := s.memi.armed = false ∧ cwFlips s w = 0

/-- A byte of local data memory by byte cursor (R117, R122). -/
def ldmByte (k : Core) (x : Nat) : Byte := ((tget k.ldm 0 (x / 4)) >>> (8 * (x % 4))).setWidth 8

/-- Its tag. -/
def ldmTag (k : Core) (x : Nat) : Bool := (tget k.ldm 0 (x / 4)).getLsbD (32 + x % 4)

/-- A byte of DRAM by data offset: SLM reads zero in a void block (R105). -/
def dramByte (s : State) (x : Nat) : Byte := if slmBase ≤ x ∧ x < imgBase then slmByte s (x - slmBase) else readByte s.dram x

/-- The byte of a lane of a word of the shared memories: the buffers of the shared buffer SRAM, the DRAM window (R148). -/
def sharedByte (s : State) (a n : Nat) : Byte :=
  if regionOf a = .sram then readByte s.bpm.sram ((a - 16777216) * 4 + n) else dramByte s ((a - 8589934592) * 4 + n)

/-- A word of the shared memories that core `c` may reach: a buffer or the DRAM window, granted, owned, intact, and
for a read not poisoned (R40, R152, R356). -/
def SharedWord (s : State) (c a : Nat) (write : Bool) : Prop :=
  ((regionOf a = .sram ∧ a < 29097984) ∨ (regionOf a = .dram ∧ s.drc.init = false)) ∧
  protect s (core s c) a write = none ∧ curBreach s (core s c).polder (4 * a) = none ∧
  (write = false → curPoison s (4 * a) = false) ∧ Intact s (if regionOf a = .sram then sramCw ((a - 16777216) * 4) else dramCw ((a - 8589934592) * 4))

/-! ## Register pages -/

/-- An initiator's access reaches the page (R20, R40, R437, R438): the page exists, its core and clock domain are there, and the
stamp is 0 or the page's owner; a CORE page 1 has a context. -/
def PageOpen (s : State) (ini : Ini) (frame : Nat) : Prop :=
  reaches s ini frame = true ∧ ∃ b j i, pageAt frame = some (b, j, i) ∧ (b = 3 → (core s j).absent = false) ∧
    domainRuns s (domainOf b j) = true ∧ noContext s b j i = false ∧
    ((match ini with | .host _ => 0 | _ => iniStamp s ini) = 0 ∨ (match ini with | .host _ => 0 | _ => iniStamp s ini) = pageOwner s b j i)

/-- The error record of a page carries a code (R431, R432). -/
def HasError (s : State) (frame code : Nat) : Prop :=
  (hdr s frame).errValid = true ∧ (hdr s frame).errCode = BitVec.ofNat 8 code

/-- An initiator reaches the page and holds its key window (R11, R433). -/
def Keyed (s : State) (ini : Ini) (frame : Nat) : Prop := PageOpen s ini frame ∧ (hdr s frame).win = some ini

/-- The key window has been used: it is closed and the key sequence has advanced (R433). -/
def KeyUsed (s t : State) (frame : Nat) : Prop := (hdr t frame).win = none ∧ (hdr t frame).seq = (hdr s frame).seq + 1

/-- A fault report of a tag waits in the open window (R408). -/
def Reports (t : State) (cls inst : Nat) : Prop := ∃ at_ rs, t.flt.window = some (at_, rs) ∧ ∃ e ∈ rs, e.1.cls = cls ∧ e.1.inst = inst

/-! ## Commands of the host queues -/

/-- The completion entries of a submission queue that the host has not consumed, in order: posted, then held while the queue is full. -/
def entries (s : State) (fn sq : Nat) : List Compl :=
  match sqOf s fn sq with
  | none => []
  | some q => match cqOf s fn q.cq with
    | none => []
    | some c => c.posted ++ c.held

/-- The controller fetches from the queue now (R36, R60, R77, R84, R88), which has its completion queue. -/
def MayFetch (s : State) (fn sq : Nat) : Prop :=
  canFetch s fn sq = true ∧ s.host.ps < 4 ∧ ∃ q c, sqOf s fn sq = some q ∧ q.cq < 65536 ∧ cqOf s fn q.cq = some c

/-- An I/O command can be fetched. -/
def MayIo (s : State) (fn sq : Nat) : Prop := sq ≠ 0 ∧ MayFetch s fn sq

/-- A command of the Computational Programs or SLM command set can be fetched (R58). -/
def MayCompute (s : State) (fn sq : Nat) : Prop := MayIo s fn sq ∧ fld (ctrl s fn).cc 6 4 ≠ 0

/-- The queues after one fetched command: its entry `k` is the next completion of its queue, the queue's head has passed the command,
which is no longer outstanding; every other queue is as it was. -/
structure Answered (s t : State) (k : Compl) : Prop where
  posted : entries t k.fn k.sq = entries s k.fn k.sq ++ [k]
  fetched : ∀ q, sqOf s k.fn k.sq = some q →
    ∃ b, sqOf t k.fn k.sq = some { q with head := (q.head + 1) % q.size, compute := b }
  sqs : ∀ n, n ≠ qkey k.fn k.sq → tget t.host.sqs none n = tget s.host.sqs none n
  cqs : ∀ q n, sqOf s k.fn k.sq = some q → n ≠ qkey k.fn q.cq → tget t.host.cqs none n = tget s.host.cqs none n
  cmds : t.host.cmds = s.host.cmds.filter (fun c => !(cmdOn c k.fn k.sq && c.cid == k.cid))

/-- Beside the queues and what counts fetches and idle time, the host side is changed by `h` only, and the rest of the machine not at
all (PMON counts; a flash read of a command that has ended is dropped). -/
def HostStep (s t : State) (h : HostIf → HostIf) : Prop :=
  t = { s with
    host := h { s.host with sqs := t.host.sqs, cqs := t.host.cqs, cmds := t.host.cmds, ord := t.host.ord,
                            idleSince := t.host.idleSince, psEntry := t.host.psEntry, lastIo := t.host.lastIo },
    pmon := t.pmon, ftla := { s.ftla with reads := t.ftla.reads } }

/-- The command is answered with the entry `k`, changes the host side by `h`, and `P` holds afterwards. -/
def Ends (i : Instr) (s : State) (k : Compl) (h : HostIf → HostIf) (P : State → Prop) : Prop :=
  Gives i s fun t => Answered s t k ∧ HostStep s t h ∧ P t

/-- The command is answered with the entry `k`; outside the host side and what `undo` puts back, nothing changes. -/
def Acts (i : Instr) (s : State) (k : Compl) (undo : State → State) (P : State → Prop) : Prop :=
  Gives i s fun t => Answered s t k ∧ HostStep s (undo t) id ∧ P t

/-- An admin command ends with an error status and has no other effect than its Error Information entry. -/
def AdminFails (i : Instr) (s : State) (fn cid : Nat) (st : NStat) (dw0 : W32) : Prop :=
  Ends i s { fn := fn, sq := 0, cid := cid, stat := st, dnr := statDnr st, dw0 := dw0 }
    (fun h => { h with ctrls := tmod h.ctrls {} fn (fun c => { c with errLog := ((0, cid, st) :: c.errLog).take 256 }) })
    (fun _ => True)

/-- A submission queue has its completion queue. -/
def HasQueue (s : State) (fn sq : Nat) : Prop := ∃ q c, sqOf s fn sq = some q ∧ q.cq < 65536 ∧ cqOf s fn q.cq = some c

/-- The entry `k` follows the unconsumed entries of its queue. -/
def Posts (s t : State) (k : Compl) : Prop := entries s k.fn k.sq ++ [k] <+: entries t k.fn k.sq

/-- The port A PF or the port B PF: not a VF (R56, R64). -/
def IsPf (fn : Nat) : Prop := fn = 0 ∨ fn = 64

/-- An initiator may write the plain registers of a page: it reaches the page, and nobody's key window is open (R433). -/
def Writable (s : State) (ini : Ini) (frame : Nat) : Prop := PageOpen s ini frame ∧ (hdr s frame).win = none

/-! ## Descriptors of the engine rings -/

/-- Nothing of a dispatched descriptor has begun: no input read, no output made, no result on its way. -/
def Fresh (f : Flight) : Prop :=
  f.res = none ∧ f.fin = none ∧ f.acc = [] ∧ f.todo = [] ∧ f.full = [] ∧ f.given = 0 ∧ f.sent = 0 ∧ f.eaten = 0 ∧ f.work = none ∧ f.quar = none

/-- A dispatched descriptor of a class and op that its engine may start now (R116, R179, R367). -/
def OpReady (s : State) (r idx cls op : Nat) (f : Flight) : Prop :=
  flightOf s r idx = some f ∧ fCls f = cls ∧ fOp f = op ∧ Fresh f ∧ f.inst = none ∧ ringLive s r = true ∧ nrgHeld s r = false

/-- The descriptor's input is named by a handle or a list, and gives `bs` by the length rule (R193), with the status `st` that the rule
asks for: 0 OK where the buffers end with the declared length, 1 OK_TRUNCATED where they hold more; none of them is quarantined. -/
def OpInput (s : State) (r : Nat) (f : Flight) (st : Nat) (bs : Bytes) : Prop :=
  (fKind f = 1 ∨ fKind f = 2) ∧ st ≤ 1 ∧ (opInput s r f).status = st ∧ (opInput s r f).data = bs ∧ (opInput s r f).quar = []

/-- The engine ends the descriptor with a result. -/
def OpEnds (i : Instr) (s : State) (r idx : Nat) (P : State → ERes → Prop) : Prop :=
  Gives i s fun t => ∃ f e, flightOf t r idx = some f ∧ f.res = some e ∧ P t e

/-- The engine ends the descriptor with a failing status. -/
def OpFails (i : Instr) (s : State) (r idx : Nat) (st : BitVec 8) : Prop :=
  OpEnds i s r idx fun _ e => e.status = st ∧ e.outs = []

/-- An output of `n` bytes that goes to the completion finds a buffer now (R183, R187). -/
def OpRoom (s : State) (r : Nat) (f : Flight) (n : Nat) : Prop :=
  fNext f = 255 ∧ (allocBuf s (ringStamp s r) n (ringJob s r)).isSome = true

/-- The output is one new buffer that holds `bs` (R183, R188). -/
def OneBuffer (t : State) (e : ERes) (bs : Bytes) : Prop :=
  ∃ h, e.outs = [h] ∧ (bufData t h).take bs.length = bs ∧ (buf t (hKey h)).fill = bs.length ∧ (buf t (hKey h)).ref = 1

/-! ## Flash channels and translation -/

/-- The descriptor at place `i` of a queue may issue on a working die, its slot reads well (R278-R280, R300, R356), and nothing of FTLA
waits for the place that it leaves. -/
def Turn (s : State) (ch q i op : Nat) (d : FDesc) : Prop :=
  issuable s ch q i op = some d ∧ (die s ch (dDie d)).failed = false ∧ (die s ch (dDie d)).stuck = false ∧
  lineBad s (129 + ch) d.slot = false ∧ (flc s ch).backlog = []

/-- The die runs the descriptor, which has left its queue (R279). -/
def DieRuns (s t : State) (ch : Nat) (d : FDesc) (st : DieSt) : Prop :=
  (die t ch (dDie d)).st = st ∧ (die t ch (dDie d)).run = some { d with issued := s.now, waitT := none } ∧
  (die t ch (dDie d)).t = s.now ∧ ∀ x, x ∈ (flc t ch).queue → x ∈ (flc s ch).queue

/-- A descriptor of firmware whose completion finds a place in its queue (R276). -/
def HasRecord (s : State) (ch : Nat) (d : FDesc) : Prop :=
  d.ftla = false ∧ (flc s ch).cqProd - (flc s ch).cqCons ≠ 512 ∧ (flc s ch).held = []

/-- The channel writes the descriptor's completion with a status (R276, R277). -/
def Records (s t : State) (ch : Nat) (d : FDesc) (st : Nat) : Prop :=
  (flc t ch).cqProd = (flc s ch).cqProd + 1 ∧
  ofLe (readBytes t.dram ((flc s ch).cqBase.toNat * 8192 + (flc s ch).cqProd.toNat % 512 * 16) 4) =
    st * 2 ^ 24 + dOp d * 2 ^ 20 + dDie d * 2 ^ 16 + dTag d

/-- FTLA's next command has an opcode and can be executed; no host command waits for the journal (R334, R335). -/
def FtlaTurn (s : State) (op : Nat) : Prop :=
  s.ftla.enable = true ∧ s.ftla.sqProd ≠ s.ftla.sqCons ∧ s.ftla.cqProd + 1 ≠ s.ftla.cqCons ∧
  fld (cmdW (ftlaCmd s) 0) 31 24 = op ∧ s.host.cmds = []

/-- FTLA ends its command: the completion with status, opcode, tag and the 36-bit result, and both indices (R334). -/
def FtlaEnds (s t : State) (st result : Nat) : Prop :=
  let a := s.ftla.cqBase.toNat * 8192 + s.ftla.cqProd.toNat * 16
  let w := cmdW (ftlaCmd s) 0
  t.ftla.sqCons = s.ftla.sqCons + 1 ∧ t.ftla.cqProd = s.ftla.cqProd + 1 ∧
  ofLe (readBytes t.dram a 4) = st * 2 ^ 24 + fld w 31 24 * 2 ^ 16 + fld w 15 0 ∧
  ofLe (readBytes t.dram (a + 4) 8) = result % 2 ^ 36

end Sys2Proof.Machine
end

