-- ==== Sys2Proof/Certificates/Slice0/Obligations.lean ====
section
/-! DEFINITION. The statements for the provers. Each docstring names the rules of the spec that the statement rests on. -/

open Sys2Proof Sys2Proof.Machine

/-! ## The block -/

/-- One step with a command at the front of the queue is that command on the state with the queue's rest. -/
def Obligations.StepRunsTheFrontCommand : Prop :=
  ∀ (s : State) (i : Instr) (r : List Instr), s.pending = i :: r → step s = exec i { s with pending := r }

/-- No command of the table stops the machine: every command, whatever its operands, answers a next state in every state, and so does every
step (log entry 2: a command whose condition the spec does not meet changes nothing). One step with an empty queue is one idle microsecond: `now` advances by 1 and nothing else changes (the model's own
choice, log entry 6). -/
def Obligations.EveryStepIsSafe : Prop :=
  (∀ (i : Instr) (s : State), ∃ t, exec i s = .next t) ∧
  (∀ s : State, Safe s) ∧
  (∀ s : State, s.pending = [] → step s = .next { s with now := s.now + 1 })

/-! ## Adral-2: results (R118-R131) -/

/-- The ALU group with fn 12:6 zero (R128): the value in rd, the flags, the frame. -/
def Obligations.AluGroupResults : Prop :=
  ∀ (s : State) (c : Nat) (rd ra rb : BitVec 5), CanRun s c →
    let x := rget (core s c) ra
    let y := rget (core s c) rb
    let g := (core s c).flags
    let cin := if g.getLsbD 0 then 1 else 0
    let n := y.toNat % 64
    let lx := x.toNat % 2 ^ 18
    let hx := x.toNat / 2 ^ 18
    let ly := y.toNat % 2 ^ 18
    let hy := y.toNat / 2 ^ 18
    let done := fun (i : Instr) (v : W36) (h : BitVec 4) => WordResult i s c rd v h ((core s c).pc + 1)
    done (.iAdd c rd ra rb 0) (x + y) (withCV g (decide (2 ^ 36 ≤ x.toNat + y.toNat)) (decide ((x + y).toInt ≠ x.toInt + y.toInt))) ∧
    done (.iSub c rd ra rb 0) (x - y) (withCV g (decide (x.toNat < y.toNat)) (decide ((x - y).toInt ≠ x.toInt - y.toInt))) ∧
    done (.iAddc c rd ra rb 0) (x + y + BitVec.ofNat 36 cin) (withCV g (decide (2 ^ 36 ≤ x.toNat + y.toNat + cin))
      (decide ((x + y + BitVec.ofNat 36 cin).toInt ≠ x.toInt + y.toInt + cin))) ∧
    done (.iSubc c rd ra rb 0) (x - y - BitVec.ofNat 36 cin) (withCV g (decide (x.toNat < y.toNat + cin))
      (decide ((x - y - BitVec.ofNat 36 cin).toInt ≠ x.toInt - y.toInt - cin))) ∧
    done (.iAnd c rd ra rb 0) (x &&& y) g ∧
    done (.iOr c rd ra rb 0) (x ||| y) g ∧
    done (.iXor c rd ra rb 0) (x ^^^ y) g ∧
    done (.iAndn c rd ra rb 0) (x &&& ~~~y) g ∧
    done (.iSll c rd ra rb 0) (x <<< n) g ∧
    done (.iSrl c rd ra rb 0) (x >>> n) g ∧
    done (.iSra c rd ra rb 0) (x.sshiftRight n) g ∧
    done (.iRot c rd ra rb 0) ((x <<< (n % 36)) ||| (x >>> (36 - n % 36))) g ∧
    done (.iSlt c rd ra rb 0) (if x.toInt < y.toInt then 1 else 0) g ∧
    done (.iSltu c rd ra rb 0) (if x.toNat < y.toNat then 1 else 0) g ∧
    done (.iMinu c rd ra rb 0) (BitVec.ofNat 36 (min x.toNat y.toNat)) g ∧
    done (.iMaxu c rd ra rb 0) (BitVec.ofNat 36 (max x.toNat y.toNat)) g ∧
    done (.iMul c rd ra rb 0) (BitVec.ofNat 36 (x.toNat * y.toNat % 2 ^ 36)) g ∧
    done (.iMulhu c rd ra rb 0) (BitVec.ofNat 36 (x.toNat * y.toNat / 2 ^ 36)) g ∧
    done (.iMulh c rd ra rb 0) (BitVec.ofInt 36 (x.toInt * y.toInt / 2 ^ 36)) g ∧
    done (.iAddh c rd ra rb 0) (BitVec.ofNat 36 ((hx + hy) % 2 ^ 18 * 2 ^ 18 + (lx + ly) % 2 ^ 18)) g ∧
    done (.iSubh c rd ra rb 0) (BitVec.ofNat 36 ((hx + 2 ^ 18 - hy) % 2 ^ 18 * 2 ^ 18 + (lx + 2 ^ 18 - ly) % 2 ^ 18)) g ∧
    ((core s c).v1 = false →
      done (.iAddhs c rd ra rb 0) (BitVec.ofNat 36 (min (hx + hy) (2 ^ 18 - 1) * 2 ^ 18 + min (lx + ly) (2 ^ 18 - 1))) g) ∧
    done (.iClz c rd ra rb 0) (BitVec.ofNat 36 (36 - Nat.size x.toNat)) g ∧
    done (.iPopc c rd ra rb 0) (BitVec.ofNat 36 ((List.range 36).countP (fun i => x.getLsbD i))) g

/-- The immediate operations of the ALU (R126, R127): ADDI sets c and v, the logic immediates are zero-extended, LUI with a zero
ra field sets the high half, SHI by 0 to 35 in each of its four kinds. -/
def Obligations.ImmediateResults : Prop :=
  ∀ (s : State) (c : Nat) (rd ra : BitVec 5) (imm : BitVec 18) (n : Nat), CanRun s c → n ≤ 35 →
    let x := rget (core s c) ra
    let y := imm.signExtend 36
    let g := (core s c).flags
    let done := fun (i : Instr) (v : W36) (h : BitVec 4) => WordResult i s c rd v h ((core s c).pc + 1)
    done (.iAddi c rd ra imm) (x + y)
      (withCV g (decide (2 ^ 36 ≤ x.toNat + y.toNat)) (decide ((x + y).toInt ≠ x.toInt + imm.toInt))) ∧
    done (.iAndi c rd ra imm) (x &&& BitVec.ofNat 36 imm.toNat) g ∧
    done (.iOri c rd ra imm) (x ||| BitVec.ofNat 36 imm.toNat) g ∧
    done (.iXori c rd ra imm) (x ^^^ BitVec.ofNat 36 imm.toNat) g ∧
    done (.iLui c rd 0 imm) (BitVec.ofNat 36 (imm.toNat * 2 ^ 18)) g ∧
    done (.iShi c rd ra (BitVec.ofNat 18 n)) (x <<< n) g ∧
    done (.iShi c rd ra (BitVec.ofNat 18 (65536 + n))) (x >>> n) g ∧
    done (.iShi c rd ra (BitVec.ofNat 18 (131072 + n))) (x.sshiftRight n) g ∧
    done (.iShi c rd ra (BitVec.ofNat 18 (196608 + n))) ((x <<< n) ||| (x >>> (36 - n))) g

/-- The packed compares TCMP and TCMPI (R127, R129): each lane's tag is the old tag combined with the condition on its byte, for
every condition and combine code, the bytes stay, t is the OR of the tags. -/
def Obligations.PackedCompareResults : Prop :=
  ∀ (s : State) (c : Nat) (rd ra rb : BitVec 5) (cond comb : Nat), CanRun s c → cond < 8 → comb < 4 →
    let byte := fun (w : W36) (n : Nat) => (w >>> (8 * n)).setWidth 8
    let a := rget (core s c) ra
    let b := rget (core s c) rb
    -- condition on the lane's two bytes p and q, with bytes 0 and 1 of rb for the range conditions
    let conds : List (Byte → Byte → Byte → Byte → Bool) :=
      [fun p q _ _ => decide (p = q), fun p q _ _ => decide (p ≠ q), fun p q _ _ => p.ult q, fun p q _ _ => q.ule p,
       fun p q _ _ => p.slt q, fun p q _ _ => q.sle p, fun p _ lo hi => lo.ule p && p.ule hi,
       fun p _ lo hi => p.ult lo || hi.ult p]
    let combs : List (Bool → Bool → Bool) :=
      [fun _ h => h, fun o h => o && h, fun o h => o || h, fun o h => o && !h]
    let hit := fun (n : Nat) (q : Byte) => (conds.getD cond (fun _ _ _ _ => false)) (byte a n) q (byte b 0) (byte b 1)
    let tag := fun (n : Nat) (h : Bool) => (combs.getD comb (fun _ _ => false)) (a.getLsbD (32 + n)) h
    LaneResult (.iTcmp c rd ra rb (BitVec.ofNat 7 (comb * 8 + cond))) s c rd true (byte a) (fun n => tag n (hit n (byte b n))) ∧
    (cond < 4 → ∀ k : Byte, LaneResult (.iTcmpi c rd ra (BitVec.ofNat 18 (comb * 1024 + cond * 256 + k.toNat))) s c rd true
      (byte a) (fun n => tag n (hit n k)))

/-- The nonet group apart from TCMP (R129), lane by lane, with modifier bits that the instruction uses and zeros elsewhere. -/
def Obligations.NonetGroupResults : Prop :=
  ∀ (s : State) (c : Nat) (rd ra rb : BitVec 5) (k : Nat) (t4 : BitVec 4), CanRun s c → k < 4 →
    let byte := fun (w : W36) (n : Nat) => (w >>> (8 * n)).setWidth 8
    let tag := fun (w : W36) (n : Nat) => w.getLsbD (32 + n)
    let a := rget (core s c) ra
    let b := rget (core s c) rb
    let g := (core s c).flags
    let pc := (core s c).pc + 1
    let cnt := (if tag a 0 then 1 else 0) + (if tag a 1 then 1 else 0) + (if tag a 2 then 1 else 0) + (if tag a 3 then 1 else 0)
    -- nonet n of a followed by b
    let seqB := fun (n : Nat) => if n < 4 then byte a n else byte b (n - 4)
    let seqT := fun (n : Nat) => if n < 4 then tag a n else tag b (n - 4)
    -- the bytes whose tag is `w`, in lane order
    let pick := fun (w : Bool) => ((List.range 4).filter (fun n => tag a n == w)).map (byte a)
    LaneResult (.iTset c rd ra rb (BitVec.ofNat 7 t4.toNat)) s c rd true (byte a) (fun n => t4.getLsbD n) ∧
    LaneResult (.iTand c rd ra rb 0) s c rd true (byte a) (fun n => tag a n && tag b n) ∧
    LaneResult (.iTor c rd ra rb 0) s c rd true (byte a) (fun n => tag a n || tag b n) ∧
    LaneResult (.iTxor c rd ra rb 0) s c rd true (byte a) (fun n => xor (tag a n) (tag b n)) ∧
    LaneResult (.iTandn c rd ra rb 0) s c rd true (byte a) (fun n => tag a n && !tag b n) ∧
    WordResult (.iTget c rd ra rb 0) s c rd (a >>> 32) g pc ∧
    LaneResult (.iTput c rd ra rb 0) s c rd true (byte a) (fun n => b.getLsbD n) ∧
    WordResult (.iTcnta c rd ra rb 0) s c rd (b + BitVec.ofNat 36 cnt) g pc ∧
    WordResult (.iTfirst c rd ra rb 0) s c rd
      (if tag a 0 then 0 else if tag a 1 then 1 else if tag a 2 then 2 else if tag a 3 then 3 else 4) g pc ∧
    LaneResult (.iTsprd c rd ra rb 0) s c rd true (byte a) (fun _ => tag a 0 || tag a 1 || tag a 2 || tag a 3) ∧
    LaneResult (.iNext c rd ra rb (BitVec.ofNat 7 k)) s c rd false (fun n => if n = 0 then byte a k else 0)
      (fun n => if n = 0 then tag a k else false) ∧
    LaneResult (.iNins c rd ra rb (BitVec.ofNat 7 k)) s c rd false (fun n => if n = k then byte b 0 else byte a n)
      (fun n => if n = k then tag b 0 else tag a n) ∧
    LaneResult (.iNrot c rd ra rb (BitVec.ofNat 7 k)) s c rd false (fun n => byte a ((n + 4 - k) % 4)) (fun n => tag a ((n + 4 - k) % 4)) ∧
    ((core s c).v1 = false →
      LaneResult (.iNaln c rd ra rb (BitVec.ofNat 7 k)) s c rd false (fun n => seqB (n + k)) (fun n => seqT (n + k))) ∧
    (∀ w : Bool, LaneResult (.iPackt c rd ra rb (if w then 0 else 1)) s c rd true (fun n => (pick w).getD n 0)
      (fun n => decide (n < (pick w).length))) ∧
    LaneResult (.iNbcast c rd ra rb 0) s c rd false (fun _ => byte a 0) (fun _ => false)

/-- CLS in tag mode and in value mode, for every table, mask and combine code (R130); CLSW: the eight entries of the table from entry
(rb 7:3) × 8 take the nibbles of ra, no other entry, no register and no flag changes (R131); nonzero values in the zero fields of both are illegal. -/
def Obligations.ClassifyResults : Prop :=
  (∀ (s : State) (c : Nat) (rd ra : BitVec 5) (t comb : Nat) (mask : BitVec 4), CanRun s c → t < 8 → comb < 4 →
     let byte := fun (w : W36) (n : Nat) => (w >>> (8 * n)).setWidth 8
     let a := rget (core s c) ra
     let entry := fun (n : Nat) => tget (core s c).cls 0 (t * 256 + (byte a n).toNat) &&& mask
     let combs : List (Bool → Bool → Bool) := [fun _ h => h, fun o h => o && h, fun o h => o || h, fun o h => o && !h]
     let fn := t + mask.toNat * 8 + comb * 128
     LaneResult (.iCls c rd ra 0 (BitVec.ofNat 13 fn)) s c rd true (byte a)
       (fun n => (combs.getD comb (fun _ _ => false)) (a.getLsbD (32 + n)) (decide (entry n ≠ 0))) ∧
     LaneResult (.iCls c rd ra 0 (BitVec.ofNat 13 (512 + fn))) s c rd false (fun n => (entry n).setWidth 8) (fun _ => false)) ∧
  (∀ (s : State) (c : Nat) (ra rb : BitVec 5) (t : Nat), CanRun s c → t < 8 →
     let a := rget (core s c) ra
     let e := t * 32 + (rget (core s c) rb).toNat % 256 / 8
     (Gives (.iClsw c 0 ra rb (BitVec.ofNat 13 t)) s fun u =>
       OnlyCore s u c ∧
       core u c = { core s c with cls := (core u c).cls, pc := (core s c).pc + 1, cnt := (core u c).cnt, cyc := (core u c).cyc,
                                  stalled := false, routine := none } ∧
       ∀ n, tget (core u c).cls 0 n = if n / 8 = e then (a >>> (4 * (n % 8))).setWidth 4 else tget (core s c).cls 0 n) ∧
     ∀ (rd : BitVec 5) (fn : BitVec 13), (rd ≠ 0 ∨ 7 < fn.toNat → WordTraps (.iClsw c rd ra rb fn) s c 1 0 0 0) ∧
       (rb ≠ 0 ∨ 1023 < fn.toNat → WordTraps (.iCls c rd ra rb fn) s c 1 0 0 0))

/-! ## Adral-2: branches, illegal words, traps -/

/-- Branches and jumps (R126, R127): a taken branch adds the sign-extended offset to the pc of its word, one not taken goes on;
JAL and JALR link pc + 1, and JALR takes its target from ra before rd is written. -/
def Obligations.BranchResults : Prop :=
  ∀ (s : State) (c : Nat) (rd ra rb : BitVec 5) (off imm : BitVec 18) (off23 : BitVec 23) (n : Nat), CanRun s c → n < 8 →
    let x := rget (core s c) ra
    let y := rget (core s c) rb
    let g := (core s c).flags
    let pc := (core s c).pc
    let goes := fun (i : Instr) (taken : Bool) => WordResult i s c 0 0 g (if taken then pc + off.signExtend 36 else pc + 1)
    goes (.iBeq c ra rb off) (decide (x = y)) ∧
    goes (.iBne c ra rb off) (decide (x ≠ y)) ∧
    goes (.iBlt c ra rb off) (x.slt y) ∧
    goes (.iBge c ra rb off) (!x.slt y) ∧
    goes (.iBltu c ra rb off) (x.ult y) ∧
    goes (.iBgeu c ra rb off) (!x.ult y) ∧
    goes (.iBf c (BitVec.ofNat 5 n) 0 off) (if n % 2 = 0 then g.getLsbD (n / 2) else !g.getLsbD (n / 2)) ∧
    WordResult (.iJal c rd off23) s c rd (pc + 1) g (pc + off23.signExtend 36) ∧
    WordResult (.iJalr c rd ra imm) s c rd (pc + 1) g (x + imm.signExtend 36)

/-- A nonzero value in a field that the operation marks as zero, an undefined mode or selector, the items of R147 under a version 1 image,
and pairs that the encoding or the pairing rules forbid take the illegal-instruction trap, with neither slot of a pair taking effect
(from R125, R126, R128-R133, R140, R143, R147, R157, each in part). The model's own readings: log entry 10. -/
def Obligations.IllegalWordsTrap : Prop :=
  (∀ (s : State) (c : Nat) (rd ra rb : BitVec 5) (m : BitVec 7) (imm off : BitVec 18) (fn off13 : BitVec 13) (mode : BitVec 3)
     (lane : BitVec 2), CanRun s c →
     let ill := fun (i : Instr) => WordTraps i s c 1 0 0 0
     (m ≠ 0 → ∀ i ∈ [Instr.iAdd c rd ra rb m, .iSub c rd ra rb m, .iAddc c rd ra rb m, .iSubc c rd ra rb m, .iAnd c rd ra rb m,
       .iOr c rd ra rb m, .iXor c rd ra rb m, .iAndn c rd ra rb m, .iSll c rd ra rb m, .iSrl c rd ra rb m, .iSra c rd ra rb m,
       .iRot c rd ra rb m, .iSlt c rd ra rb m, .iSltu c rd ra rb m, .iMinu c rd ra rb m, .iMaxu c rd ra rb m, .iMul c rd ra rb m,
       .iMulhu c rd ra rb m, .iMulh c rd ra rb m, .iAddh c rd ra rb m, .iSubh c rd ra rb m, .iAddhs c rd ra rb m,
       .iClz c rd ra rb m, .iPopc c rd ra rb m, .iTand c rd ra rb m, .iTor c rd ra rb m, .iTxor c rd ra rb m, .iTandn c rd ra rb m,
       .iTget c rd ra rb m, .iTput c rd ra rb m, .iTcnta c rd ra rb m, .iTfirst c rd ra rb m, .iTsprd c rd ra rb m,
       .iNbcast c rd ra rb m, .iDbr c rd ra rb m, .iWfe c rd ra rb m, .iSig c rd ra rb m, .iFence c rd ra rb m,
       .iMff c rd ra rb m, .iMtf c rd ra rb m, .iEnd c rd ra rb m], ill i) ∧
     (31 < m.toNat → ill (.iTcmp c rd ra rb m)) ∧
     (15 < m.toNat → ill (.iTset c rd ra rb m)) ∧
     (3 < m.toNat → ill (.iNext c rd ra rb m) ∧ ill (.iNins c rd ra rb m) ∧ ill (.iNrot c rd ra rb m) ∧ ill (.iNaln c rd ra rb m)) ∧
     (1 < m.toNat → ill (.iPackt c rd ra rb m)) ∧
     (5 < m.toNat → ill (.iMfs c rd ra rb m)) ∧
     (9 < m.toNat → ill (.iRdc c rd ra rb m)) ∧
     (rd ≠ 0 → ill (.iDbr c rd ra rb m) ∧ ill (.iClsw c rd ra rb fn) ∧ ill (.iMtc c rd ra rb fn)) ∧
     (ra ≠ 0 → ill (.iLui c rd ra imm) ∧ ill (.iMfc c rd ra rb fn)) ∧
     (rb ≠ 0 → ill (.iCls c rd ra rb fn) ∧ ill (.iBf c ra rb off) ∧ ill (.iMfc c rd ra rb fn) ∧ ill (.iMtc c rd ra rb fn)) ∧
     (imm.toNat / 64 % 1024 ≠ 0 ∨ 35 < imm.toNat % 64 → ill (.iShi c rd ra imm)) ∧
     (4095 < imm.toNat → ill (.iTcmpi c rd ra imm)) ∧
     (1023 < fn.toNat → ill (.iCls c rd ra rb fn)) ∧
     (7 < fn.toNat → ill (.iClsw c rd ra rb fn)) ∧
     (1 < fn.toNat → ill (.iStp c rd ra rb fn)) ∧
     (63 < fn.toNat → ill (.iMfc c rd ra rb fn) ∧ ill (.iMtc c rd ra rb fn)) ∧
     (7 < ra.toNat → ill (.iBf c ra rb off)) ∧
     (4 < mode.toNat ∨ (mode = 4 ∧ lane ≠ 0) → ill (.iLd c rd ra mode lane off13)) ∧
     (3 < mode.toNat → ill (.iSt c rd ra mode lane off13)) ∧
     (rd ≠ 0 ∨ ra ≠ 0 ∨ rb ≠ 0 ∨ fn ≠ 0 → ill (.iEret c rd ra rb fn) ∧ ill (.iHalt c rd ra rb fn)) ∧
     ((rget (core s c) ra).toNat / 2 ^ 33 ≠ 0 ∨ (rget (core s c) ra = 0 ∧ rget (core s c) rb = 0) → ill (.iWfe c rd ra rb 0))) ∧
  (∀ (s : State) (c : Nat) (rd ra rb : BitVec 5) (m : BitVec 7) (fn off13 : BitVec 13) (lane : BitVec 2) (idx : BitVec 6)
     (rsvd : Bool) (a b : BitVec 17), CanRun s c → (core s c).v1 = true →
     WordTraps (.iAddhs c rd ra rb m) s c 1 0 0 0 ∧ WordTraps (.iNaln c rd ra rb m) s c 1 0 0 0 ∧
     WordTraps (.iStp c rd ra rb fn) s c 1 0 0 0 ∧ WordTraps (.iRslt c rd ra rb) s c 1 0 0 0 ∧
     WordTraps (.iRsn c rd ra rb) s c 1 0 0 0 ∧ WordTraps (.iAswp c rd ra rb) s c 1 0 0 0 ∧
     WordTraps (.iLd c rd ra 4 lane off13) s c 1 0 0 0 ∧ WordTraps (.customInstruction c idx rd ra rb fn) s c 1 0 0 0 ∧
     WordTraps (.pairedWord c rsvd a b) s c 1 0 3 0) ∧
  (∀ (s : State) (c : Nat) (a b : BitVec 17) (rd ra rb : BitVec 5), CanRun s c → (core s c).v1 = false →
     let mov := fun (d x : BitVec 5) => BitVec.ofNat 17 (4096 + d.toNat * 128 + x.toNat * 4)
     let load := fun (d x : BitVec 5) => BitVec.ofNat 17 (16 * 4096 + d.toNat * 128 + x.toNat * 4)
     WordTraps (.pairedWord c true a b) s c 1 0 3 0 ∧
     (25 < a.toNat / 4096 → WordTraps (.pairedWord c false a b) s c 1 0 1 0) ∧
     (25 < b.toNat / 4096 → WordTraps (.pairedWord c false 0 b) s c 1 0 2 0) ∧
     (a.toNat / 4096 = 0 → a ≠ 0 → WordTraps (.pairedWord c false a b) s c 1 0 1 0) ∧
     WordTraps (.pairedWord c false (load rd rd) b) s c 1 0 1 0 ∧
     (rd ≠ 0 → WordTraps (.pairedWord c false (mov rd ra) (mov rd rb)) s c 1 0 3 0) ∧
     (rd ≠ ra → rb ≠ ra → WordTraps (.pairedWord c false (load rd ra) (load rb ra)) s c 1 0 3 0) ∧
     (∀ imm : BitVec 7, WordTraps (.pairedWord c false (BitVec.ofNat 17 (21 * 4096 + rd.toNat * 128 + imm.toNat)) 0) s c 1 0 3 0))

/-- The software trap (R157, R158, R160): TRAP with code `m` enters the handler with cause 8 and the code as info; in user mode without a
handler the job ends, in system mode inside a trap the core halts. ERET: the pc, the flags and the busy bit come back from the registers
of the mode; HALT in system mode halts. The model's own readings: log entry 53. -/
def Obligations.SoftwareTrapAndReturn : Prop :=
  (∀ (s : State) (c : Nat) (rd ra rb : BitVec 5) (m : BitVec 7), CanRun s c →
     let k := core s c
     WordTraps (.iTrap c rd ra rb m) s c 8 m.toNat 0 0 ∧
     (∀ j v, k.user = true → (k.utvec = 0 ∨ k.ucause.getLsbD 31 = true) → k.job = some j → job s j = some v → v.st ≠ .ending →
       c ∈ v.cores → ¬ LimitPassed s v → Gives (.iTrap c rd ra rb m) s fun t =>
         (core t c).trap = BitVec.ofNat 32 (m.toNat * 2 ^ 20 + 8) ∧ (core t c).trapPc = k.pc ∧ (core t c).st = .stopping ∧
         job t j = some { v with st := .ending, result := some (.internalError, BitVec.ofNat 32 (c * 256 + 8)) }) ∧
     (k.user = false → k.sstatus.getLsbD 1 = true → s.flt.latched = [] → Gives (.iTrap c rd ra rb m) s fun t =>
       (core t c).st = .halted ∧ (core t c).out = true ∧ (core t c).trapPc = k.pc ∧
       ∃ t0 rs, t.flt.window = some (t0, rs) ∧ ∃ e ∈ rs, e.1.cls = 8 ∧ e.1.inst = c)) ∧
  (∀ (s : State) (c : Nat), CanRun s c →
     let k := core s c
     let frame := fun (t : State) => OnlyCore s t c ∧ KeepsRegs k (core t c)
     (k.user = true → k.ucause.getLsbD 31 = true → Gives (.iEret c 0 0 0 0) s fun t => frame t ∧
       (core t c).pc = k.uepc ∧ (∀ n, n < 4 → (core t c).flags.getLsbD n = k.ucause.getLsbD (32 + n)) ∧
       ∀ n, (core t c).ucause.getLsbD n = (k.ucause.getLsbD n && decide (n ≠ 31))) ∧
     (k.user = false → Gives (.iEret c 0 0 0 0) s fun t => frame t ∧
       (core t c).pc = k.sepc ∧ (∀ n, n < 4 → (core t c).flags.getLsbD n = k.scause.getLsbD (32 + n)) ∧
       (core t c).sstatus.getLsbD 1 = false ∧ (core t c).sstatus.getLsbD 0 = k.sstatus.getLsbD 0) ∧
     (k.user = false → Gives (.iHalt c 0 0 0 0) s fun t => frame t ∧
       (core t c).st = .halted ∧ (core t c).pc = k.pc + 1 ∧ (core t c).flags = k.flags))

/-- What user mode may not do takes the privilege trap, cause 2 (R135, R156): HALT; ERET outside a handler; RDC, and MFC or MTC of a
counter configuration, while POL_PERM.cnt_user = 0; MFC of a counter value; MFC or MTC of the sampling area without POL_PERM.sample;
MFC or MTC of a system register. The model's own readings: log entries 10, 53. -/
def Obligations.PrivilegeTraps : Prop :=
  ∀ (s : State) (c : Nat) (rd ra rb : BitVec 5) (m : BitVec 7) (n : Nat), CanRun s c → HasHandler (core s c) →
    let perm := (polder s (core s c).polder).perm
    let priv := fun (i : Instr) => WordTraps i s c 2 0 0 0
    priv (.iHalt c 0 0 0 0) ∧
    priv (.iEret c 0 0 0 0) ∧
    (perm.getLsbD 0 = false → m.toNat ≤ 9 → priv (.iRdc c rd ra rb m)) ∧
    (perm.getLsbD 0 = false → (8 ≤ n ∧ n < 16) ∨ n = 24 →
      priv (.iMfc c rd 0 0 (BitVec.ofNat 13 n)) ∧ priv (.iMtc c 0 ra 0 (BitVec.ofNat 13 n))) ∧
    (perm.getLsbD 0 = false → 16 ≤ n → n < 24 → priv (.iMtc c 0 ra 0 (BitVec.ofNat 13 n))) ∧
    (16 ≤ n → n < 24 → priv (.iMfc c rd 0 0 (BitVec.ofNat 13 n))) ∧
    (perm.getLsbD 1 = false → 25 ≤ n → n ≤ 28 →
      priv (.iMfc c rd 0 0 (BitVec.ofNat 13 n)) ∧ priv (.iMtc c 0 ra 0 (BitVec.ofNat 13 n))) ∧
    (32 ≤ n → n ≤ 37 → priv (.iMfc c rd 0 0 (BitVec.ofNat 13 n)) ∧ priv (.iMtc c 0 ra 0 (BitVec.ofNat 13 n)))

/-! ## Adral-2: memory -/

/-- LD from local data memory in modes W, B, BS, BR and U (R132): the value, and nothing else of the machine changes.
The model's own readings: log entry 54. -/
def Obligations.LocalLoads : Prop :=
  ∀ (s : State) (c : Nat) (rd ra : BitVec 5) (lane : BitVec 2) (off : BitVec 13), CanRun s c →
    let k := core s c
    let a := rget k ra + off.signExtend 36
    let w := tget k.ldm 0 a.toNat
    let b : Byte := (w >>> (8 * lane.toNat)).setWidth 8
    let good := fun (x : Nat) => x < 131072 ∧ protect s k x false = none ∧ Intact s (ldmCw c x) ∧ lineBad s c (x / 8) = false
    (good a.toNat →
      WordResult (.iLd c rd ra 0 lane off) s c rd w k.flags (k.pc + 1) ∧
      WordResult (.iLd c rd ra 1 lane off) s c rd (b.setWidth 36) k.flags (k.pc + 1) ∧
      WordResult (.iLd c rd ra 2 lane off) s c rd (b.signExtend 36) k.flags (k.pc + 1) ∧
      WordResult (.iLd c rd ra 3 lane off) s c rd (BitVec.ofNat 36 (b.toNat * 0x01010101)) k.flags (k.pc + 1)) ∧
    (k.v1 = false → (∀ i, i < 4 → good ((a.toNat + i) / 4)) →
      LaneResult (.iLd c rd ra 4 0 off) s c rd false (fun i => ldmByte k (a.toNat + i)) (fun _ => false))

/-- ST to local data memory in modes W, B, T and N (R132): the lanes that the mode selects take the data's nonets, nothing else changes;
STP (R122, R127, R129): the selected bytes go in lane order to the cursor in rd and upward, each with tag 0.
The model's own readings: log entry 54. -/
def Obligations.LocalStores : Prop :=
  (∀ (s : State) (c : Nat) (rd ra : BitVec 5) (mode : BitVec 3) (lane : BitVec 2) (off : BitVec 13), CanRun s c →
     let k := core s c
     let a := rget k ra + off.signExtend 36
     let d := rget k rd
     let sel := fun (n : Nat) => if mode = 0 then true else if mode = 1 then decide (n = lane.toNat)
       else if mode = 2 then d.getLsbD (32 + n) else !d.getLsbD (32 + n)
     mode.toNat < 4 → a.toNat < 131072 → protect s k a.toNat true = none → Intact s (ldmCw c a.toNat) →
     Gives (.iSt c rd ra mode lane off) s fun t => OnlyCore s t c ∧
       core t c = { k with ldm := (core t c).ldm, pc := k.pc + 1, cnt := (core t c).cnt, cyc := (core t c).cyc,
                           stalled := false, routine := none } ∧
       ∀ x, ldmByte (core t c) x = (if x / 4 = a.toNat ∧ sel (x % 4) = true then
             (if mode = 1 then d.setWidth 8 else (d >>> (8 * (x % 4))).setWidth 8) else ldmByte k x) ∧
           ldmTag (core t c) x = (if x / 4 = a.toNat ∧ sel (x % 4) = true then
             (if mode = 1 then false else d.getLsbD (32 + x % 4)) else ldmTag k x)) ∧
  (∀ (s : State) (c : Nat) (rd ra rb : BitVec 5) (untagged : Bool), CanRun s c →
     let k := core s c
     let a := rget k ra
     let cur := rget k rd
     let bs : Bytes := ((List.range 4).filter (fun n => a.getLsbD (32 + n) != untagged)).map (fun n => (a >>> (8 * n)).setWidth 8)
     let inside := fun (x : Nat) => cur.toNat ≤ x ∧ x < cur.toNat + bs.length
     k.v1 = false → (∀ x, inside x → x / 4 < 131072 ∧ protect s k (x / 4) true = none ∧ Intact s (ldmCw c (x / 4))) →
     Gives (.iStp c rd ra rb (if untagged then 1 else 0)) s fun t => OnlyCore s t c ∧
       WritesReg k (core t c) rd (cur + BitVec.ofNat 36 bs.length) ∧ (core t c).flags = k.flags ∧ (core t c).pc = k.pc + 1 ∧
       (∀ i, i < bs.length → ldmByte (core t c) (cur.toNat + i) = bs.getD i 0 ∧ ldmTag (core t c) (cur.toNat + i) = false) ∧
       ∀ x, ¬ inside x → ldmByte (core t c) x = ldmByte k x ∧ ldmTag (core t c) x = ldmTag k x)

/-- LD from a buffer of the shared buffer SRAM or from the DRAM window in modes W, B, BS and BR (R121, R132): tags read as zero, no
byte of either memory changes. The model's own readings: log entries 8, 54. -/
def Obligations.SharedLoads : Prop :=
  ∀ (s : State) (c : Nat) (rd ra : BitVec 5) (lane : BitVec 2) (off : BitVec 13) (mode : BitVec 3), CanRun s c →
    let k := core s c
    let a := rget k ra + off.signExtend 36
    let w := fun (n : Nat) => (sharedByte s a.toNat n).toNat
    let b := sharedByte s a.toNat lane.toNat
    let v : W36 := if mode = 0 then BitVec.ofNat 36 (w 0 + w 1 * 2 ^ 8 + w 2 * 2 ^ 16 + w 3 * 2 ^ 24)
      else if mode = 1 then b.setWidth 36 else if mode = 2 then b.signExtend 36 else BitVec.ofNat 36 (b.toNat * 0x01010101)
    mode.toNat < 4 → SharedWord s c a.toNat false →
    Gives (.iLd c rd ra mode lane off) s fun t =>
      WritesReg k (core t c) rd v ∧ (core t c).flags = k.flags ∧ (core t c).pc = k.pc + 1 ∧ SameContext k (core t c) ∧
      (∀ d, d ≠ c → core t d = core s d) ∧ t.bpm = s.bpm ∧ t.dram = s.dram ∧ t.void = s.void

/-- ST to a buffer of the shared buffer SRAM or to the DRAM window (R121, R132): the selected lanes of the word take the data's
bytes, every other byte of both memories reads as before; a store of polder 0 into a free buffer is discarded (R186). The model's
own readings: log entry 54. -/
def Obligations.SharedStores : Prop :=
  ∀ (s : State) (c : Nat) (rd ra : BitVec 5) (mode : BitVec 3) (lane : BitVec 2) (off : BitVec 13), CanRun s c →
    let k := core s c
    let a := rget k ra + off.signExtend 36
    let d := rget k rd
    let sel := fun (n : Nat) => if mode = 0 then true else if mode = 1 then decide (n = lane.toNat)
      else if mode = 2 then d.getLsbD (32 + n) else !d.getLsbD (32 + n)
    let byte := fun (n : Nat) => if mode = 1 then d.setWidth 8 else (d >>> (8 * n)).setWidth 8
    let hit := fun (r : Region) (base x : Nat) =>
      regionOf a.toNat = r ∧ base + x / 4 = a.toNat ∧ sel (x % 4) = true ∧ (r = .sram → freeAt s x = false)
    mode.toNat < 4 → SharedWord s c a.toNat true →
    Gives (.iSt c rd ra mode lane off) s fun t =>
      SameContext k (core t c) ∧ KeepsRegs k (core t c) ∧ (core t c).flags = k.flags ∧ (core t c).pc = k.pc + 1 ∧
      (∀ d, d ≠ c → core t d = core s d) ∧
      (∀ x, (hit .sram 16777216 x → readByte t.bpm.sram x = byte (x % 4)) ∧
        (¬ hit .sram 16777216 x → readByte t.bpm.sram x = readByte s.bpm.sram x)) ∧
      (∀ x, (hit .dram 8589934592 x → dramByte t x = byte (x % 4)) ∧
        (¬ hit .dram 8589934592 x → dramByte t x = dramByte s x))

/-- AADD and ASWP on the shared buffer SRAM or the DRAM window (R134): rd takes the old word, memory takes old + rb wrapping at 32
bits, or rb, but for a free buffer, which discards the write (R186); no other byte changes. The model's own readings: log entry 54. -/
def Obligations.Atomics : Prop :=
  ∀ (s : State) (c : Nat) (rd ra rb : BitVec 5), CanRun s c →
    let k := core s c
    let a := (rget k ra).toNat
    let w := fun (n : Nat) => (sharedByte s a n).toNat
    let old := w 0 + w 1 * 2 ^ 8 + w 2 * 2 ^ 16 + w 3 * 2 ^ 24
    let gives := fun (i : Instr) (new : Nat) => Gives i s fun t =>
      WritesReg k (core t c) rd (BitVec.ofNat 36 old) ∧ (core t c).flags = k.flags ∧ (core t c).pc = k.pc + 1 ∧
      (∀ n, n < 4 → sharedByte t a n = if regionOf a = .sram ∧ freeAt s ((a - 16777216) * 4) = true then sharedByte s a n
        else BitVec.ofNat 8 (new / 2 ^ (8 * n))) ∧
      (∀ x, ¬ (regionOf a = .sram ∧ 16777216 + x / 4 = a) → readByte t.bpm.sram x = readByte s.bpm.sram x) ∧
      (∀ x, ¬ (regionOf a = .dram ∧ 8589934592 + x / 4 = a) → dramByte t x = dramByte s x)
    SharedWord s c a false → SharedWord s c a true →
    gives (.iAadd c rd ra rb) ((old + (rget k rb).toNat) % 2 ^ 32) ∧
    (k.v1 = false → gives (.iAswp c rd ra rb) ((rget k rb).toNat % 2 ^ 32))

/-- Where an access is not granted or not allowed (R132, R134, R152, R157): LD and ST of a word without a grant take the trap of the
protection unit with the address as value; an atomic on a granted word of local data memory takes the access-mode trap; a load that
meets a dike breach takes the bus-error trap. The model's own readings: log entry 54. -/
def Obligations.MemoryTraps : Prop :=
  ∀ (s : State) (c : Nat) (rd ra rb : BitVec 5) (mode : BitVec 3) (lane : BitVec 2) (off : BitVec 13) (n o b : Nat), CanRun s c →
    let k := core s c
    let a := rget k ra + off.signExtend 36
    let x := rget k ra
    (mode.toNat < 4 → protect s k a.toNat false = some n → WordTraps (.iLd c rd ra mode lane off) s c n 0 0 a) ∧
    (mode.toNat < 4 → protect s k a.toNat true = some n → WordTraps (.iSt c rd ra mode lane off) s c n 0 0 a) ∧
    (x.toNat < 131072 → protect s k x.toNat false = none → protect s k x.toNat true = none →
      WordTraps (.iAadd c rd ra rb) s c 5 0 0 x ∧ (k.v1 = false → WordTraps (.iAswp c rd ra rb) s c 5 0 0 x)) ∧
    (mode.toNat < 4 → regionOf a.toNat = .dram → protect s k a.toNat false = none → HasHandler k →
      NoStop s c → curBreach s k.polder (4 * a.toNat) = some (b, o) → Gives (.iLd c rd ra mode lane off) s fun t =>
        UserEntry k (core t c) 6 0 0 a ∧ t.dram = s.dram ∧ t.bpm = s.bpm)

/-! ## Adral-2: system group, search, pairs, custom instructions -/

/-- DBR (R136, R176, R178) takes the producer index of a ring of the window, or breaches; WFE, WFE_TIMEOUT, SIG and FENCE (R124, R137): WFE
returns and clears the masked pending events at once, else the core waits, a timeout ends the wait, SIG sets the event of the target.
The model's own readings: log entries 54, 55. -/
def Obligations.DoorbellAndEventWords : Prop :=
  (∀ (s : State) (c : Nat) (ra rb : BitVec 5) (r : Nat), CanRun s c →
     let k := core s c
     let n := if k.polder = 0 then (rget k ra).toNat % 256 else (rget k ra).toNat % 64
     let p : BitVec 16 := (rget k rb).setWidth 16
     let who := doorHolder k
     let g := ring s r
     let mine := g.holder = .free ∨ g.holder = who
     let goesOn := fun (t : State) => KeepsRegs k (core t c) ∧ (core t c).flags = k.flags ∧ (core t c).pc = k.pc + 1
     coreHeld s k = false →
     (absRing s k.polder n = some r → Gives (.iDbr c 0 ra rb 0) s fun t => goesOn t ∧ (∀ q, q ≠ r → ring t q = ring s q) ∧
       (¬ mine → ring t r = { g with foreign := true }) ∧
       (mine → (p - g.cons).toNat ≤ 32 → ring t r = { g with holder := who, prod := p }) ∧
       (mine → 32 < (p - g.cons).toNat → p = g.prod → ring t r = { g with holder := who }) ∧
       (mine → 32 < (p - g.cons).toNat → p ≠ g.prod →
         ring t r = { g with holder := who, halted := true, cause := 3, concerned := p })) ∧
     (absRing s k.polder n = none → (polder s k.polder).st ≠ .teardown → Gives (.iDbr c 0 ra rb 0) s fun t => goesOn t ∧
       t.bpm = s.bpm ∧ (polder t k.polder).breaches = satInc (polder s k.polder).breaches)) ∧
  (∀ (s : State) (c : Nat) (rd ra rb : BitVec 5),
     let k := core s c
     let a := rget k ra
     let b := rget k rb
     let m : BitVec 33 := a.setWidth 33
     let goesOn := fun (t : State) => (core t c).flags = k.flags ∧ (core t c).pc = k.pc + 1
     (CanRun s c → a.toNat < 2 ^ 33 → ¬ (a = 0 ∧ b = 0) → k.pend &&& m ≠ 0 → Gives (.iWfe c rd ra rb 0) s fun t =>
       goesOn t ∧ WritesReg k (core t c) rd ((k.pend &&& m).setWidth 36) ∧ (core t c).pend = k.pend &&& ~~~m ∧
       (core t c).st = .running) ∧
     (CanRun s c → a.toNat < 2 ^ 33 → ¬ (a = 0 ∧ b = 0) → k.pend &&& m = 0 → Gives (.iWfe c rd ra rb 0) s fun t =>
       goesOn t ∧ KeepsRegs k (core t c) ∧ (core t c).pend = k.pend ∧ (core t c).st = .waiting ∧
       (core t c).wfe = some { mask := m, rd := rd, timeout := b.toNat }) ∧
     (∀ w, k.st = .waiting → k.out = false → k.wfe = some w → w.timeout ≠ 0 → Gives (.wfeTimeout c) s fun t =>
       WritesReg k (core t c) w.rd 0 ∧ (core t c).st = .running ∧ (core t c).wfe = none ∧ (core t c).pend = k.pend ∧
       (core t c).pc = k.pc) ∧
     (∀ j v d, CanRun s c → k.job = some j → job s j = some v → v.cores[a.toNat]? = some d → (core s d).st = .running →
       (core s d).wfe = none → Gives (.iSig c rd ra rb 0) s fun t => goesOn t ∧ KeepsRegs k (core t c) ∧
         (core t d).pend = (core s d).pend ||| 0x100000000#33 ∧ (core t d).st = .running) ∧
     (∀ j v d w, CanRun s c → k.job = some j → job s j = some v → v.cores[a.toNat]? = some d → (core s d).st = .waiting →
       (core s d).wfe = some w → w.mask.getLsbD 32 = true → (core s d).pend &&& w.mask = 0 → Gives (.iSig c rd ra rb 0) s fun t =>
         goesOn t ∧ (core t d).st = .running ∧ (core t d).wfe = none ∧ (core t d).pend = (core s d).pend ∧
         WritesReg (core s d) (core t d) w.rd 0x100000000#36) ∧
     (∀ j v, CanRun s c → k.job = some j → job s j = some v → v.cores.length ≤ a.toNat →
       WordResult (.iSig c rd ra rb 0) s c 0 0 k.flags (k.pc + 1)) ∧
     (CanRun s c → WordResult (.iFence c rd ra rb 0) s c 0 0 k.flags (k.pc + 1)))

/-- MFS, MFF, MTF and RDC (R118, R135, R168): the selectors of MFS; flags to and from a register; the cycle counter and the
programmable counters, whose low half latches the high half for the next read of it. The model's own readings: log entries 28, 53. -/
def Obligations.SystemReads : Prop :=
  ∀ (s : State) (c : Nat) (rd ra rb : BitVec 5) (n : Nat), CanRun s c →
    let k := core s c
    let res := fun (i : Instr) (v : W36) => WordResult i s c rd v k.flags (k.pc + 1)
    let hi : W36 := (k.cyc >>> 36).setWidth 36
    res (.iMfs c rd ra rb 0) (BitVec.ofNat 36 c) ∧
    res (.iMfs c rd ra rb 3) (BitVec.ofNat 36 k.polder) ∧
    (∀ j v, k.job = some j → job s j = some v →
      res (.iMfs c rd ra rb 1) (BitVec.ofNat 36 k.rel) ∧
      res (.iMfs c rd ra rb 2) (BitVec.ofNat 36 v.cores.length) ∧
      res (.iMfs c rd ra rb 4) (BitVec.ofNat 36 k.prog) ∧
      (v.limitMs = 0 → res (.iMfs c rd ra rb 5) (BitVec.allOnes 36)) ∧
      (v.limitMs ≠ 0 → v.startT + v.pausedUs + v.limitMs * 1000 < s.now + 2 ^ 36 →
        res (.iMfs c rd ra rb 5) (BitVec.ofNat 36 (v.startT + v.pausedUs + v.limitMs * 1000 - s.now)))) ∧
    res (.iMff c rd ra rb 0) (k.flags.setWidth 36) ∧
    WordResult (.iMtf c rd ra rb 0) s c 0 0 ((rget k ra).setWidth 4) (k.pc + 1) ∧
    ((polder s k.polder).perm.getLsbD 0 = true →
      (Gives (.iRdc c rd ra rb 0) s fun t => WritesReg k (core t c) rd (k.cyc.setWidth 36) ∧ (core t c).snapHi = some hi ∧
        (core t c).pc = k.pc + 1 ∧ (core t c).flags = k.flags) ∧
      (Gives (.iRdc c rd ra rb 1) s fun t => WritesReg k (core t c) rd (k.snapHi.getD hi) ∧ (core t c).snapHi = none ∧
        (core t c).pc = k.pc + 1 ∧ (core t c).flags = k.flags) ∧
      (n < 4 → (counter k (2 * n)).wraps = [] → Gives (.iRdc c rd ra rb (BitVec.ofNat 7 (2 + 2 * n))) s fun t =>
        WritesReg k (core t c) rd (counter k (2 * n)).val ∧ (core t c).pc = k.pc + 1 ∧
        ((counter k (2 * n + 1)).cfg.getLsbD 14 = true →
          tget (core t c).snapPair none (2 * n + 1) = some (counter k (2 * n + 1)).val)) ∧
      (n < 4 → Gives (.iRdc c rd ra rb (BitVec.ofNat 7 (3 + 2 * n))) s fun t =>
        WritesReg k (core t c) rd ((tget k.snapPair none (2 * n + 1)).getD (counter k (2 * n + 1)).val) ∧
        (core t c).pc = k.pc + 1 ∧ tget (core t c).snapPair none (2 * n + 1) = none))

/-- END (R103, R104, R139): on the lead core the job moves into ENDING with w1 as its result and every core of it stops; once the time
limit has passed the result is Interrupted; on any other core that core alone stops. The model's own readings: log entry 29. -/
def Obligations.EndOfAJob : Prop :=
  ∀ (s : State) (c j : Nat) (rd ra rb : BitVec 5) (v : Job), CanRun s c →
    let k := core s c
    let due := v.startT + v.pausedUs + v.limitMs * 1000
    k.job = some j → job s j = some v → v.st ≠ .ending → c ∈ v.cores →
    (k.rel = 0 → Gives (.iEnd c rd ra rb 0) s fun t =>
      (∃ w, job t j = some w ∧ w.st = .ending ∧
        ((v.limitMs = 0 ∨ s.now + 1000 < due) → w.result = some (.success, (rget k 1).setWidth 32)) ∧
        ((v.limitMs ≠ 0 ∧ due ≤ s.now + 1000) → w.result = some (.interrupted, 0x80000000#32))) ∧
      ∀ d, d ∈ v.cores → (core s d).st = .running ∨ (core s d).st = .waiting → (core t d).st = .stopping) ∧
    (k.rel ≠ 0 → Gives (.iEnd c rd ra rb 0) s fun t =>
      OnlyCore s t c ∧ (core t c).st = .stopping ∧ KeepsRegs k (core t c) ∧ ∃ w, job t j = some w ∧ w.st = v.st ∧ w.result = v.result)

/-- MFC and MTC (R156, R167, R169): each control register read in system mode and in user mode where its access rule is met; what each
writable control register takes; a counter holds the written value, the MTC itself not counted; the vector bases keep bits 5:0 zero; CNT_OVF clears the bits written as 1.
The model's own readings: log entry 53. -/
def Obligations.ControlRegisterAccess : Prop :=
  (∀ (s : State) (c : Nat) (rd : BitVec 5) (n : Nat), CanRun s c →
     let k := core s c
     let perm := (polder s k.polder).perm
     let res := fun (sel : Nat) (v : W36) => WordResult (.iMfc c rd 0 0 (BitVec.ofNat 13 sel)) s c rd v k.flags (k.pc + 1)
     res 0 k.utvec ∧ res 1 k.uepc ∧ res 2 k.ucause ∧ res 3 k.utval ∧
     (k.user = false ∨ perm.getLsbD 0 = true →
       res 24 (BitVec.ofNat 36 k.ovf.toNat) ∧ (n < 8 → res (8 + n) (BitVec.ofNat 36 (counter k n).cfg.toNat))) ∧
     (k.user = false ∨ perm.getLsbD 1 = true →
       res 25 (BitVec.ofNat 36 k.smpBase.toNat) ∧ res 26 (BitVec.ofNat 36 k.smpLimit.toNat) ∧
       res 27 (BitVec.ofNat 36 k.smpNext.toNat) ∧
       res 28 (BitVec.ofNat 36 (k.smpLost.toNat * 65536 + if k.smpFull then 1 else 0))) ∧
     (k.user = false →
       (n < 8 → res (16 + n) (counter k n).val) ∧ res 32 (BitVec.ofNat 36 k.sstatus.toNat) ∧ res 33 k.stvec ∧ res 34 k.sepc ∧
       res 35 k.scause ∧ res 36 k.stval ∧ res 37 k.sscratch)) ∧
  (∀ (s : State) (c : Nat) (ra : BitVec 5) (n : Nat), CanRun s c →
     let k := core s c
     let x := rget k ra
     let perm := (polder s k.polder).perm
     let base : W36 := x &&& 0xFFFFFFFC0#36
     let op := fun (sel : Nat) => Instr.iMtc c 0 ra 0 (BitVec.ofNat 13 sel)
     -- the core afterwards but for the counters: its fields as `l` has them
     let becomes := fun (sel : Nat) (l : Core) => Gives (op sel) s fun t => OnlyCore s t c ∧
       core t c = { l with pc := k.pc + 1, cnt := (core t c).cnt, cyc := (core t c).cyc, stalled := false, routine := none } ∧
       ∀ i, (counter (core t c) i).cfg = (counter k i).cfg
     becomes 0 { k with utvec := base } ∧ becomes 1 { k with uepc := x } ∧ becomes 2 k ∧ becomes 3 k ∧
     (k.user = false ∨ perm.getLsbD 0 = true →
       becomes 24 { k with ovf := k.ovf &&& ~~~(x.setWidth 8) } ∧
       (n < 8 → Gives (op (8 + n)) s fun t => OnlyCore s t c ∧ (core t c).pc = k.pc + 1 ∧
         (counter (core t c) n).cfg = x.setWidth 16 &&& (if n % 2 = 1 then 0xF8FF#16 else 0xB8FF#16) &&&
           (if perm.getLsbD 1 then 0xFFFF#16 else 0xF7FF#16) ∧
         ∀ i, i ≠ n → (counter (core t c) i).cfg = (counter k i).cfg) ∧
       (n < 8 → Gives (op (16 + n)) s fun t => OnlyCore s t c ∧ (core t c).pc = k.pc + 1 ∧
         counter (core t c) n = { counter k n with val := x, reload := x })) ∧
     (k.user = false ∨ perm.getLsbD 1 = true → becomes 27 k ∧ becomes 28 k ∧
       (k.smpLimit.toNat ≤ x.toNat % 2 ^ 21 → becomes 25 { k with smpBase := x.setWidth 21 }) ∧
       (x.toNat % 2 ^ 21 ≤ k.smpBase.toNat → becomes 26 { k with smpLimit := x.setWidth 21 })) ∧
     (k.user = false → becomes 32 { k with sstatus := x.setWidth 2 } ∧ becomes 33 { k with stvec := base } ∧
       becomes 34 { k with sepc := x } ∧ becomes 35 k ∧ becomes 36 k ∧ becomes 37 { k with sscratch := x }))

/-- RSL, RSLT and RSN (R133, R262): on a match rd takes the result (RSLT all four tags), t is 1 and m tells several entries of the same
priority; without a match rd and both flags are 0; RSN goes on above the last index at the same priority and keeps m. What a lookup finds
(R251, R260): a matching entry; none has a higher priority, and none of equal priority a lower index (for the canonical table). -/
def Obligations.SearchWords : Prop :=
  (∀ (s : State) (c : Nat) (rd ra rb : BitVec 5), CanRun s c →
     let k := core s c
     let p := k.polder
     let key := (rget k ra).toNat % 2 ^ 32 + (rget k rb).toNat % 2 ^ 32 * 2 ^ 32
     let flag := fun (t m : Bool) => (k.flags &&& 3#4) ||| (if t then 4#4 else 0#4) ||| (if m then 8#4 else 0#4)
     let gives := fun (i : Instr) (v : W36) (g : BitVec 4) (l : Option LastSearch) => Gives i s fun t =>
       WritesReg k (core t c) rd v ∧ (core t c).flags = g ∧ (core t c).pc = k.pc + 1 ∧ (core t c).search = l ∧
       t.srch.ents = s.srch.ents ∧ ∀ d, d ≠ c → core t d = core s d
     (∀ f, lookupKey s p key = some f →
       gives (.iRsl c rd ra rb) f.ent.result (flag true f.multi) (some { key := key, prio := f.ent.prio, idx := f.idx }) ∧
       (k.v1 = false → gives (.iRslt c rd ra rb) 0xF00000000#36 (flag true f.multi)
         (some { key := key, prio := f.ent.prio, idx := f.idx }))) ∧
     (lookupKey s p key = none →
       gives (.iRsl c rd ra rb) 0 (flag false false) none ∧ (k.v1 = false → gives (.iRslt c rd ra rb) 0 (flag false false) none)) ∧
     (k.v1 = false →
       (∀ l e v, k.search = some l → stepKey s p l.key l.prio l.idx = some (e, v) →
         gives (.iRsn c rd ra rb) v.result (flag true (k.flags.getLsbD 3)) (some { l with idx := e })) ∧
       (∀ l, k.search = some l → stepKey s p l.key l.prio l.idx = none →
         gives (.iRsn c rd ra rb) 0 (flag false (k.flags.getLsbD 3)) none) ∧
       (k.search = none → gives (.iRsn c rd ra rb) 0 (flag false (k.flags.getLsbD 3)) none))) ∧
  (∀ (s : State) (p key : Nat), twf s.srch.ents {} = true →
     let fits := fun (e : Nat) => (sent s e).valid = true ∧ (sent s e).polder = p ∧ srchOwner s e = p ∧ (sent s e).lo ≤ key ∧
       key ≤ (sent s e).hi
     (∀ f, lookupKey s p key = some f → fits f.idx ∧ f.ent = sent s f.idx ∧
       ∀ e, fits e → (sent s e).prio < f.ent.prio ∨ ((sent s e).prio = f.ent.prio ∧ f.idx ≤ e)) ∧
     (lookupKey s p key = none → ∀ e, ¬ fits e))

/-- Paired words (R125, R140, R141, R143): the plain short operations in slot B beside a NOP, LI and a register swap across both
slots, and the branches of slot B. A slot is op × 4096 + rd × 128 + rs × 4 + sub. The model's own readings: log entry 55. -/
def Obligations.PairedWordResults : Prop :=
  ∀ (s : State) (c : Nat) (rd rs : BitVec 5) (sub : Nat) (imm : BitVec 7), CanRun s c → (core s c).v1 = false → sub < 4 →
    let k := core s c
    let byte := fun (w : W36) (n : Nat) => (w >>> (8 * n)).setWidth 8
    let tag := fun (w : W36) (n : Nat) => w.getLsbD (32 + n)
    let d := rget k rd
    let x := rget k rs
    let lo := fun (w : W36) => w.toNat % 2 ^ 18
    let hi := fun (w : W36) => w.toNat / 2 ^ 18
    let sr := fun (op sb : Nat) => BitVec.ofNat 17 (op * 4096 + rd.toNat * 128 + rs.toNat * 4 + sb)
    let si := fun (op : Nat) => BitVec.ofNat 17 (op * 4096 + rd.toNat * 128 + imm.toNat)
    let pair := fun (b : BitVec 17) => Instr.pairedWord c false 0 b
    let res := fun (b : BitVec 17) (v : W36) => WordResult (pair b) s c rd v k.flags (k.pc + 1)
    let jump := fun (b : BitVec 17) (r : BitVec 5) (v : W36) (taken : Bool) =>
      WordResult (pair b) s c r v k.flags (if taken then k.pc + imm.signExtend 36 else k.pc + 1)
    let cmp := fun (p q : Byte) => if sub = 0 then decide (p = q) else if sub = 1 then decide (p ≠ q) else if sub = 2 then p.ult q
      else q.ule p
    WordResult (pair 0) s c 0 0 k.flags (k.pc + 1) ∧
    res (sr 1 0) x ∧ res (sr 2 0) (d + x) ∧ res (sr 3 0) (d - x) ∧ res (sr 4 0) (d &&& x) ∧ res (sr 5 0) (d ||| x) ∧
    res (sr 6 0) (d ^^^ x) ∧
    res (sr 7 0) (BitVec.ofNat 36 ((hi d + hi x) % 2 ^ 18 * 2 ^ 18 + (lo d + lo x) % 2 ^ 18)) ∧
    res (si 8) (d + imm.signExtend 36) ∧
    (imm.toNat % 64 ≤ 35 → res (si 9) (if imm.getLsbD 6 then d >>> (imm.toNat % 64) else d <<< (imm.toNat % 64))) ∧
    res (si 10) (imm.signExtend 36) ∧
    LaneResult (pair (sr 11 sub)) s c rd true (byte d) (fun n => cmp (byte d n) (byte x n)) ∧
    LaneResult (pair (sr 12 sub)) s c rd true (byte d) (fun n => tag d n && cmp (byte d n) (byte x n)) ∧
    LaneResult (pair (sr 13 sub)) s c rd true (byte d) (fun n => tag d n || cmp (byte d n) (byte x n)) ∧
    LaneResult (pair (sr 14 sub)) s c rd true (byte x) (fun n => decide (tget k.cls 0 (sub * 256 + (byte x n).toNat) ≠ 0)) ∧
    LaneResult (pair (sr 15 0)) s c rd true (byte d) (fun n => tag d n && tag x n) ∧
    LaneResult (pair (sr 15 1)) s c rd true (byte d) (fun n => tag d n || tag x n) ∧
    LaneResult (pair (sr 15 2)) s c rd true (byte d) (fun n => tag d n && !tag x n) ∧
    res (sr 15 3) (d + BitVec.ofNat 36 ((List.range 4).countP (fun n => tag x n))) ∧
    jump (si 20) rd (d - 1) (decide (d - 1 ≠ 0)) ∧
    jump (si 21) 0 0 (decide (d = 0)) ∧
    jump (si 22) 0 0 (decide (d ≠ 0)) ∧
    (rd.toNat < 8 → jump (si 23) 0 0 (if rd.toNat % 2 = 0 then k.flags.getLsbD (rd.toNat / 2) else !k.flags.getLsbD (rd.toNat / 2))) ∧
    LaneResult (pair (sr 24 sub)) s c rd false (fun n => byte x ((n + 4 - sub) % 4)) (fun n => tag x ((n + 4 - sub) % 4)) ∧
    LaneResult (pair (sr 25 sub)) s c rd false (fun n => if n + sub < 4 then byte d (n + sub) else byte x (n + sub - 4))
      (fun n => if n + sub < 4 then tag d (n + sub) else tag x (n + sub - 4)) ∧
    -- both slots read before either writes: MOV rd, rs beside MOV rs, rd swaps the two registers
    (rd ≠ rs → rd ≠ 0 → rs ≠ 0 →
      Gives (.pairedWord c false (sr 1 0) (BitVec.ofNat 17 (4096 + rs.toNat * 128 + rd.toNat * 4))) s fun t =>
        OnlyCore s t c ∧ SameContext k (core t c) ∧ rget (core t c) rd = x ∧ rget (core t c) rs = d ∧
        (∀ r, r ≠ rd → r ≠ rs → rget (core t c) r = rget k r) ∧ (core t c).flags = k.flags ∧ (core t c).pc = k.pc + 1)

/-- Custom instructions (from R146, R163-R165, each in part): without a valid decode entry the illegal-instruction trap; a routine of one LI microword
writes its immediate; one of one class 0 ADD microword over the instruction's registers adds as ADD does; a class 3 microword is a
microcode fault, which no user handler takes: the job ends. The model's own readings: log entry 55. -/
def Obligations.CustomInstructionResults : Prop :=
  ∀ (s : State) (c : Nat) (idx : BitVec 6) (rd ra rb : BitVec 5) (fn : BitVec 13) (a n imm j : Nat) (v : Job), CanRun s c →
    let k := core s c
    let i := Instr.customInstruction c idx rd ra rb fn
    let x := rget k ra
    let y := rget k rb
    let entry := (tget k.dec 0 idx.toNat).toNat
    let word := (tget k.cs 0 a).toNat
    k.v1 = false → k.routine = none → lineBad s (64 + c) (idx.toNat / 8) = false →
    (entry < 2 ^ 35 → WordTraps i s c 1 0 0 0) ∧
    (a < 4096 → 1 ≤ n → n ≤ 256 → entry = 2 ^ 35 + a * 2 ^ 21 + n * 2 ^ 12 → lineBad s (64 + c) ((64 + a) / 8) = false →
      (imm < 2 ^ 29 → word = 2 ^ 34 + 2 ^ 33 + 4 * 2 ^ 29 + imm → WordResult i s c rd (BitVec.ofNat 36 imm) k.flags (k.pc + 1)) ∧
      (word = 2 ^ 33 + 4 * 2 ^ 22 + 5 * 2 ^ 18 + 6 * 2 ^ 14 →
        WordResult i s c rd (x + y) (withCV k.flags (decide (2 ^ 36 ≤ x.toNat + y.toNat)) (decide ((x + y).toInt ≠ x.toInt + y.toInt)))
          (k.pc + 1)) ∧
      (3 * 2 ^ 34 ≤ word → k.user = true → k.job = some j → job s j = some v → v.st ≠ .ending → ¬ LimitPassed s v → Gives i s fun t =>
        (core t c).trapPc = k.pc ∧ (core t c).trap = BitVec.ofNat 32 (a * 2 ^ 20 + 9) ∧
        ∃ w, job t j = some w ∧ w.st = .ending ∧ w.result = some (.internalError, BitVec.ofNat 32 (c * 256 + 9))))

/-- The timers and interrupts of a core (from R159, R160, R162, R167, R170, R171, R434, each in part): the wrap of a counter that is not chained upward
sets its overflow flag and, with int, the interrupt; into a chained neighbour it carries; COUNTER_OVF and SMP_FULL enter the user
handler between two words; EXT_INT enters the system handler with the frame; a forced stop 2 µs after the stop request takes the core out, reports class 8 and goes on with step 3 of the job end.
The model's own readings: log entries 28, 30, 66. -/
def Obligations.CoreInterrupts : Prop :=
  ∀ (s : State) (c n : Nat),
    let k := core s c
    let v := counter k n
    let up := counter k (n + 1)
    (∀ w r, n < 8 → v.wraps = w :: r → v.cfg.getLsbD 11 = false → (n % 2 = 1 ∨ up.cfg.getLsbD 14 = false) →
      Gives (.counterWrap c n) s fun t => OnlyCore s t c ∧
        core t c = { k with cnt := (core t c).cnt, ovf := k.ovf ||| BitVec.ofNat 8 (2 ^ n),
                            ovfPend := k.ovfPend || (v.cfg.getLsbD 12 && decide (k.utvec ≠ 0)) } ∧
        ∀ i, counter (core t c) i = if i = n then { v with wraps := if w.n ≤ 1 then r else { w with n := w.n - 1 } :: r }
          else counter k i) ∧
    (∀ w, n < 8 → v.wraps = [w] → w.n = 1 → v.cfg.getLsbD 11 = false → n % 2 = 0 → up.cfg.getLsbD 14 = true → up.cfg.getLsbD 15 = true →
      Gives (.counterWrap c n) s fun t => core t c = { k with cnt := (core t c).cnt } ∧
        (counter (core t c) (n + 1)).val = (if up.val = 0xFFFFFFFFF#36 ∧ up.cfg.getLsbD 11 = true then up.reload else up.val + 1) ∧
        (counter (core t c) n).wraps = []) ∧
    (coreRuns s c = true → HasHandler k → k.ovfPend = true → Gives (.counterOvf c) s fun t => OnlyCore s t c ∧
      UserEntry k (core t c) 0x0A 0 0 0 ∧ (core t c).ovfPend = false) ∧
    (coreRuns s c = true → HasHandler k → k.fullPend = true → Gives (.smpFull c) s fun t => OnlyCore s t c ∧
      UserEntry k (core t c) 0x0B 0 0 0 ∧ (core t c).fullPend = false) ∧
    (∀ f, coreRuns s c = true → k.user = false → k.sstatus = 1 → extFrame s c = some f → Gives (.extInt c) s fun t => OnlyCore s t c ∧
      SystemEntry k (core t c) 0x10 f 0 0) ∧
    (k.st = .stopping → k.out = false → 2 ≤ s.now → k.stopT = some (s.now - 2) → s.flt.latched = [] →
      Gives (.coreForceStop c) s fun t => (core t c).out = true ∧ (core t c).st = .scrubbing ∧ (core t c).regs = [] ∧
        (core t c).cls = [] ∧ (core t c).ldm = k.ldm ∧ (∀ d, d ≠ c → core t d = core s d) ∧ t.jobs = s.jobs ∧
        ∃ t0 rs, t.flt.window = some (t0, rs) ∧ ∃ e ∈ rs, e.1.cls = 8 ∧ e.1.inst = c)

/-! ## Register pages -/

/-- The common header and the accesses through it (from R9, R10, R20, R429, R431, R433, R438, R440, each in part): keys, interrupt bits, width errors, the
error record, stopped domains, BAR2, the event counters. The model's own readings: log entries 32, 33. -/
def Obligations.RegisterPageAccesses : Prop :=
  ∀ (s : State) (ini : Ini) (frame n : Nat) (v : W32),
    let h := hdr s frame
    let key := BitVec.ofNat 32 (0x4B47 * 65536 + h.seq.toNat)
    let rst := frameOf 0x0F 0 0
    let pm := frameOf 0x14 0 0
    let cnt := tget s.pmon.cnt 0 n + if n = 11 then BitVec.ofNat 72 (1250 * (s.now - s.pmon.cycT)) else 0
    (PageOpen s ini frame →
      (Gives (.keyWrite ini frame key) s fun t => (hdr t frame).win = some ini ∧ (hdr t frame).seq = h.seq) ∧
      (v ≠ key → Gives (.keyWrite ini frame v) s fun t => (hdr t frame).win = none ∧ HasError t frame 2) ∧
      (h.win = none → Gives (.registerWrite ini (frame * 4096 + 0x10) 4 v) s fun t => t = modHdr s frame (fun h => { h with raw := h.raw &&& ~~~v })) ∧
      (h.win = none → Gives (.registerWrite ini (frame * 4096 + 0x14) 4 v) s fun t => t = modHdr s frame (fun h => { h with en := v })) ∧
      (∀ w, w ≠ 4 → Gives (.registerWrite ini (frame * 4096 + 0x40) w v) s fun t => HasError t frame 1 ∧ t = { s with hdrs := t.hdrs }) ∧
      (Gives (.errorRecordRead ini frame) s fun t => (hdr t frame).errLatch = h.errInfo ∧
        t.out.reg = BitVec.ofNat 32 ((if h.errValid then 2 ^ 31 else 0) + h.errStamp.toNat * 256 + h.errCode.toNat))) ∧
    (Gives (.keyWindowEnd frame) s fun t => t = modHdr s frame (fun h => { h with win := none })) ∧
    (PageOpen s ini rst →
      ((hdr s rst).win = some ini → Gives (.registerWrite ini (rst * 4096 + 0x44) 4 v) s fun t =>
        t.rst.wdtEn = v.getLsbD 16 ∧ t.rst.wdtMs = (if v.setWidth 16 = 0#16 then 1 else v.setWidth 16) ∧
        (hdr t rst).win = none ∧ (hdr t rst).seq = (hdr s rst).seq + 1) ∧
      ((hdr s rst).win = none → ini ∉ (hdr s rst).closed → Gives (.registerWrite ini (rst * 4096 + 0x44) 4 v) s fun t =>
        t.rst = s.rst ∧ HasError t rst 3)) ∧
    (∀ b j i, pageAt frame = some (b, j, i) → reaches s ini frame = true → (b = 3 → (core s j).absent = false) →
      domainRuns s (domainOf b j) = false → s.flt.latched = [] → (domainOf b j ≠ 2 ∨ s.rst.dual = true) →
      Gives (.bridgeTimeout ini (frame * 4096) false) s fun t => t.out.reg = 0xFFFFFFFF#32 ∧ HasError t (iniPage ini) 5 ∧
        ∃ t0 rs, t.flt.window = some (t0, rs) ∧ ∃ e ∈ rs, e.1.cls = 2 ∧ e.1.inst = domainOf b j) ∧
    (s.rst.bar2 = true → PageOpen s (.host 0) pm →
      (Gives (.bar2Request (pm * 4096 + 0x40) false [(15, 0)]) s fun t =>
        t.out.regs = [BitVec.ofNat 32 ((if s.pmon.filt then 256 else 0) + s.pmon.polder.toNat)])) ∧
    (PageOpen s ini pm → (hdr s pm).win = none →
      (Gives (.pmonClear ini) s fun t => t = { s with pmon := { s.pmon with cnt := [], cycT := s.now } }) ∧
      (n < 12 → Gives (.pmonCounterRead ini n) s fun t => t.out.reg = cnt.setWidth 32 ∧
        tget t.pmon.latM 0 n = (cnt >>> 32).setWidth 32 ∧ tget t.pmon.latH 0 n = (cnt >>> 64).setWidth 8 ∧ t.pmon.cnt = s.pmon.cnt))

/-- The CORE pages (from R156, R164, R168-R171, each in part): halt and restart of a service core, refused for a tenant core; the control store read
word by word; counter configuration, values and the sampling area; the cycle counter with its latches. The core is in no job end.
The model's own readings: log entries 28, 56. -/
def Obligations.CorePageAccesses : Prop :=
  ∀ (s : State) (ini : Ini) (c n : Nat) (v : W32), c < 32 → (core s c).stopT = none →
    let k := core s c
    let f0 := frameOf 3 c 0
    let f1 := frameOf 3 c 1
    let may := (polder s k.polder).perm.getLsbD 1
    (PageOpen s ini f0 → (hdr s f0).win = none →
      (c ∈ s.rst.service → k.st = .running ∨ k.st = .waiting → Gives (.coreHalt ini c) s fun t =>
        t = setCore s c { k with halt := true, st := .halted }) ∧
      (c ∈ s.rst.service → k.st = .halted → k.out = false → k.wfe = none → Gives (.coreRestart ini c) s fun t =>
        t = setCore s c { k with halt := false, st := .running }) ∧
      (c ∉ s.rst.service → Gives (.coreHalt ini c) s fun t => HasError t f0 0x41 ∧ t = { s with hdrs := t.hdrs }) ∧
      (Gives (.controlStoreRead ini c) s fun t => t.out.reg = (tget k.cs 0 k.csAddr.toNat).setWidth 32 ∧
        core t c = { k with csAddr := k.csAddr + 1, csX := ((tget k.cs 0 k.csAddr.toNat) >>> 32).setWidth 4 })) ∧
    (PageOpen s ini f1 → (hdr s f1).win = none →
      (n < 8 → Gives (.counterPageWrite ini c (0x50 + 16 * n) v) s fun t => OnlyCore s t c ∧
        (∀ i, i ≠ n → counter (core t c) i = counter k i) ∧
        counter (core t c) n = { counter k n with cfg := v.setWidth 16 &&& (if n % 2 = 1 then 0xF8FF#16 else 0xB8FF#16) &&&
          (if may then 0xFFFF#16 else 0xF7FF#16) }) ∧
      (n < 8 → (counter k n).hiHold = none → Gives (.counterPageWrite ini c (0x58 + 16 * n) v) s fun t =>
        (counter (core t c) n).hiHold = some (v.setWidth 4) ∧ (counter (core t c) n).val = (counter k n).val) ∧
      (∀ h, n < 8 → (counter k n).hiHold = some h → Gives (.counterPageWrite ini c (0x54 + 16 * n) v) s fun t =>
        counter (core t c) n = { counter k n with val := h ++ v, reload := h ++ v, hiHold := none, wraps := [] }) ∧
      (∀ j w g, k.job = some j → job s j = some w → g ∈ w.ranges → g.1 ≤ (v.toNat % 2 ^ 21) * 4096 →
        k.smpLimit.toNat * 4096 ≤ g.1 + g.2 → Gives (.samplingAreaWrite ini c false v) s fun t =>
          t = setCore s c { k with smpBase := v.setWidth 21 }) ∧
      (k.smpBase.toNat < v.toNat % 2 ^ 21 → k.job = none → Gives (.samplingAreaWrite ini c true v) s fun t => t = s) ∧
      (Gives (.cycleCounterRead ini c 0x40) s fun t => t.out.reg = k.cyc.setWidth 32 ∧
        core t c = { k with snapM := some ((k.cyc >>> 32).setWidth 32), snapH := some ((k.cyc >>> 64).setWidth 8) }))

/-! ## Polders -/

/-- The lifecycle commands (from R28, R29, R33-R36, R50, each in part): each write of POL_CMD uses the key; PROVISION starts an EMPTY polder with cleared
records; ACTIVATE grants the resource registers or names the first check that fails; QUIESCE; a quiescing polder with nothing in
flight is drained; a command not allowed in the state changes no polder. The model's own readings: log entries 40, 41. -/
def Obligations.PolderLifecycle : Prop :=
  ∀ (s : State) (ini : Ini) (p : Nat), 1 ≤ p → p < 64 →
    let f := frameOf 2 0 (p + 1)
    let v := polder s p
    let r := v.res
    let only := fun (t : State) => ∀ q, q ≠ p → polder t q = polder s q
    (Keyed s ini f →
      (v.st = .empty → Gives (.provision ini p) s fun t => KeyUsed s t f ∧ only t ∧
        polder t p = { v with st := .provisioning, gen := v.gen + 1, drained := false, res := {}, own := {}, breaches := 0, progress := 0 } ∧
        (acct t p).bal = 0 ∧ (acct t p).refill = 0 ∧ tget t.isl.imageKey none p = none) ∧
      (v.st = .provisioning ∨ v.st = .quiescing →
        (actCheck s p false = none → Gives (.activate ini p) s fun t => KeyUsed s t f ∧ only t ∧
          polder t p = { v with st := .active, drained := false, own := r }) ∧
        (s.host.vfEnable = false ∨ s.host.numVfs < p → Gives (.activate ini p) s fun t => HasError t f 0x46 ∧ t.pol = s.pol) ∧
        (∀ c, s.host.vfEnable = true → p ≤ s.host.numVfs → capFail s r = none → c ∈ s.rst.service → r.cores.getLsbD c = true →
          Gives (.activate ini p) s fun t => HasError t f 0x44 ∧ t.pol = s.pol) ∧
        (∀ q c, s.host.vfEnable = true → p ≤ s.host.numVfs → capFail s r = none → (∀ d ∈ s.rst.service, r.cores.getLsbD d = false) →
          (q, polder s q) ∈ s.pol.tab → q ≠ 0 → q ≠ p → (polder s q).st ≠ .empty → c < 32 → r.cores.getLsbD c = true →
          (polder s q).own.cores.getLsbD c = true → Gives (.activate ini p) s fun t => HasError t f 0x42 ∧ t.pol = s.pol)) ∧
      (v.st = .active → Gives (.quiesce ini p) s fun t => KeyUsed s t f ∧ only t ∧
        polder t p = { v with st := .quiescing, drained := false }) ∧
      (v.st ≠ .active → Gives (.quiesce ini p) s fun t => HasError t f 0x41 ∧ t.pol = s.pol)) ∧
    (PageOpen s ini f → (hdr s f).win = none → ini ∉ (hdr s f).closed → ∀ i ∈ [Instr.provision ini p, .activate ini p, .quiesce ini p,
      .teardown ini p], Gives i s fun t => HasError t f 3 ∧ t = { s with hdrs := t.hdrs }) ∧
    (v.st = .quiescing → polBusy s p = false → Gives (.polderDrained p) s fun t =>
      t = modPolder s p (fun v => { v with drained := true }))

/-- Teardown (from R50-R53, each in part): it ends the polder's jobs without a completion, scrubs its cores and erases its keys; a core or an engine that
does not reach its boundary in time is reported; at its end the polder is EMPTY, its SLM reads as zero, its programs, search entries
and balance are gone, and its namespaces belong to polder 0. The model's own readings: log entries 7, 42. -/
def Obligations.PolderTeardown : Prop :=
  ∀ (s : State) (ini : Ini) (p n : Nat), 1 ≤ p → p < 64 →
    let f := frameOf 2 0 (p + 1)
    let v := polder s p
    (Keyed s ini f → v.st = .provisioning ∨ v.st = .active ∨ v.st = .quiescing → Gives (.teardown ini p) s fun t => KeyUsed s t f ∧
      polder t p = { v with st := .teardown, drained := false, progress := 0x3F, tdStart := s.now } ∧
      (∀ q, q ≠ p → polder t q = polder s q) ∧
      (∀ j w, job t j = some w → w.polder ≠ p) ∧
      (∀ c, ownsCore v c = true → c ∉ s.rst.service → (core t c).st = .free ∧ (core t c).regs = [] ∧ (core t c).ldm = []) ∧
      (∀ k, k < 256 → keyOwner s k = p → (tget t.isl.keys {} k).key = none ∧ (tget t.isl.keys {} k).shadow = none) ∧
      tget t.isl.kek none p = none ∧ tget t.isl.imageKey none p = none) ∧
    (v.st = .teardown → s.flt.latched = [] →
      (n < 32 → ownsCore v n = true → v.tdStart + 2 ≤ s.now → Gives (.teardownHaltTimeout p (.core n)) s fun t =>
        Reports t 8 n ∧ t = { s with flt := t.flt }) ∧
      (n ≤ 28 → v.tdStart + 50 ≤ s.now → Gives (.teardownHaltTimeout p (.engine n)) s fun t =>
        Reports t 9 n ∧ t = { s with flt := t.flt })) ∧
    (v.st = .teardown → Gives (.teardownComplete p) s fun t =>
      polder t p = { v with st := .empty, own := {}, progress := 0xFF, tdDone := true, tdTime := s.time.cal } ∧
      (∀ q, q ≠ p → polder t q = polder s q) ∧
      (∀ x, slmFirst v ≤ x → x < slmFirst v + slmSize v → slmByte t x = 0) ∧
      (∀ i, i < 16 → prog t p i = {}) ∧ (∀ e, srchOwner s e = p → (sent t e).valid = false) ∧
      (acct t p).bal = 0 ∧ (acct t p).refill = 0)

/-- Breaches and their records (from R40-R45, R461, each in part): a breach is counted for the stamp and appended to the FIFO with its four words, the 257th
is counted as lost, one by a polder in TEARDOWN is not recorded; reading POL_BR_W0 latches the words of the oldest record, POL_BR_POP
removes it. The model's own readings: log entry 41. -/
def Obligations.BreachRecords : Prop :=
  ∀ (s : State) (ini who : Ini) (stamp owner blk inst index : Nat) (write : Bool) (v : W32) (r : Breach) (rs : List Breach),
    let f := frameOf 2 0 0
    let t := breach s stamp owner blk inst write index who
    let w0 : W32 := BitVec.ofNat 32 (stamp * 2 ^ 26 + owner * 2 ^ 20 + blk * 2 ^ 12 + inst * 2 ^ 4 + (if write then 8 else 0) + 1)
    (stamp < 64 → owner < 64 → blk < 256 → inst < 256 → (polder s stamp).st ≠ .teardown →
      (polder t stamp).breaches = (if (polder s stamp).breaches = 0xFFFFFFFF then 0xFFFFFFFF else (polder s stamp).breaches + 1) ∧
      (s.pol.fifo.length < 256 → t.pol.lost = s.pol.lost ∧ ∃ e, t.pol.fifo = s.pol.fifo ++ [e] ∧ e.w0 = w0 ∧ e.w1 = BitVec.ofNat 32 index ∧
        e.w3 = BitVec.ofNat 32 s.now) ∧
      (256 ≤ s.pol.fifo.length → t.pol.fifo = s.pol.fifo ∧
        t.pol.lost = (if s.pol.lost = 0xFFFF then 0xFFFF else s.pol.lost + 1))) ∧
    ((polder s stamp).st = .teardown → t = s) ∧
    (PageOpen s ini f →
      (s.pol.fifo = r :: rs →
        (Gives (.breachRecordRead ini) s fun t => t.out.reg = r.w0 ∧ t.pol = { s.pol with w1 := r.w1, w2 := r.w2, w3 := r.w3 }) ∧
        (Gives (.breachRecordPop ini v) s fun t => t.pol.fifo = rs ∧ (rs = [] → t.pol.lost = 0))) ∧
      (s.pol.fifo = [] → Gives (.breachRecordRead ini) s fun t => t.out.reg = 0 ∧ t.pol = { s.pol with w1 := 0, w2 := 0, w3 := 0 }))

/-! ## Programs, jobs and SLM -/

/-- Loading and activation (from R94-R100, each in part): pieces are kept until the header's length is there, then the index is empty while the image is
checked; it is measured, loaded and stored in the polder's image region, or the status names the reason; UNLOAD empties an inactive index; ACTIVATE and DEACTIVATE.
The model's own readings: log entries 21, 37. -/
def Obligations.LoadingPrograms : Prop :=
  ∀ (s : State) (fn sq cid index off : Nat) (data : Bytes), MayCompute s fn sq → index < 16 →
    let p := fnPolder fn
    let g := prog s p index
    let b := (if off = 0 then [] else g.partialLoad) ++ data
    let n := leAt b 8 4
    let im := b.take n
    let ok : Compl := { fn := fn, sq := sq, cid := cid }
    let m := tget s.isl.meas {} (8 + p)
    let e := modProg s p index (fun _ => {})
    let reason := loadReason e p im
    let blks := imgPlace e p im.length
    let put := fun (t : State) (v : Prog) => prog t p index = v ∧ ∀ k, k ≠ progKey p index → tget t.progs {} k = tget s.progs {} k
    (g.active = false → data.length ≤ 2097152 → off = 0 ∨ (off = g.partialLoad.length ∧ g.partialLoad ≠ []) →
      (b.length < 12 ∨ b.length < n →
        Acts (.loadProgram fn sq cid 0 index off data) s ok (fun t => { t with progs := s.progs }) fun t => put t { partialLoad := b }) ∧
      (12 ≤ b.length → n ≤ b.length → reason = 0 →
        Acts (.loadProgram fn sq cid 0 index off data) s ok
          (fun t => { t with progs := s.progs, isl := s.isl, dram := s.dram, drc := s.drc, memi := s.memi }) fun t =>
          put t { image := some im, blks := blks } ∧
          (∀ i d x, blks[i]? = some d → x < 65536 → i * 65536 + x < im.length →
            readByte t.dram (imgBase + d * 65536 + x) = im.getD (i * 65536 + x) 0) ∧
          (∀ x, (∀ d, d ∈ blks → ¬ (imgBase + d * 65536 ≤ x ∧ x < imgBase + d * 65536 + 65536)) → readByte t.dram x = readByte s.dram x) ∧
          (tget t.isl.meas {} (8 + p)).val = Config.sha384 (m.val ++ Config.sha384 (imSigned im))) ∧
      (12 ≤ b.length → n ≤ b.length → reason ≠ 0 → Gives (.loadProgram fn sq cid 0 index off data) s fun t => put t {} ∧
        entries s fn sq ++ [{ ok with stat := .imageRejected, dnr := true, dw0 := BitVec.ofNat 32 reason }] <+:
          entries t fn sq)) ∧
    (g.active = false → Acts (.programUnload fn sq cid 0 index) s ok (fun t => { t with progs := s.progs }) fun t => put t {}) ∧
    (g.image ≠ none →
      (Acts (.programActivate fn sq cid 0 index) s ok (fun t => { t with progs := s.progs }) fun t => put t { g with active := true }) ∧
      ((∀ j w, job s j = some w → ¬ (w.polder = p ∧ w.engine = 0 ∧ w.index = index)) → twf s.jobs none = true →
        Acts (.programDeactivate fn sq cid 0 index) s ok (fun t => { t with progs := s.progs }) fun t => put t { g with active := false }))

/-- EXECUTE_PROGRAM on compute engine 0 (R102, R116, R153): where its checks pass the job takes its cores; with the reservation funded
each core runs at the entry point of the image in the job's order, else the job waits in ADMITTING.
The model's own readings: log entry 39. -/
def Obligations.ExecutingPrograms : Prop :=
  ∀ (s : State) (fn sq cid index rs : Nat) (b : Bytes) (g : RSet), MayCompute s fn sq → index < 16 →
    let p := fnPolder fn
    let im := (prog s p index).image.getD []
    let want := if leAt b 2 1 = 0 then leAt im 40 1 else leAt b 2 1
    let cores := (freeCores s p).take want
    let v : Job :=
      { polder := p, fn := fn, sq := sq, cid := cid, engine := 0, index := index, rset := rs, ranges := g.ranges, params := b,
        cores := cores, fetchT := s.now, limitMs := if leAt b 4 4 ≠ 0 then leAt b 4 4 else leAt im 44 4,
        reservation := if leAt b 8 4 ≠ 0 then leAt b 8 4 else leAt im 48 4 }
    headerOk b 0 = true → (prog s p index).active = true → engineCores s p ≠ [] → leAt im 40 1 ≤ want → want ≤ (engineCores s p).length →
    want ≤ (freeCores s p).length → tget s.rsets none (p * 65536 + rs) = some g → g.stale = false →
    (∀ r ∈ g.ranges, rangeHeld s p r.1 r.2 = false) →
    let funded := s.nrg.held.getLsbD 0 = false ∧ (v.reservation : Int) ≤ (acct s p).bal ∧ v.reservation ≤ 255 * (acct s p).refill
    let i := Instr.executeProgram fn sq cid 0 index rs b
    (¬ funded → Gives i s fun t => job t s.nextJob = some v ∧ t.nextJob = s.nextJob + 1 ∧ t.cores = s.cores ∧ t.nrg = s.nrg) ∧
    (funded → Gives i s fun t =>
      job t s.nextJob = some { v with st := .running, reserve := v.reservation, startT := s.now } ∧
      (acct t p).bal = (acct s p).bal - v.reservation ∧
      (∀ n c, cores[n]? = some c → (core t c).st = .running ∧ (core t c).user = true ∧ (core t c).polder = p ∧
        (core t c).job = some s.nextJob ∧ (core t c).rel = n ∧ (core t c).pc = BitVec.ofNat 36 (imageWin + imEntry im) ∧
        (core t c).regs = [] ∧ (core t c).v1 = (imVersion im == 1)) ∧
      ∀ c, c ∉ cores → core t c = core s c)

/-- How jobs end (R104, R105, R107, R116): ungranted after 4 ms the command completes with Deferred Energy and the number of epochs in
CDW0; 1 ms before the limit the run ends Interrupted; when the outputs settle the job is gone, its cores, 14 µs after the stop request, are free, the completion is
posted, and the blocks that a job that did not succeed has written are void, which reads as zero.
The model's own readings: log entries 29, 38. -/
def Obligations.JobEnds : Prop :=
  ∀ (s : State) (j b : Nat) (v : Job), job s j = some v →
    let a := acct s v.polder
    let k : Compl := { fn := v.fn, sq := v.sq, cid := v.cid }
    let epochs := if a.refill = 0 ∨ 255 * a.refill < v.reservation then 255
      else min 255 (max 1 (((v.reservation - a.bal).toNat + a.refill - 1) / a.refill))
    let hasQueue := ∃ q c, sqOf s v.fn v.sq = some q ∧ cqOf s v.fn q.cq = some c
    (v.st = .admitting → v.fetchT + 4000 ≤ s.now → hasQueue → Gives (.executeProgramDeferred j) s fun t =>
      job t j = none ∧ (acct t v.polder).bal = a.bal ∧ (acct t v.polder).deferred = true ∧
      entries t v.fn v.sq = entries s v.fn v.sq ++ [{ k with stat := .deferredEnergy, dw0 := BitVec.ofNat 32 epochs }]) ∧
    (v.st = .running ∨ v.st = .held → v.limitMs ≠ 0 → v.startT + v.pausedUs + v.limitMs * 1000 ≤ s.now + 1000 →
      Gives (.jobTimeLimit j) s fun t => job t j = some { v with st := .ending, result := some (.interrupted, 0x80000000#32) } ∧
        ∀ c ∈ v.cores, (core s c).st = .running ∨ (core s c).st = .waiting → (core t c).st = .stopping) ∧
    (∀ st d, v.st = .ending → v.result = some (st, d) → v.aborted = none → hasQueue → Gives (.jobOutputsSettled j) s fun t =>
      job t j = none ∧ (∀ c ∈ v.cores, ∀ u, (core s c).job = some j → (core s c).stopT = some u → u + 14 ≤ s.now →
        (core t c).st = .free ∧ (core t c).regs = [] ∧ (core t c).ldm = []) ∧
      { k with stat := st, dnr := st == .interrupted || statDnr st, dw0 := d } ∈ entries t v.fn v.sq ∧
      (st ≠ .success → ∀ n ∈ v.wrote, ∀ x, x / 65536 = n → slmByte t x = 0)) ∧
    (b ∈ s.void → Gives (.voidBlockZeroed b) s fun t => b ∉ t.void ∧ (∀ x, slmByte t x = slmByte s x) ∧
      ∀ x, x / 65536 = b → readByte t.dram (slmBase + x) = 0)

/-- The SLM command set (R105, R106, R108): range sets are created within the memory namespace and deleted; Read returns the bytes, Write
stores them, Copy moves them within SLM and brings deallocated blocks of a namespace as zeros; no other byte of SLM changes.
The model's own readings: log entry 38. -/
def Obligations.SubsystemLocalMemory : Prop :=
  ∀ (s : State) (fn sq cid id off dst len nsid slba count : Nat) (data : Bytes) (ranges : List (Nat × Nat)) (v : Ns), MayCompute s fn sq →
    let p := fnPolder fn
    let base := slmFirst (polder s p)
    let ok : Compl := { fn := fn, sq := sq, cid := cid }
    let free := fun (o n : Nat) => o + n ≤ memSize s p ∧ rangeHeld s p o n = false
    let stores := fun (t : State) (o n : Nat) (byte : Nat → Byte) => ∀ x, slmByte t x = if o ≤ x ∧ x < o + n then byte (x - o) else slmByte s x
    let undo := fun (t : State) => { t with dram := s.dram, void := s.void, drc := s.drc, memi := s.memi, nrg := s.nrg, freeCtr := s.freeCtr }
    (id < 65536 → tget s.rsets none (p * 65536 + id) = none → rsetCount s p < 16 → 1 ≤ ranges.length → ranges.length ≤ 32 →
      (∀ r ∈ ranges, r.1 % 4096 = 0 ∧ r.2 % 4096 = 0 ∧ r.1 + r.2 ≤ memSize s p) →
      ranges.Pairwise (fun x y => x.1 + x.2 ≤ y.1 ∨ y.1 + y.2 ≤ x.1) →
      Acts (.memoryRangeSetCreate fn sq cid id ranges) s ok (fun t => { t with rsets := s.rsets }) fun t =>
        t.rsets = tset s.rsets none (p * 65536 + id) (some { ranges := ranges })) ∧
    (id < 65536 → tget s.rsets none (p * 65536 + id) ≠ none → (∀ e ∈ s.jobs, ∀ w, e.2 = some w → ¬ (w.polder = p ∧ w.rset = id)) →
      Acts (.memoryRangeSetDelete fn sq cid id) s ok (fun t => { t with rsets := s.rsets }) fun t =>
        t.rsets = tset s.rsets none (p * 65536 + id) none) ∧
    (free off len → len ≤ 2097152 → slmPoison s (base + off) len = false →
      Acts (.memoryRead fn sq cid off len) s { ok with data := (List.range len).map (fun n => slmByte s (base + off + n)) } undo fun t =>
        t.dram = s.dram ∧ t.void = s.void) ∧
    (free off data.length → data.length ≤ 2097152 → Acts (.memoryWrite fn sq cid off data) s ok undo fun t =>
      stores t (base + off) data.length (fun n => data.getD n 0)) ∧
    (free off len → free dst len → slmPoison s (base + off) len = false →
      Acts (.memoryCopy fn sq cid dst (.slm off len)) s ok undo fun t =>
        stores t (base + dst) len (fun n => slmByte s (base + off + n))) ∧
    (nsOf s nsid = some v → v.owner = p → 1 ≤ count → slba + count ≤ v.blocks → free dst (count * 4096) →
      s.host.cmds = [] → s.ftla.staging = [] → dulbe s fn = false →
      (∀ n, n < count → ∃ l, lidx v (slba + n) = some l ∧ mapGet s l = vDealloc ∧ (tget s.ftla.pages {} (l / 1024)).loc = none) →
      Gives (.memoryCopy fn sq cid dst (.nvm nsid slba count)) s fun t =>
        entries t fn sq = entries s fn sq ++ [ok] ∧ stores t (base + dst) (count * 4096) (fun _ => 0))

/-! ## The host queues -/

/-- Creating, deleting and ringing queues (from R36, R61, R77, R79, R88, each in part): a queue is created within the controller's limits, deleted, its tail
and head move with the doorbells, a doorbell that leaves a command to fetch lets the exit from PS4 or PS5 begin, the completions held while a queue was full move up in order. The model's own readings: log entry 25. -/
def Obligations.HostQueues : Prop :=
  ∀ (s : State) (fn cid q size cq vector n : Nat) (x : Sq) (y : Cq),
    let ok : Compl := { fn := fn, sq := 0, cid := cid }
    let done := fun (t : State) => entries t fn 0 = entries s fn 0 ++ [ok]
    (MayFetch s fn 0 → 1 ≤ q →
      (q ≤ queueLimit s fn → sqOf s fn q = none → 1 ≤ cq → cqOf s fn cq ≠ none → 2 ≤ size → size ≤ 4096 →
        Gives (.createIoSubmissionQueue fn cid q size cq) s fun t => done t ∧ sqOf t fn q = some { size := size, cq := cq } ∧
          ∀ m, m ≠ qkey fn q → m ≠ qkey fn 0 → tget t.host.sqs none m = tget s.host.sqs none m) ∧
      (q ≤ queueLimit s fn → cqOf s fn q = none → 2 ≤ size → size ≤ 4096 → vector < vectorCount s fn →
        Gives (.createIoCompletionQueue fn cid q size vector) s fun t => done t ∧ cqOf t fn q = some { size := size, vector := vector } ∧
          ∀ m z, m ≠ qkey fn q → sqOf s fn 0 = some z → m ≠ qkey fn z.cq → tget t.host.cqs none m = tget s.host.cqs none m) ∧
      (sqOf s fn q ≠ none → s.host.cmds = [] → Gives (.deleteIoSubmissionQueue fn cid q) s fun t => done t ∧ sqOf t fn q = none ∧
        ∀ m, m ≠ qkey fn q → m ≠ qkey fn 0 → tget t.host.sqs none m = tget s.host.sqs none m) ∧
      (cqOf s fn q ≠ none → cqUsed s fn q = false → Gives (.deleteIoCompletionQueue fn cid q) s fun t => done t ∧ cqOf t fn q = none) ∧
      (cqOf s fn q ≠ none → cqUsed s fn q = true → AdminFails (.deleteIoCompletionQueue fn cid q) s fn cid .queueDeletion 0)) ∧
    (running s fn = true →
      ((polder s (fnPolder fn)).st ≠ .teardown → sqOf s fn q = some x → n < x.size → Gives (.sqTailDoorbell fn q n) s fun t =>
        sqOf t fn q = some { x with tail := n } ∧
        (∀ m, m ≠ qkey fn q → tget t.host.sqs none m = tget s.host.sqs none m) ∧
        t.host.psExit = (s.host.psExit || decide (4 ≤ s.host.ps ∧ (polder s (fnPolder fn)).st = .active ∧ s.host.fwAct.isNone = true ∧
          s.pw.pwrdis = false ∧ x.head ≠ n ∧ x.frozen.isNone = true)) ∧
        t = { s with host := t.host }) ∧
      (cqOf s fn q = some y → n < y.size → (n + y.size - y.head) % y.size ≤ y.posted.length → Gives (.cqHeadDoorbell fn q n) s fun t =>
        ∃ z, cqOf t fn q = some z ∧ z.head = n ∧ z.posted ++ z.held = (y.posted ++ y.held).drop ((n + y.size - y.head) % y.size) ∧
          (z.held = [] ∨ z.size ≤ z.posted.length + 1) ∧ t = { s with host := { s.host with cqs := t.host.cqs } }))

/-- Set Features and Get Features (from R63, R65, R74, R75, R77, R79, R88, R89, R378, each in part): what each feature stores and answers; Save is refused; a
module-wide feature is the port A PF's. The model's own readings: log entries 5, 24, 25. -/
def Obligations.HostFeatures : Prop :=
  ∀ (s : State) (fn cid n w cap ms : Nat) (c11 c12 : W32) (b : Bool) (c : BitVec 2) (table : List (Nat × Nat)) (q : Sq), MayFetch s fn 0 →
    let ok : Compl := { fn := fn, sq := 0, cid := cid }
    let feat := fun (f : Ctrl → Ctrl) (h : HostIf) => { h with ctrls := tmod h.ctrls {} fn f }
    let same := fun (_ : State) => True
    let lim := queueLimit s fn
    (fn = 0 →
      (n ≤ 3 → Ends (.setPowerManagement 0 cid false n) s ok (fun h => { h with psNext := some n }) fun t => t.host.psEntry = none) ∧
      (4 ≤ n → n ≤ 5 → Ends (.setPowerManagement 0 cid false n) s ok id fun t => t.host.psEntry = some n) ∧
      ((∃ e ∈ table, e ≠ (0, 0)) → (∀ e ∈ table, e = (0, 0) ∨ e.1 = 4 ∨ e.1 = 5) →
        Ends (.setApst 0 cid false b table) s ok (fun h => { h with apstEn := b, apst := table }) same) ∧
      Ends (.setApst 0 cid false true []) s ok
        (fun h => { h with apstEn := true, apst := [(4, 100), (4, 100), (4, 100), (4, 100), (5, 2000)] }) same ∧
      (∀ e ∈ table, e ≠ (0, 0) → e.1 < 4 ∨ 5 < e.1 → AdminFails (.setApst 0 cid false b table) s 0 cid .invalidField 0) ∧
      (ms < 2 ^ 64 → Acts (.setTimestamp 0 cid false ms) s ok (fun t => { t with time := s.time, nv := s.nv }) fun t =>
        t.time = { s.time with cal := ms, st := 1, synch := false } ∧ t.nv = { s.nv with calSet := true }) ∧
      Ends (.setPowerEnvelope 0 cid false c) s ok (fun h => { h with ceiling := c }) same ∧
      (n < 64 → (polder s n).st ≠ .teardown → w < 256 → (n = 0 → w ≠ 0) → cap < 2 ^ 32 →
        Acts (.setPolderEnergyShare 0 cid false n w cap) s ok (fun t => { t with nrg := s.nrg }) fun t =>
          t = { t with nrg := (modAcct s n (fun a => { a with weightNext := some (BitVec.ofNat 8 w, BitVec.ofNat 32 cap) })).nrg }) ∧
      (n < 64 → (polder s n).st = .teardown → AdminFails (.setPolderEnergyShare 0 cid false n w cap) s 0 cid .tornDown (BitVec.ofNat 32 n)) ∧
      (100 ≤ n → n ≤ 2400 → Ends (.setReadAroundPolicy 0 cid false b n) s ok (fun h => { h with raEn := b, raThreshold := n }) same) ∧
      (n < 100 ∨ 2400 < n → AdminFails (.setReadAroundPolicy 0 cid false b n) s 0 cid .invalidField 0)) ∧
    (fn ≠ 0 → ∀ i ∈ [Instr.setPowerManagement fn cid false n, .setApst fn cid false b table, .setTimestamp fn cid false ms,
      .setPowerEnvelope fn cid false c, .setPolderEnergyShare fn cid false n w cap, .setReadAroundPolicy fn cid false b n],
      AdminFails i s fn cid .notChangeable 0) ∧
    (∀ i ∈ [Instr.setPowerManagement fn cid true n, .setApst fn cid true b table, .setTimestamp fn cid true ms,
      .setNumberOfQueues fn cid n w true, .setFreezeOnError fn cid true b, .queueThaw fn cid n true, .setPowerEnvelope fn cid true c,
      .setPolderEnergyShare fn cid true n w cap, .setReadAroundPolicy fn cid true b n, .setFeatures fn cid n true c11 c12],
      AdminFails i s fn cid .notSaveable 0) ∧
    (n < 65535 → w < 65535 → 1 ≤ lim → lim ≤ 65536 →
      Ends (.setNumberOfQueues fn cid n w false) s { ok with dw0 := BitVec.ofNat 32 ((lim - 1) * 65536 + (lim - 1)) }
        (feat (fun c => { c with numQ := some (lim, lim) })) same) ∧
    Ends (.setFreezeOnError fn cid false b) s ok (feat (fun c => { c with freeze := b })) same ∧
    (1 ≤ n → sqOf s fn n = some q → Gives (.queueThaw fn cid n false) s fun t => sqOf t fn n = some { q with frozen := none } ∧
      entries t fn 0 = entries s fn 0 ++ [{ ok with dw0 := if q.frozen = none then 0 else 1 }]) ∧
    (∀ fid ∈ [0x01, 0x05, 0x08, 0x0A, 0x0B, 0x1D],
      Ends (.setFeatures fn cid fid false c11 c12) s ok (feat (fun c => { c with feats := tset c.feats 0 fid c11 })) same ∧
      Ends (.getFeatures fn cid fid 0 c12) s { ok with dw0 := tget (ctrl s fn).feats 0 fid } id same) ∧
    Ends (.getFeatures fn cid 0xC0 0 c11) s { ok with dw0 := if (ctrl s fn).freeze then 1 else 0 } id same ∧
    Ends (.getFeatures fn cid 0xC2 0 c11) s
      { ok with dw0 := BitVec.ofNat 32 (s.nrg.envelope.toNat * 16 + s.host.ceiling.toNat) } id same

/-- Admin commands besides the queues and features (from R66, R70, R72, R76, R86, R87, R382, each in part): Abort and its limit of eight, event requests,
the vendor log pages, Identify, the self-test; what a function may not read or run is refused.
The model's own readings: log entries 5, 25. -/
def Obligations.HostAdministration : Prop :=
  ∀ (s : State) (fn cid sq acid lid off len n : Nat) (e : Aen) (es : List Aen) (c : Cmd) (v : Ns), MayFetch s fn 0 →
    let ok : Compl := { fn := fn, sq := 0, cid := cid }
    let x := ctrl s fn
    let logs := fun (i : Instr) (P : Bytes → Prop) =>
      ∃ d, Ends i s { ok with data := d } id (fun _ => True) ∧ P d
    (8 ≤ x.aborts.length → AdminFails (.abort fn cid sq acid) s fn cid .abortLimit 0) ∧
    (x.aborts.length < 8 → sq ≠ 0 →
      (findCmd s fn sq acid = none → Ends (.abort fn cid sq acid) s { ok with dw0 := 1 } id fun _ => True) ∧
      (findCmd s fn sq acid = some c → c.op = .read → HasQueue s fn sq → Gives (.abort fn cid sq acid) s fun t =>
        findCmd t fn sq acid = none ∧ ok ∈ entries t fn 0 ∧ { fn := fn, sq := sq, cid := acid, stat := .abortedByRequest } ∈ entries t fn sq) ∧
      (∀ j w, findCmd s fn sq acid = some c → c.op = .exec j → job s j = some w → w.st ≠ .ending → Gives (.abort fn cid sq acid) s fun t =>
        job t j = some { w with aborted := some (fn, cid), st := .ending, result := some (.abortedByRequest, 0) } ∧
        (ctrl t fn).aborts = x.aborts ++ [(cid, sq, acid)] ∧ entries t fn 0 = entries s fn 0)) ∧
    (8 ≤ x.aers.length → AdminFails (.asynchronousEventRequest fn cid) s fn cid .aerLimit 0) ∧
    (x.aers.length < 8 →
      (x.events = [] → Gives (.asynchronousEventRequest fn cid) s fun t =>
        ctrl t fn = { x with aers := x.aers ++ [cid] } ∧ entries t fn 0 = entries s fn 0) ∧
      (x.events = e :: es → e.typ < 8 → e.info < 256 → e.log < 256 → Gives (.asynchronousEventRequest fn cid) s fun t =>
        ctrl t fn = { x with events := es } ∧
        entries t fn 0 = entries s fn 0 ++ [{ ok with dw0 := BitVec.ofNat 32 (e.typ + e.info * 256 + e.log * 65536) }])) ∧
    (lid ∉ [0, 1, 2, 3, 4, 5, 6, 7, 0x0D, 0x20, 0x21, 0x22, 0x23, 0x81, 0x82, 0x83, 0x84, 0xC0, 0xC1, 0xC2, 0xC3, 0xC4, 0xC5] →
      AdminFails (.getLogPage fn cid lid off len true) s fn cid .invalidLogPage 0) ∧
    (1 ≤ fn → fn ≤ 63 → lid ∈ [0x06, 0x07, 0x0D, 0x81] → AdminFails (.getLogPage fn cid lid off len true) s fn cid .invalidLogPage 0) ∧
    logs (.getLogPage fn cid 0xC1 0 8168 true) (fun d => d.length = 8168 ∧ ∀ m f, s.nv.faults[m]? = some f → m < 255 →
      leAt d (8 + 32 * m) 4 = f.seq % 2 ^ 32 ∧ leAt d (12 + 32 * m) 8 = f.t % 2 ^ 64 ∧ leAt d (20 + 32 * m) 1 = f.kind % 256 ∧
      leAt d (21 + 32 * m) 1 = f.cls % 256 ∧ leAt d (22 + 32 * m) 2 = f.inst % 65536) ∧
    (fn = 0 → off % 4 = 0 →
      (Gives (.getLogPage 0 cid 0xC1 off len false) s fun t => t.host.evOut = s.host.evOut &&& 0xB) ∧
      (Gives (.getLogPage 0 cid 0xC2 off len false) s fun t => t.host.evOut = s.host.evOut &&& 0x7) ∧
      (Gives (.getLogPolderStatus 0 cid off len false) s fun t => t.host.evOut = s.host.evOut &&& 0xC ∧ ∀ p, (polder t p).tdDone = false)) ∧
    logs (.getLogPolderStatus fn cid 0 2056 true) (fun d => d.length = 2056 ∧ ∀ p, p < 64 →
      let w := polder s p
      if fn = 0 ∨ fn = 64 ∨ p = fnPolder fn then
        leAt d (8 + 32 * p) 1 = p ∧ leAt d (10 + 32 * p) 1 = w.gen.toNat ∧ leAt d (11 + 32 * p) 1 = w.progress.toNat ∧
        leAt d (12 + 32 * p) 4 = w.breaches.toNat ∧ leAt d (20 + 32 * p) 8 = w.tdTime % 2 ^ 64
      else ∀ k, k < 32 → d.getD (8 + 32 * p + k) 0 = 0) ∧
    (fn ≠ 0 → AdminFails (.getLogCalibrationExport fn cid off len) s fn cid .invalidLogPage 0) ∧
    (fn = 0 → off % 4 = 0 →
      (s.host.calSnap = none ∨ off = 0 → Ends (.getLogCalibrationExport 0 cid off len) s { ok with data := span (logC5 s.nv.cal) off len }
        (fun h => { h with calSnap := some s.nv.cal }) fun _ => True) ∧
      (∀ b, s.host.calSnap = some b → off ≠ 0 →
        Ends (.getLogCalibrationExport 0 cid off len) s { ok with data := span (logC5 b) off len } id fun _ => True)) ∧
    (∃ d, (Gives (.identify fn cid 1 0) s fun t => entries t fn 0 = entries s fn 0 ++ [{ ok with data := d }]) ∧ d.length = 4096 ∧
      leAt d 0 2 = 0x1F3C ∧ leAt d 78 2 = fn ∧ leAt d 516 4 = 1024) ∧
    (attached s fn n = some v → ∃ d, (Gives (.identify fn cid 0 n) s fun t => entries t fn 0 = entries s fn 0 ++ [{ ok with data := d }]) ∧
      leAt d 0 8 = v.blocks % 2 ^ 64) ∧
    (attached s fn 0 = none → AdminFails (.identify fn cid 0 0) s fn cid .invalidNs 0) ∧
    (IsPf fn → n = 1 ∨ n = 2 → Ends (.deviceSelfTest fn cid n) s ok (fun h => { h with selfTest := n }) fun _ => True) ∧
    (¬ IsPf fn → AdminFails (.deviceSelfTest fn cid n) s fn cid .invalidOpcode 0)

/-- The NVM command set (from R22-R24, R67, R80, R91, R92, R376, R377, R463, each in part): writes enter protected staging in order, wait at step 1 while they
do not fit, are refused with a staging limit of 0; a guard or reference tag mismatch ends a command and changes nothing; reads, compares, verifies and copies take the newest staged data; flush waits for
staged writes; the map changes give their blocks the special value; 3.5 ms after its fetch a command ends Interrupted.
The model's own readings: log entry 23. -/
def Obligations.IoCommands : Prop :=
  ∀ (s : State) (fn sq cid nsid slba n : Nat) (blocks : List Bytes) (deac : Bool) (v : Ns) (c : Cmd) (data b : Bytes) (pi : PiChk),
    let k : Compl := { fn := fn, sq := sq, cid := cid }
    let done := fun (t : State) (k : Compl) => entries t fn sq = entries s fn sq ++ [k]
    let staged := fun (t : State) (first ord : Nat) (bs : List Bytes) => t.ftla.staging.length = s.ftla.staging.length + bs.length ∧
      ∀ i l, i < bs.length → lidx v (first + i) = some l → t.ftla.staging[s.ftla.staging.length + i]? =
        some { seq := s.ftla.stageSeq + 1 + i, nsid := nsid, lba := first + i, lidx := l, polder := fnPolder fn,
               data := padTo (blockLen v) (bs.getD i []), ord := ord, t := s.now }
    let room := fun (bs : List Bytes) => occupancy s + bs.length * blockLen v ≤ s.nrg.limit * 1048576
    (MayIo s fn sq → attached s fn nsid = some v → findCmd s fn sq cid = none →
      (∀ i, slba + i < v.blocks → lidx v (slba + i) ≠ none) →
      let newest := fun (i : Nat) (d : Bytes) => ∃ l e, lidx v (slba + i) = some l ∧ stagedOf s l = some e ∧ stagedLost s e = false ∧ e.data = d
      let all := fun (ds : List Bytes) => ∀ i, i < ds.length → newest i (ds.getD i [])
      let len := blocks.length
      (1 ≤ len → len ≤ 512 → slba + len ≤ v.blocks →
        (s.nrg.limit ≠ 0 → piFail v pi slba blocks = none → room blocks → Gives (.write fn sq cid nsid slba blocks pi) s fun t =>
          done t k ∧ staged t slba (s.host.ord + 1) blocks) ∧
        (s.nrg.limit ≠ 0 → piFail v pi slba blocks = none → ¬ room blocks → Gives (.write fn sq cid nsid slba blocks pi) s fun t =>
          entries t fn sq = entries s fn sq ∧ t.ftla.staging = s.ftla.staging ∧
          ∃ w ∈ t.host.cmds, cmdOn w fn sq = true ∧ w.cid = cid ∧ w.op = .write slba blocks) ∧
        (s.nrg.limit = 0 → Gives (.write fn sq cid nsid slba blocks pi) s fun t =>
          Posts s t { k with stat := .writeProtected } ∧ t.ftla.staging = s.ftla.staging) ∧
        (∀ e, s.nrg.limit ≠ 0 → piFail v pi slba blocks = some e → Gives (.write fn sq cid nsid slba blocks pi) s fun t =>
          Posts s t { k with stat := e, dnr := true } ∧ t.ftla.staging = s.ftla.staging) ∧
        (all blocks → (∀ i, i < len → piBlock v pi i (slba + i) (blocks.getD i []) = none) →
          (Gives (.read fn sq cid nsid ⟨slba, pi⟩ len) s fun t => done t { k with data := blocks.flatMap (padTo (blockLen v)) }) ∧
          (Gives (.compare fn sq cid nsid ⟨slba, pi⟩ blocks) s fun t => done t k) ∧
          (Gives (.verify fn sq cid nsid ⟨slba, pi⟩ len) s fun t => done t k) ∧
          (∀ dst, dst + len ≤ v.blocks → s.nrg.limit ≠ 0 → Gives (.copy fn sq cid nsid ⟨dst, pi⟩ 0 [(nsid, slba, len)]) s fun t =>
            entries t fn sq = entries s fn sq ∧ ∃ w ∈ t.host.cmds, cmdOn w fn sq = true ∧ w.cid = cid ∧
              w.op = .write dst ((List.range len).map (fun i => piMoved v (dst + i) (blocks.getD i []))))) ∧
        (∀ e, newest 0 b → piBlock v pi 0 slba b = some e → ∀ i ∈ [Instr.read fn sq cid nsid ⟨slba, pi⟩ 1, .compare fn sq cid nsid ⟨slba, pi⟩ [b],
          .verify fn sq cid nsid ⟨slba, pi⟩ 1], Gives i s fun t => Posts s t { k with stat := e, dnr := true } ∧ findCmd t fn sq cid = none)) ∧
      -- with LBA format 1: a 16-bit guard at byte 4152, a reference tag that is the LBA with type 1
      (v.lbaf = 1 → v.pi = 1 → b.length = 4160 →
        (pi.guard = true → ofBe (span b 4152 2) ≠ Config.piGuard 1 (b.take 4152) → piBlock v pi 0 slba b = some .guardCheck) ∧
        (pi.guard = false → pi.ref = true → ofBe (span b 4156 4) ≠ slba % 2 ^ 32 → piBlock v pi 0 slba b = some .refCheck) ∧
        (ofBe (span b 4152 2) = Config.piGuard 1 (b.take 4152) → ofBe (span b 4156 4) = slba % 2 ^ 32 →
          piBlock v pi 0 slba b = none)) ∧
      (v.blocks < slba + n → 1 ≤ n → n ≤ 512 → ∀ i ∈ [Instr.read fn sq cid nsid ⟨slba, pi⟩ n, .verify fn sq cid nsid ⟨slba, pi⟩ n,
        .writeZeroes fn sq cid nsid slba n deac, .writeUncorrectable fn sq cid nsid slba n],
        Gives i s fun t => Posts s t { k with stat := .lbaRange, dnr := true } ∧ t.ftla.map = s.ftla.map) ∧
      (s.host.cmds = [] →
        (s.ftla.staging = [] → Gives (.flush fn sq cid nsid) s fun t => done t k) ∧
        ((∃ e ∈ s.ftla.staging, e.nsid = nsid) → Gives (.flush fn sq cid nsid) s fun t => entries t fn sq = entries s fn sq ∧
          ∃ w ∈ t.host.cmds, cmdOn w fn sq = true ∧ w.cid = cid) ∧
        (s.ftla.staging = [] → jFull s = false → 1 ≤ n → slba + n ≤ v.blocks →
          let becomes := fun (i : Instr) (value : Nat) => Gives i s fun t => done t k ∧ ∀ l,
            mapGet t l = if ∃ m, m < n ∧ lidx v (slba + m) = some l then value else mapGet s l
          (s.nrg.limit ≠ 0 → becomes (.writeZeroes fn sq cid nsid slba n deac) (if deac then 0o777777777776 else 0o777777777774)) ∧
          becomes (.writeUncorrectable fn sq cid nsid slba n) 0o777777777775 ∧
          becomes (.datasetManagement fn sq cid nsid [(slba, n)]) 0o777777777776)) ∧
      (∃ d, d.length = n ∧ Gives (.ioManagementReceive fn sq cid nsid 1 n) s fun t => done t { k with data := d }) ∧
      Ends (.ioManagementSend fn sq cid nsid 1 data) s k id fun _ => True) ∧
    (findCmd s fn sq cid = some c → HasQueue s fn sq →
      (c.op = .write slba blocks → c.nsid = nsid → nsOf s nsid = some v → room blocks → (∀ i, i < blocks.length → lidx v (slba + i) ≠ none) →
        Gives (.stagingAdmit fn sq cid) s fun t => done t k ∧ staged t slba c.ord blocks) ∧
      (c.op = .read → sq ≠ 0 → c.t + 3500 ≤ s.now → Gives (.commandInterrupted fn sq cid) s fun t =>
        Posts s t { k with stat := .interrupted } ∧ findCmd t fn sq cid = none))

/-- A read of a block between steps 2 and 6 of its host write (R24): the command completes in its own step with the data of the staged
entry with the highest sequence number, where its protection information passes (R67). -/
def Obligations.StagedReads : Prop :=
  ∀ (s : State) (fn sq cid nsid slba l : Nat) (v : Ns) (e : Staged) (pi : PiChk), piBlock v pi 0 slba e.data = none → MayIo s fn sq → attached s fn nsid = some v → findCmd s fn sq cid = none →
    slba < v.blocks → lidx v slba = some l → e ∈ s.ftla.staging → e.lidx = l → stagedLost s e = false →
    (∀ x ∈ s.ftla.staging, x.lidx = l → x = e ∨ x.seq < e.seq) →
    Gives (.read fn sq cid nsid ⟨slba, pi⟩ 1) s fun t =>
      entries t fn sq = entries s fn sq ++ [{ fn := fn, sq := sq, cid := cid, data := padTo (blockLen v) e.data }] ∧
      findCmd t fn sq cid = none ∧ t.ftla.staging = s.ftla.staging ∧ t.ftla.map = s.ftla.map ∧ t.flcs = s.flcs

/-- Controllers, functions and their resets (from R28, R33, R49, R50, R54, R58, R60-R62, R81, R82, R85, R386-R390, each in part): link training, CC and
CSTS, the reach of each reset, SR-IOV, and the secondary controllers' resources. The model's own readings: log entry 43. -/
def Obligations.ControllersAndResets : Prop :=
  ∀ (s : State) (fn k n speed cid : Nat) (flit : Bool) (cc : W32),
    let x := ctrl s fn
    let lanes := laneWidth (min n (if s.rst.dual then 4 else 8))
    let port : Port := if lanes = 0 ∨ speed < 16 then { detect := true }
      else if 64 ≤ speed ∧ flit = true then { up := true, flit := true, width := lanes, speed := 6 }
      else if 32 ≤ speed then { up := true, width := lanes, speed := 5 } else { up := true, width := lanes, speed := 4 }
    let noQueues := fun (t : State) (f : Nat) => ∀ q, q < 65536 → sqOf t f q = none ∧ cqOf t f q = none
    let idle := (s.rst.ready = true ∨ s.rst.failed = true) ∧ s.pol.reactivate = false
    let tornDown := fun (t : State) (above : Nat) => ∀ p, p < 64 → (polder t p).st =
      if above < p ∧ (polder s p).st ≠ .empty then .teardown else (polder s p).st
    let isV := 1 ≤ k ∧ k ≤ 63
    (domainRuns s 1 = true → Gives (.linkTraining 0 speed n flit) s fun t => t = { s with host := { s.host with portA := port } }) ∧
    (domainRuns s 2 = true → s.rst.dual = true → Gives (.linkTraining 1 speed n flit) s fun t =>
      t = { s with host := { s.host with portB := port } }) ∧
    (present s fn = true → linkUp s fn = true → cc.getLsbD 0 = true → x.cc.getLsbD 0 = false → Gives (.controllerEnable fn cc) s fun t =>
      ctrl t fn = { x with cc := cc, rdy := false, shst := 0,
                           cfs := decide (cc.toNat / 16 % 8 ≠ 0 ∧ cc.toNat / 16 % 8 ≠ 6) || s.rst.failed || s.pw.thermal } ∧
      sqOf t fn 0 = some { size := 4096, cq := 0 } ∧ cqOf t fn 0 = some { size := 4096 } ∧ t = { s with host := t.host }) ∧
    (present s fn = true → x.cc.getLsbD 0 = true →
      (x.rdy = false → x.cfs = false → s.rst.ready = true → s.nv.failedDev = 0 → s.drc.failedCh = 0 →
        (fn = 0 ∨ fn = 64 ∨ (x.online = true ∧ (polder s fn).st = .active)) → Gives (.controllerReady fn) s fun t =>
          t = modCtrl s fn (fun c => { c with rdy := true })) ∧
      (idle → s.host.fwAct = none → (fn = 0 ∨ fn = 64 ∨ (polder s fn).st ≠ .teardown) → Gives (.controllerReset fn) s fun t =>
        ctrl t fn = { cc := x.cc &&& 0xFFFFFFFE#32, online := x.online, vq := x.vq, vi := x.vi } ∧ noQueues t fn ∧
        ∀ c ∈ t.host.cmds, c.fn ≠ fn) ∧
      (∀ a, idle → s.host.fwAct = some a → Gives (.controllerReset fn) s fun t => fn ∈ t.host.enClears ∧ t.host.sqs = s.host.sqs) ∧
      (x.shst = 0 → Gives (.normalShutdown fn) s fun t =>
        t = modCtrl s fn (fun c => { c with shst := 1, cc := (c.cc &&& 0xFFFF3FFF#32) ||| 0x4000#32 }))) ∧
    (x.shst = 1 → s.ftla.staging = [] → s.ftla.replaying = false → s.ftla.writeback = false → Gives (.shutdownComplete fn) s fun t =>
      t = modCtrl s fn (fun c => { c with shst := 2 })) ∧
    (s.host.vfEnable = false → n ≤ 63 → s.host.portA.up = true → Gives (.vfEnableSet n) s fun t =>
      t = { s with host := { s.host with vfEnable := true, numVfs := n } }) ∧
    (s.host.vfEnable = true → Gives .vfEnableClear s fun t => t.host.vfEnable = false ∧ tornDown t 0 ∧ (isV → noQueues t k)) ∧
    (n < s.host.numVfs → Gives (.numvfsLower n) s fun t => t.host.numVfs = n ∧ tornDown t n ∧ (isV → n < k → noQueues t k)) ∧
    (idle → (∀ i ∈ [Instr.portAConventionalReset, .portAPfFlr], Gives i s fun t => t.host.vfEnable = false ∧ t.host.numVfs = 0 ∧
        t.pol.reactivate = true ∧ tornDown t 0 ∧ (ctrl t 0).cc = 0 ∧ (k ≤ 63 → noQueues t k)) ∧
      (Gives .portAConventionalReset s fun t => t.host.portA = {}) ∧ (Gives .portAPfFlr s fun t => t.host.portA = s.host.portA) ∧
      (s.rst.dual = true → Gives (.portBConventionalReset flit) s fun t => noQueues t 64 ∧ t.pol = s.pol ∧
        t.host.portB = (if flit then s.host.portB else {})) ∧
      (isV → present s k = true → (polder s k).st ≠ .teardown → Gives (.vfFlr k) s fun t => noQueues t k ∧
        (∀ j w, job t j = some w → w.polder ≠ k) ∧
        (polder t k).st = (polder s k).st ∧ ((polder s k).st = .quiescing → (polder t k).drained = true))) ∧
    (MayFetch s fn 0 →
      let ok : Compl := { fn := fn, sq := 0, cid := cid }
      let put := fun (f : Ctrl → Ctrl) (h : HostIf) => { h with ctrls := tmod h.ctrls {} k f }
      let y := ctrl s k
      (¬ IsPf fn → AdminFails (.virtualizationManagement fn cid .online k) s fn cid .invalidOpcode 0) ∧
      (fn = 0 → isV → (polder s k).st = .teardown →
        AdminFails (.virtualizationManagement 0 cid .online k) s 0 cid .tornDown (BitVec.ofNat 32 k)) ∧
      (fn = 0 → isV → (polder s k).st ≠ .teardown →
        (2 ≤ y.vq → 1 ≤ y.vi →
          Ends (.virtualizationManagement 0 cid .online k) s ok (put (fun c => { c with online := true })) fun _ => True) ∧
        (y.vq < 2 ∨ y.vi < 1 → AdminFails (.virtualizationManagement 0 cid .online k) s 0 cid .invalidResources 0) ∧
        (y.online = true → AdminFails (.virtualizationManagement 0 cid (.assignVq n) k) s 0 cid .secondaryState 0) ∧
        (y.online = false → n ≤ 1024 →
          (heldBy s k (fun c => c.vq) + n ≤ (if s.rst.dual then 3968 else 4032) →
            Ends (.virtualizationManagement 0 cid (.assignVq n) k) s { ok with dw0 := BitVec.ofNat 32 n }
              (put (fun c => { c with vq := n })) fun _ => True) ∧
          (heldBy s k (fun c => c.vi) + n ≤ (if s.rst.dual then 1920 else 1984) →
            Ends (.virtualizationManagement 0 cid (.assignVi n) k) s { ok with dw0 := BitVec.ofNat 32 n }
              (put (fun c => { c with vi := n })) fun _ => True) ∧
          ((if s.rst.dual then 3968 else 4032) < heldBy s k (fun c => c.vq) + n →
            AdminFails (.virtualizationManagement 0 cid (.assignVq n) k) s 0 cid .invalidResources 0)) ∧
        (Gives (.virtualizationManagement 0 cid .offline k) s fun t => (ctrl t k).online = false ∧ noQueues t k ∧ ok ∈ entries t 0 0)))

/-- Power states (R88, R89, R348, R349): an idle module starts the entry of its APST entry; the entry takes the state, the DRAM enters
self-refresh and no map page stays cached in segments 1 to 3; the exit returns to the last operational state; the segments are
initialised with zeros. The model's own readings: log entry 24. -/
def Obligations.PowerStates : Prop :=
  ∀ (s : State) (n ms : Nat),
    (s.host.apstEn = true → s.host.apst[s.host.ps]? = some (n, ms) → n ≠ 0 → s.host.ps < n → s.host.psEntry = none →
      s.host.psExit = false → (∀ c ∈ s.host.cmds, c.sq = 0) → s.jobs = [] → s.host.idleSince + ms * 1000 ≤ s.now →
      Gives .apstIdleTimer s fun t => t = { s with host := { s.host with psEntry := some n } }) ∧
    (s.host.psEntry = some n → (∀ c ∈ s.host.cmds, c.sq = 0) → s.jobs = [] → s.host.psExit = false →
      (∀ e ∈ s.ftla.pages, e.2.cached = true → e.2.dirty = true → slotDropped e.2.slot = false) → Gives .powerStateEntry s fun t =>
        t.host.ps = n ∧ t.host.psEntry = none ∧ (s.host.ps ≤ 3 → t.host.opPs = s.host.ps) ∧ t.drc = { s.drc with selfref := true } ∧
        ∀ p, (tget t.ftla.pages {} p).cached = true → slotDropped (tget t.ftla.pages {} p).slot = false) ∧
    (s.host.psExit = true → 4 ≤ s.host.ps → Gives .powerStateExit s fun t =>
      t = { s with drc := { s.drc with selfref := false, init := true },
                   host := { s.host with ps := s.host.opPs, psExit := false, idleSince := s.now } }) ∧
    (s.drc.init = true → Gives .dramSegmentInitDone s fun t => t.drc = { s.drc with init := false } ∧
      ∀ x, readByte t.dram x = if 3758096384 ≤ x ∧ x < 15032385536 then 0 else readByte s.dram x)

/-- Namespaces (R32, R64, R200, R304): created under the lowest free NSID with fresh pages and a fresh media key, deleted, attached to
one controller at most and so to its polder, formatted, sanitized; what is not allowed changes nothing.
The model's own readings: log entry 27. -/
def Obligations.Namespaces : Prop :=
  ∀ (s : State) (fn cid nsid cntlid blocks lbaf ses : Nat) (v : Ns) (segs : List (Nat × Nat)), MayFetch s fn 0 → nsid ≠ 0xFFFFFFFF →
    let ok : Compl := { fn := fn, sq := 0, cid := cid }
    let done := fun (t : State) (d : W32) => entries t fn 0 = entries s fn 0 ++ [{ ok with dw0 := d }]
    let others := fun (t : State) (n : Nat) => ∀ m, m ≠ n → nsOf t m = nsOf s m
    -- LBA format 0 to 2, extended LBA in bit 4, protection information type 0 to 3 in bits 7:5, only with metadata
    let fmt := lbaf < 128 ∧ lbaf % 16 ≤ 2 ∧ (lbaf / 32 = 0 ∨ lbaf % 16 ≠ 0)
    let all := fun (t : State) (g : List (Nat × Nat)) (x : Nat) =>
      ∀ e ∈ g, ∀ l, e.1 ≤ l / 1024 → l / 1024 < e.1 + e.2 → l < mapEnd → mapGet t l = x
    (IsPf fn →
      (1 ≤ blocks → fmt → 1 ≤ nsid → nsid ≤ 1024 → nsOf s nsid = none → (∀ m, 1 ≤ m → m < nsid → nsOf s m ≠ none) →
        (allocSegs s blocks = some segs → Gives (.namespaceCreate fn cid blocks lbaf) s fun t => done t (BitVec.ofNat 32 nsid) ∧
          nsOf t nsid = some { blocks := blocks, lbaf := lbaf % 16, ext := lbaf / 16 % 2 == 1, pi := lbaf / 32, segs := segs } ∧ others t nsid ∧ all t segs 0o777777777777 ∧
          tget t.isl.media 0 nsid = s.nv.nextKey ∧ t.nv.nextKey = s.nv.nextKey + 1) ∧
        (allocSegs s blocks = none → AdminFails (.namespaceCreate fn cid blocks lbaf) s fn cid .insufficientCapacity 0)) ∧
      (nsOf s nsid = some v →
        (Gives (.namespaceDelete fn cid nsid) s fun t => ok ∈ entries t fn 0 ∧ nsOf t nsid = none ∧ others t nsid ∧
          all t v.segs 0o777777777777 ∧ ∀ e ∈ t.ftla.staging, e.nsid ≠ nsid) ∧
        (cntlid ≤ 63 → (polder s cntlid).st ≠ .teardown →
          (v.ctrl = none → Gives (.namespaceAttach fn cid nsid cntlid) s fun t => ok ∈ entries t fn 0 ∧ others t nsid ∧
            nsOf t nsid = some { v with ctrl := some cntlid, owner := cntlid }) ∧
          (v.ctrl ≠ none → AdminFails (.namespaceAttach fn cid nsid cntlid) s fn cid .alreadyAttached 0) ∧
          (v.ctrl = some cntlid → Gives (.namespaceDetach fn cid nsid cntlid) s fun t => ok ∈ entries t fn 0 ∧ others t nsid ∧
            nsOf t nsid = some { v with ctrl := none, owner := 0 }) ∧
          (v.ctrl ≠ some cntlid → AdminFails (.namespaceDetach fn cid nsid cntlid) s fn cid .notAttached 0))) ∧
      (cntlid ≤ 63 → (polder s cntlid).st = .teardown → ∀ i ∈ [Instr.namespaceAttach fn cid nsid cntlid, .namespaceDetach fn cid nsid cntlid],
        AdminFails i s fn cid .tornDown (BitVec.ofNat 32 cntlid)) ∧
      ((∀ e ∈ s.pol.tab, e.1 = 0 ∨ e.2.st = .empty) →
        (Gives (.sanitizeBlockErase fn cid) s fun t => done t 0 ∧ t.ftla.staging = [] ∧ t.ftla.media = [] ∧
          (nsOf s nsid = some v → all t v.segs 0o777777777776)) ∧
        (Gives (.sanitizeCryptoErase fn cid) s fun t => done t 0 ∧ t.ftla.staging = [] ∧
          (nsOf s nsid = some v → s.nv.nextKey ≤ tget t.isl.media 0 nsid))) ∧
      ((∃ p, p ≠ 0 ∧ (polder s p).st ≠ .empty) → ∀ i ∈ [Instr.sanitizeBlockErase fn cid, .sanitizeCryptoErase fn cid],
        AdminFails i s fn cid .sequenceError 0)) ∧
    (¬ IsPf fn → ∀ i ∈ [Instr.namespaceCreate fn cid blocks lbaf, .namespaceDelete fn cid nsid, .namespaceAttach fn cid nsid cntlid,
      .namespaceDetach fn cid nsid cntlid, .sanitizeBlockErase fn cid, .sanitizeCryptoErase fn cid], AdminFails i s fn cid .invalidOpcode 0) ∧
    (IsPf fn → ¬ fmt → 1 ≤ blocks → AdminFails (.namespaceCreate fn cid blocks lbaf) s fn cid .invalidFormat 0) ∧
    (nsOf s nsid = some v → ¬ fmt → IsPf fn ∨ v.ctrl = some fn → AdminFails (.formatNvm fn cid nsid lbaf ses) s fn cid .invalidFormat 0) ∧
    (nsOf s nsid = some v → fmt → ses ≤ 2 →
      (IsPf fn ∨ v.ctrl = some fn → Gives (.formatNvm fn cid nsid lbaf ses) s fun t => done t 0 ∧ others t nsid ∧
        nsOf t nsid = some { v with lbaf := lbaf % 16, ext := lbaf / 16 % 2 == 1, pi := lbaf / 32 } ∧ all t v.segs 0o777777777777 ∧
        (ses = 2 → tget t.isl.media 0 nsid = s.nv.nextKey) ∧ (ses ≠ 2 → t.isl = s.isl)) ∧
      (¬ IsPf fn → v.ctrl ≠ some fn → AdminFails (.formatNvm fn cid nsid lbaf ses) s fn cid .invalidNs 0))

/-- Firmware (from R84, R85, R401, R402, R404, each in part): the download area; the checks of a commit; what actions 0 to 3 store and mark; an activation
stops fetching, pauses the jobs, goes on once the engines are drained, runs the new image and measures it, or returns to the previous one.
The model's own readings: log entry 44. -/
def Obligations.FirmwareUpdate : Prop :=
  ∀ (s : State) (fn cid off slot : Nat) (data : Bytes) (a : FwAct),
    let ok : Compl := { fn := fn, sq := 0, cid := cid }
    let im := s.nv.download.take (leAt s.nv.download 8 4)
    let m := if slot = 0 then (if s.rst.slot then 1 else 2) else slot
    let stored := if m = 2 then s.nv.slot2 else s.nv.slot1
    let put := fun (v : Nv) => if m = 2 then { v with slot2 := im } else { v with slot1 := im }
    (MayFetch s fn 0 →
      (IsPf fn → data.length % 4 = 0 → data ≠ [] → off % 4 = 0 → data.length ≤ 2097152 → off + data.length ≤ 33554432 →
        Acts (.firmwareImageDownload fn cid off data) s ok (fun t => { t with nv := s.nv }) fun t =>
          t.nv = { s.nv with download := t.nv.download } ∧ ∀ x, t.nv.download.getD x 0 =
            if off ≤ x ∧ x < off + data.length then data.getD (x - off) 0 else s.nv.download.getD x 0) ∧
      (IsPf fn → slot ≤ 2 →
        (fwCheck s im = none →
          (Acts (.firmwareCommitReplace fn cid slot) s ok (fun t => { t with nv := s.nv }) fun t => t.nv = put s.nv) ∧
          (Gives (.firmwareCommitReplaceActivate fn cid slot) s fun t => entries t fn 0 = entries s fn 0 ++ [ok] ∧
            t.nv = { put s.nv with active := m == 2 } ∧ t.host.fwPending = true) ∧
          (Gives (.firmwareActivationWithoutReset fn cid slot) s fun t => t.nv = put s.nv ∧
            t.host.fwAct = some { fn := fn, cid := cid, slot := m, t := s.now } ∧ ∀ f q, canFetch t f q = false)) ∧
        (fwCheck s stored = none → Gives (.firmwareCommitActivate fn cid slot) s fun t => entries t fn 0 = entries s fn 0 ++ [ok] ∧
          t.nv = { s.nv with active := m == 2 } ∧ t.host.fwPending = true) ∧
        (formatOk im true = false → ∀ i ∈ [Instr.firmwareCommitReplace fn cid slot, .firmwareCommitReplaceActivate fn cid slot,
          .firmwareActivationWithoutReset fn cid slot], AdminFails i s fn cid .invalidFirmware 0) ∧
        (formatOk im true = true → signedBy im Config.spagoernKey = true → leAt im 56 2 < s.nv.svnMin.toNat →
          AdminFails (.firmwareCommitReplace fn cid slot) s fn cid .activationProhibited 0)) ∧
      (¬ IsPf fn → ∀ i ∈ [Instr.firmwareImageDownload fn cid off data, .firmwareCommitReplace fn cid slot,
        .firmwareCommitReplaceActivate fn cid slot, .firmwareCommitActivate fn cid slot, .firmwareActivationWithoutReset fn cid slot],
        AdminFails i s fn cid .invalidOpcode 0)) ∧
    (s.host.fwAct = some a → a.quiesced = false → a.paused = false → (∀ c ∈ s.host.cmds, c.sq = 0 ∨ ∃ j, c.op = .exec j) →
      let drained := ∀ e ∈ s.bpm.rings, ∀ f ∈ e.2.flight, f.res ≠ none ∨ (f.waitBuf = none ∧ ∀ p ∈ f.parts, p.data ≠ none ∨ p.bad = true)
      Gives .fwActivationQuiesced s fun t =>
      (∃ q, t.host.fwAct = some { a with paused := true, pauseT := s.now, quiesced := q } ∧ (q = true ↔ drained)) ∧ ∀ j v, job s j = some v → v.st = .running →
        job t j = some { v with st := .paused, prev := .running, pauseT := s.now } ∧
        ∀ c ∈ v.cores, (core s c).st = .running ∨ (core s c).st = .waiting → (core t c).st = .paused) ∧
    (s.host.fwAct = some a → a.quiesced = true → a.byReset = false → s.host.enClears = [] → s.jobs = [] →
      findCmd s a.fn 0 a.cid ≠ none → HasQueue s a.fn 0 →
      let now := if a.slot = 2 then s.nv.slot2 else s.nv.slot1
      let end_ : Compl := { fn := a.fn, sq := 0, cid := a.cid }
      (Gives (.fwActivationSelfCheck true) s fun t => t.host.fwAct = none ∧ t.rst.image = now ∧ t.rst.slot = (a.slot == 2) ∧
        t.nv.active = (a.slot == 2) ∧ entries t a.fn 0 = entries s a.fn 0 ++ [end_] ∧
        (tget t.isl.meas {} 3).val = Config.sha384 ((tget s.isl.meas {} 3).val ++ Config.sha384 (imSigned now)) ∧
        ∀ c ∈ s.rst.service, (core t c).st = .running ∧ (core t c).pc = BitVec.ofNat 36 (imageWin + imEntry now)) ∧
      (Gives (.fwActivationSelfCheck false) s fun t => t.host.fwAct = none ∧ t.rst.image = s.rst.image ∧ t.nv = s.nv ∧
        entries t a.fn 0 = entries s a.fn 0 ++ [{ end_ with stat := .invalidFirmware, dnr := true }]))

/-- The security protocols (from R202-R209, R212, R228, R457, R460, each in part): what each Receive answers and what each Send changes for the function's
polder; a wrong NSSF or transfer length, a missing KEK or transport key, a blob that does not unwrap is refused.
The model's own readings: log entry 36. -/
def Obligations.SecurityProtocols : Prop :=
  ∀ (s : State) (fn cid nssf a : Nat) (data b key : Bytes) (g : BitVec 8) (send : Bool) (secp spsp : Nat), MayFetch s fn 0 →
    let p := fnPolder fn
    let ok : Compl := { fn := fn, sq := 0, cid := cid }
    let undo := fun (t : State) => { t with isl := s.isl }
    let bad := fun (i : Instr) (st : NStat) => AdminFails i s fn cid st 0
    let signed := fun (b : Bytes) => b ++ padTo 96 (Config.attestSign b)
    let slot := fun (k : KeySlot) => [if k.key.isSome then 1#8 else 0#8, k.gen, if k.shadow.isSome then 1#8 else 0#8, k.alg.setWidth 8]
    let status := [1#8, g] ++ (cipherSlots s p).flatMap (fun a => slot (tget s.isl.keys {} a)) ++
      (hmacSlots s p).flatMap (fun a => slot (tget s.isl.hmacs {} a))
    let pub := leBytes 1 p ++ leBytes 1 (tget s.isl.transGen 0 p).toNat ++ padTo 97 (Config.transportPub (tget s.isl.transDraw 0 p)) ++
      padTo 8 Config.attestKeyId
    let quoted := tget s.host.nonces [] p ++ (List.range 8).flatMap (quoteReg s) ++ quoteReg s (8 + p)
    (Ends (.securityProtocolList fn cid false 0 0) s { ok with data := [0, 0, 0, 0, 0, 0, 0, 2, 0, 0xF2] } id fun _ => True) ∧
    (send = true ∨ secp ≠ 0 ∨ spsp ≠ 0 → bad (.securityProtocolList fn cid send secp spsp) .invalidField) ∧
    (nssf ≠ 0 → ∀ i ∈ [Instr.transportKey fn cid nssf, .attestationChain fn cid nssf, .slotStatus fn cid nssf, .quoteNonce fn cid nssf data,
      .quote fn cid nssf, .establish fn cid nssf data, .loadKey fn cid nssf data, .eraseKey fn cid nssf data, .imageKey fn cid nssf data,
      .eraseAll fn cid nssf data], bad i .invalidField) ∧
    (Ends (.transportKey fn cid 0) s { ok with data := signed pub } id fun _ => True) ∧
    (Ends (.attestationChain fn cid 0) s { ok with data := Config.attestChain.take 8192 } id fun _ => True) ∧
    (∀ kek, tget s.isl.kek none p = some (g, kek) → Ends (.slotStatus fn cid 0) s { ok with data := status } id fun _ => True) ∧
    (data.length = 32 → Ends (.quoteNonce fn cid 0 data) s ok (fun h => { h with nonces := tset h.nonces [] p data }) fun _ => True) ∧
    (data.length ≠ 32 → bad (.quoteNonce fn cid 0 data) .invalidField) ∧
    (tget s.host.nonces [] p ≠ [] →
      Acts (.quote fn cid 0) s { ok with data := signed quoted } (fun t => { t with freeCtr := s.freeCtr }) fun _ => True) ∧
    (data.length = 97 →
      (Config.p384Valid data = true → tget s.isl.transDraw 0 p ≠ 0 → Acts (.establish fn cid 0 data) s ok undo fun t =>
        tget t.isl.kek none p = some (tget s.isl.transGen 0 p,
          (Config.sha384 ([0, 0, 0, 1] ++ Config.ecdh (tget s.isl.transDraw 0 p) data ++ ascii "GLM256 KEK" ++
            [BitVec.ofNat 8 p, tget s.isl.transGen 0 p])).take 32) ∧
        tget t.isl.transGen 0 p = tget s.isl.transGen 0 p + 1 ∧ tget t.isl.transDraw 0 p = s.isl.draws + 1 ∧ t.isl.keys = s.isl.keys) ∧
      (Config.p384Valid data = false → bad (.establish fn cid 0 data) .invalidField) ∧
      (Config.p384Valid data = true → tget s.isl.transDraw 0 p = 0 → bad (.establish fn cid 0 data) .sequenceError)) ∧
    (blobOk data = true → leAt data 2 1 = 1 → keySlot s p (leAt data 4 2) = some a →
      (tget s.isl.kek none p = none → bad (.loadKey fn cid 0 data) .sequenceError) ∧
      (tget s.isl.kek none p = some (g, key) →
        (g.toNat ≠ leAt data 7 1 → bad (.loadKey fn cid 0 data) .sequenceError) ∧
        (g.toNat = leAt data 7 1 → Config.keyUnwrap key (data.drop 8) = none → bad (.loadKey fn cid 0 data) .accessDenied) ∧
        (g.toNat = leAt data 7 1 → Config.keyUnwrap key (data.drop 8) = some b → b.take 8 = data.take 8 → b.length = 8 + leAt data 6 1 →
          (polder s p).st ≠ .teardown → Acts (.loadKey fn cid 0 data) s ok undo fun t =>
            let k := tget s.isl.keys {} a
            (tget t.isl.keys {} a).key = some (b.drop 8) ∧ (tget t.isl.keys {} a).gen = k.gen + 1 ∧
            (∀ old, k.key = some old → (tget t.isl.keys {} a).shadow = if cipherHolds s a k.gen then some (k.gen, old) else none) ∧
            ∀ c, c ≠ a → tget t.isl.keys {} c = tget s.isl.keys {} c))) ∧
    (data.length = 4 →
      (leAt data 0 1 = 1 → keySlot s p (leAt data 2 2) = some a → Acts (.eraseKey fn cid 0 data) s ok undo fun t =>
        t.isl = { s.isl with keys := t.isl.keys } ∧ tget t.isl.keys {} a = { gen := (tget s.isl.keys {} a).gen } ∧
        ∀ c, c ≠ a → tget t.isl.keys {} c = tget s.isl.keys {} c) ∧
      (leAt data 0 1 = 3 → Acts (.eraseKey fn cid 0 data) s ok undo fun t => tget t.isl.kek none p = none ∧
        (∀ c, c < 256 → keyOwner s c = p → tget t.isl.keys {} c = { gen := (tget s.isl.keys {} c).gen }) ∧
        ∀ c, c < 64 → hmacOwner s c = p → tget t.isl.hmacs {} c = { gen := (tget s.isl.hmacs {} c).gen })) ∧
    (data.length = 98 → Config.p384Valid (data.drop 1) = true →
      (leAt data 0 1 = 0 → Acts (.imageKey fn cid 0 data) s ok undo fun t =>
        t.isl = { s.isl with imageKey := tset s.isl.imageKey none p (some (data.drop 1)) }) ∧
      (leAt data 0 1 = 1 → fn = 0 → Acts (.imageKey fn cid 0 data) s ok (fun t => { t with nv := s.nv }) fun t =>
        t.nv = { s.nv with opImageKey := some (data.drop 1) }) ∧
      (leAt data 0 1 = 1 → fn ≠ 0 → bad (.imageKey fn cid 0 data) .invalidField)) ∧
    (fn = 0 → Gives (.eraseAll 0 cid 0 []) s fun t => ok ∈ entries t 0 0 ∧ t.isl.kek = [] ∧ t.isl.media = [] ∧
      (∀ k, (tget t.isl.keys {} k).key = none ∧ (tget t.isl.keys {} k).shadow = none ∧ (tget t.isl.hmacs {} k).key = none) ∧
      t.isl.last = 7 ∧ t.isl.ready = false) ∧
    (fn ≠ 0 → bad (.eraseAll fn cid 0 []) .invalidField)

/-! ## The engine rings -/

/-- Rings (from R174-R180, R183, R194-R196, R226, each in part): doorbells, dispatch of the descriptor at CONS, the completion record and its holding while 32
are unconsumed, cancel, restart and release. The model's own readings: log entry 14. -/
def Obligations.EngineRings : Prop :=
  ∀ (s : State) (ini : Ini) (r idx : Nat) (v : W32) (n : BitVec 16) (f : Flight) (e : ERes),
    let g := ring s r
    let page := frameOf 4 0 1
    let i := v.toNat % 65536
    let d : Flight := { idx := g.cons.toNat, words := (List.range 16).map (fun k => tget g.desc 0 (g.cons.toNat % 32 * 16 + k)) }
    (r < 256 → Writable s ini page →
      (g.holder = .free ∨ g.holder = .service →
        ((n - g.cons).toNat ≤ 32 → Gives (.ringDoorbell ini r n) s fun t => t = setRing s r { g with holder := .service, prod := n }) ∧
        (32 < (n - g.cons).toNat → n ≠ g.prod → Gives (.ringDoorbell ini r n) s fun t =>
          t = setRing s r { g with holder := .service, halted := true, cause := 3, concerned := n })) ∧
      (∀ j, g.holder = .job j → (Gives (.ringDoorbell ini r n) s fun t => t = setRing s r { g with foreign := true }) ∧
        (Gives (.ringRelease ini r) s fun t => HasError t page 0x41 ∧ t.bpm = s.bpm)) ∧
      (g.holder = .service → Gives (.ringRelease ini r) s fun t => ring t r = {})) ∧
    (g.halted = false → g.cons ≠ g.prod → g.cprod - g.ccons ≠ 32 → g.held = [] → ringLive s r = true → draining s = false →
      g.skip = [] → slotPoison s r g.cons.toNat = false →
      (descInvalid s r d = true → Gives (.descriptorDispatch r) s fun t =>
        t = setRing s r { g with halted := true, cause := 2, concerned := g.cons }) ∧
      (descInvalid s r d = false → fFence d = true → g.flight ≠ [] → Gives (.descriptorDispatch r) s fun t => t = s) ∧
      (descInvalid s r d = false → fFence d = false → descHeld s r d = true → Gives (.descriptorDispatch r) s fun t => t = s) ∧
      (descInvalid s r d = false → fFence d = false → descHeld s r d = false → fKind d ≤ 1 →
        let ins := if fKind d = 1 then [fw d 3] else []
        (isFrag d = false → Gives (.descriptorDispatch r) s fun t => t = { s with bpm := { s.bpm with rings := t.bpm.rings } } ∧
          (∀ q, ring t q = if q = r then { g with cons := g.cons + 1, flight := g.flight ++ [{ d with ins := ins }] } else ring s q)) ∧
        (isFrag d = true → fFirst d = false → Gives (.descriptorDispatch r) s fun t =>
          t = { s with bpm := { s.bpm with rings := t.bpm.rings } } ∧ (ring t r).cons = g.cons + 1 ∧
          (ring t r).flight = g.flight ++ [{ d with ins := ins, pipe := if fCls d = 3 then cPipe (fw d 11) else cPipe (fw d 7) }]) ∧
        (isFrag d = true → fFirst d = true → fLast d = false → fCls d = 3 → Gives (.descriptorDispatch r) s fun t =>
          ∃ f k q, (ring t r).flight = g.flight ++ [f] ∧ f.words = d.words ∧ f.key = firstKey s (ringStamp s r) d ∧ f.strm = some (k, q) ∧
            k / 64 = f.pipe ∧ (tget s.isl.cctx {} k).used = false ∧ q = (tget s.isl.cctx {} k).seq + 1 ∧
            tget t.isl.cctx {} k = { firstCtx s r f with seq := q } ∧ ∀ m, m ≠ k → tget t.isl.cctx {} m = tget s.isl.cctx {} m))) ∧
    (g.halted = true ∨ g.cons = g.prod ∨ ringLive s r = false ∨ draining s = true → Gives (.descriptorDispatch r) s fun t => t = s) ∧
    (flightOf s r idx = some f → f.res = some e →
      (e.verdict = none → f.down = none → f.chain = [] → fNext f = 255 → fNocomp f = false → e.outs = [] →
        (g.cprod - g.ccons ≠ 32 → g.held = [] → Gives (.engineCompletion r idx true) s fun t =>
          let word := fun k => tget (ring t r).comp 0 (g.cprod.toNat % 32 * 8 + k)
          (ring t r).cprod = g.cprod + 1 ∧ flightOf t r idx = none ∧
          word 0 = BitVec.ofNat 32 (e.status.toNat * 2 ^ 24 + fCls f * 2 ^ 20 + idx % 65536) ∧ word 1 = fw f 1 ∧
          word 2 = BitVec.ofNat 32 e.consumed ∧ word 3 = BitVec.ofNat 32 e.produced ∧ word 6 = e.w6 ∧ word 7 = e.w7 ∧
          (e.status = 6 → (ring t r).halted = true ∧ (ring t r).cause = 1)) ∧
        (g.cprod - g.ccons = 32 → Gives (.engineCompletion r idx true) s fun t =>
          (ring t r).cprod = g.cprod ∧ (ring t r).comp = g.comp ∧ (ring t r).held.length = g.held.length + 1)) ∧
      (e.verify = true → Gives (.engineCompletion r idx false) s fun t => t.isl.last = 5 ∧ t.isl.ready = false)) ∧
    (r < 256 → areaOk s ini r = true →
      ((g.cprod - n).toNat ≤ 32 → Gives (.heldCompletionWrite ini r n) s fun t => (ring t r).ccons = n ∧
        ((ring t r).held = [] ∨ (ring t r).cprod - n = 32)) ∧
      (g.cancelReq = false → v.getLsbD 31 = true → flightOf s r i = some f → Gives (.ringCancel ini r v) s fun t =>
        (ring t r).cancelReq = true ∧ flightOf t r i = some { f with cancelled := true }) ∧
      (g.cancelReq = false → v.getLsbD 31 = true → flightOf s r i = none → i ∉ g.skip →
        (BitVec.ofNat 16 i - g.cons).toNat < (g.prod - g.cons).toNat → OpFails (.ringCancel ini r v) s r i 3) ∧
      (Gives (.ringRestart ini r 1) s fun t => t = setRing s r { g with halted := false, cause := 0, concerned := 0 }) ∧
      (v ≠ 1 → Gives (.ringRestart ini r v) s fun t => t = s)) ∧
    (r < 256 → areaOk s ini r = false → ∀ i ∈ [Instr.heldCompletionWrite ini r n, .ringCancel ini r v, .ringRestart ini r v],
      Gives i s fun t => t.bpm = s.bpm) ∧
    (flightOf s r idx = some f → f.cancelled = true → OpFails (.cancelAtBoundary r idx) s r idx 3)

/-- Buffers, DMA and extent reads (from R111-R113, R181, R182, R186-R190, R368, each in part): allocation within the quota or the wait for a buffer, its end
after 100 µs, references, freeing; SLM written and read by a ring; a block of a namespace; the leak audit; the end of a descriptor held for
energy. The model's own readings: log entries 14, 61. -/
def Obligations.RingMemory : Prop :=
  ∀ (s : State) (ini : Ini) (r idx pool n k st : Nat) (v : W32) (f : Flight) (bs : Bytes) (b : Buf) (x : Ns),
    let p := ringStamp s r
    let j := ringJob s r
    let h := fw f 6
    let here := buf s (hKey h)
    let o := dmaAddr s r f
    let slba := (fw f 7).toNat + (fw f 8).toNat * 2 ^ 32
    (OpReady s r idx 0 0 f →
      (poolFor s h.toNat = some pool → unitsUsed s p + poolBytes pool / 512 ≤ quotaUnits s p → OpEnds (.alloc r idx) s r idx fun t e =>
        e.status = 0 ∧ hPool e.w6 = pool ∧ (buf s (hKey e.w6)).ref = 0 ∧
        buf t (hKey e.w6) = { owner := p, gen := (buf s (hKey e.w6)).gen, ref := 1, job := j, t := s.now }) ∧
      ((allocBuf s p h.toNat j).isNone = true → Gives (.alloc r idx) s fun t => t.bpm.bufs = s.bpm.bufs ∧
        flightOf t r idx = some { f with waitBuf := if f.waitBuf = none then some s.now else f.waitBuf })) ∧
    (OpReady s r idx 0 1 f →
      (bufOk s p h = true → here.ref ≠ 255 → OpEnds (.hold r idx) s r idx fun t e => e.status = 0 ∧
        buf t (hKey h) = { here with ref := here.ref + 1 }) ∧
      (bufOk s p h = true → here.ref = 255 → OpFails (.hold r idx) s r idx 8) ∧
      (bufOk s p h = false → OpFails (.hold r idx) s r idx 7)) ∧
    (OpReady s r idx 0 2 f →
      (bufOk s p h = true → here.quar = [] →
        (here.ref = 1 → OpEnds (.release r idx) s r idx fun t e => e.status = 0 ∧
          buf t (hKey h) = { gen := here.gen + 1, poison := here.poison, zeroing := true } ∧
          ∀ y, y < poolBytes (hPool h) → readByte t.bpm.sram (bufBase (hPool h) (hIdx h) + y) = 0) ∧
        (here.ref ≠ 1 → OpEnds (.release r idx) s r idx fun t e => e.status = 0 ∧ buf t (hKey h) = { here with ref := here.ref - 1 })) ∧
      (bufOk s p h = false → OpFails (.release r idx) s r idx 7)) ∧
    (∀ t0, r < 1024 → flightOf s r idx = some f → f.waitBuf = some t0 → t0 + 100 ≤ s.now →
      OpFails (.bufferWaitTimeout r idx) s r idx 8) ∧
    ((buf s (bufKey pool n)).zeroing = true → Gives (.bufferFreeDone pool n) s fun t =>
      buf t (bufKey pool n) = { gen := (buf s (bufKey pool n)).gen } ∧ ∀ m, m ≠ bufKey pool n → buf t m = buf s m) ∧
    (∀ t0, flightOf s r idx = some f → f.waitNrg = some t0 → t0 + 20000 ≤ s.now → f.res = none → draining s = false →
      OpFails (.energyDeferred r idx) s r idx 0x0F) ∧
    (OpReady s r idx 1 0 f → OpInput s r f st bs →
      (dmaOk s r o bs.length = true → OpEnds (.toSlm r idx) s r idx fun t e => e.status = BitVec.ofNat 8 st ∧ e.consumed = bs.length ∧
        ∀ y, slmByte t y = if o ≤ y ∧ y < o + bs.length then bs.getD (y - o) 0 else slmByte s y) ∧
      (dmaOk s r o bs.length = false → OpEnds (.toSlm r idx) s r idx fun t e => e.status = 7 ∧ t.dram = s.dram)) ∧
    (OpReady s r idx 1 1 f → 1 ≤ fDecl f → fDecl f ≤ 4096 →
      (dmaOk s r o (fDecl f) = true → slmPoison s o (fDecl f) = false → OpRoom s r f (fDecl f) →
        OpEnds (.fromSlm r idx) s r idx fun t e => e.status = 0 ∧ OneBuffer t e (slmBytes s o (fDecl f)) ∧ t.dram = s.dram) ∧
      (dmaOk s r o (fDecl f) = false → OpFails (.fromSlm r idx) s r idx 7)) ∧
    (OpReady s r idx 2 0 f → f.parts = [] → nsOf s (fw f 6).toNat = some x →
      (p ≠ 0 → x.owner ≠ p → OpFails (.extentRead r idx) s r idx 7) ∧
      (∀ l w, p = 0 ∨ x.owner = p → fld (fw f 9) 9 0 = 1 → fld (fw f 9) 14 12 = 0 → lidx x slba = some l → stagedOf s l = some w →
        stagedLost s w = false → w.data.length = 4096 → OpRoom s r f 4096 →
        OpEnds (.extentRead r idx) s r idx fun t e => e.status = 0 ∧ OneBuffer t e w.data)) ∧
    (Writable s ini (frameOf 4 0 0) →
      (v.getLsbD 0 = false → Gives (.bufferAudit ini v) s fun t =>
        t = { s with bpm := { s.bpm with age := BitVec.ofNat 16 (v.toNat / 256 % 65536) } }) ∧
      (v.getLsbD 0 = true → s.bpm.bufs = [(k, b)] → k < 32768 → b.ref ≠ 0 → b.owner < 64 → b.t + v.toNat / 256 % 65536 * 1000 < s.now →
        Gives (.bufferAudit ini v) s fun t => ∃ ls, t.bpm.leaks = ls ++ [{ owner := b.owner, pool := k / 8192, out := 1, age := s.now - b.t }]))

/-- The cipher and digest engines (from R202-R204, R210-R212, R214-R230, each in part): a stream of one fragment enciphered, deciphered with its tag checked,
hashed or verified; keys and contexts released; measurement registers; alarms and the two stages of recovery; the registers.
The model's own readings: log entries 4, 14, 61. -/
def Obligations.CipherAndDigest : Prop :=
  ∀ (s : State) (ini : Ini) (r idx n a st m : Nat) (g : BitVec 8) (v : W32) (f : Flight) (bs key : Bytes),
    let p := ringStamp s r
    let w6 := fw f 6
    let aadLen := fld (fw f 7) 15 0
    let aad := bs.take aadLen
    let body := bs.drop aadLen
    let iv := leBytes 4 (fw f 8).toNat ++ leBytes 4 (fw f 9).toNat ++ leBytes 4 (fw f 10).toNat
    let ready := fun (i : Instr) => (i = .gcmEnc r ⟨idx, true⟩ ∧ OpReady s r idx 3 0 f) ∨ (i = .gcmDec r ⟨idx, true⟩ ∧ OpReady s r idx 3 1 f)
    let one := fFirst f = true ∧ fLast f = true ∧ OpInput s r f st bs
    let keyed := keySlot s p (fld w6 7 0) = some a ∧ (tget s.isl.keys {} a).key ≠ none ∧ f.key = some (m, g) ∧ genKey (tget s.isl.keys {} m) g = some key
    let done := fun (e : ERes) => e.status = BitVec.ofNat 8 st
    let reg := fun (t : State) (m : Nat) => tget t.isl.meas {} m
    let zeroed := fun (t : State) => t.isl.kek = [] ∧ t.isl.media = [] ∧ t.isl.ready = false ∧ t.isl.mediaReady = false ∧
      ∀ k, (tget t.isl.keys {} k).key = none ∧ (tget t.isl.hmacs {} k).key = none
    let noneWaits := ∀ ch, ∀ x ∈ (flc s ch).soft, x.wait ≠ []
    let noneStarted := ∀ e ∈ s.bpm.rings, ∀ x ∈ e.2.flight, started x = false
    (∀ i ∈ [Instr.gcmEnc r ⟨idx, true⟩, .gcmDec r ⟨idx, true⟩], ready i → one →
      (keySlot s p (fld w6 7 0) = none → OpFails i s r idx 7) ∧
      (keySlot s p (fld w6 7 0) = some a → (tget s.isl.keys {} a).key = none ∨ f.key = none → OpFails i s r idx 4)) ∧
    (OpReady s r idx 3 0 f → one → keyed →
      let ct := Config.gcmCrypt key iv 0 body
      let out := ct ++ Config.gcmTag key iv aad ct
      1 ≤ out.length → out.length ≤ 4096 → OpRoom s r f out.length →
      OpEnds (.gcmEnc r ⟨idx, true⟩) s r idx fun t e => done e ∧ OneBuffer t e out ∧ e.verdict = none) ∧
    (OpReady s r idx 3 1 f → one → keyed →
      let ct := body.take (body.length - 16)
      let pt := Config.gcmCrypt key iv 0 ct
      let good := Config.gcmTag key iv aad ct = body.drop (body.length - 16)
      let q := s.isl.nextQuar
      1 ≤ pt.length → pt.length ≤ 4096 → q ∉ s.isl.failedQ → OpRoom s r f pt.length →
      (good → OpEnds (.gcmDec r ⟨idx, true⟩) s r idx fun t e => done e ∧ OneBuffer t e pt ∧ e.verdict = some (some q, true) ∧
        (q, ringJob s r) ∈ t.isl.quars ∧ t.isl.nextQuar = q + 1 ∧ ∀ h ∈ e.outs, (buf t (hKey h)).quar = [q]) ∧
      (¬ good → OpEnds (.gcmDec r ⟨idx, true⟩) s r idx fun _ e => e.status = 5 ∧ e.outs = [] ∧ e.verdict = some (some q, false))) ∧
    (∀ i ∈ [(Instr.gcmEnc r ⟨idx, false⟩, 0), (.gcmDec r ⟨idx, false⟩, 1)], OpReady s r idx 3 i.2 f → one → keyed → noneStarted →
      OpEnds i.1 s r idx fun t e => e.status = 4 ∧ e.outs = [] ∧ t.isl.last = 5 ∧ zeroed t) ∧
    (OpReady s r idx 3 2 f →
      (keySlot s p (fld w6 7 0) = some a → OpEnds (.keyErase r idx) s r idx fun t e => e.status = 0 ∧
        tget t.isl.keys {} a = { gen := (tget s.isl.keys {} a).gen }) ∧
      (keySlot s p (fld w6 7 0) = none → OpFails (.keyErase r idx) s r idx 7)) ∧
    (let h := fw f 11
     let k := ctxKey (cPipe h) (cSlot h)
     let c := tget s.isl.cctx {} k
     OpReady s r idx 3 3 f → cPipe h < 8 →
      (c.used = true → c.polder = p → c.seq.toNat = cSeq h → c.lost = false → OpEnds (.ctxRelease r idx) s r idx fun t e => e.status = 0 ∧
        tget t.isl.cctx {} k = { seq := c.seq }) ∧
      (c.used = true → c.polder = p → c.lost = true → OpEnds (.ctxRelease r idx) s r idx fun t e => e.status = 0x0E ∧
        tget t.isl.cctx {} k = { seq := c.seq }) ∧
      (c.used = true → c.polder ≠ p → OpFails (.ctxRelease r idx) s r idx 7) ∧
      (c.used = false → OpFails (.ctxRelease r idx) s r idx 0x0E)) ∧
    (OpReady s r idx 4 0 f → one → fHmac f = false → fList f = false →
      let val := hash (fAlg f) bs
      (w6.getLsbD 29 = false → val.length ≤ 512 → OpRoom s r f 512 → OpEnds (.digest r idx) s r idx fun t e => done e ∧ OneBuffer t e val) ∧
      (w6.getLsbD 29 = true → bufOk s p (fw f 8) = true → bufPoison s (fw f 8) = false →
        OpEnds (.digest r idx) s r idx fun _ e => done e ∧ e.outs = [] ∧
          (e.w6, e.w7) = if (bufData s (fw f 8)).take (hashLen (fAlg f)) = val then (0x3C96A55A#32, 0xC3695AA5#32)
            else (0xA55A3C96#32, 0x5AA5C369#32))) ∧
    (OpReady s r idx 4 1 f → OpInput s r f st bs → OpEnds (.extend r idx) s r idx fun t e => done e ∧
      (reg t (8 + p)).val = Config.sha384 ((reg s (8 + p)).val ++ bs) ∧ ∀ m, m ≠ 8 + p → reg t m = reg s m) ∧
    (let m := reg s (fld w6 6 0)
     let out := m.val ++ leBytes 4 m.cnt.toNat
     OpReady s r idx 4 2 f → m.val.length = 48 → OpRoom s r f 512 → OpEnds (.measRead r idx) s r idx fun t e => e.status = 0 ∧ OneBuffer t e out) ∧
    (let h := fw f 7
     let k := ctxKey (cPipe h) (cSlot h)
     let c := tget s.isl.dctx {} k
     OpReady s r idx 4 3 f → cPipe h < 4 →
      (c.used = true → c.polder = p → c.seq.toNat = cSeq h → c.lost = false → OpEnds (.digestCtxRelease r idx) s r idx fun t e =>
        e.status = 0 ∧ tget t.isl.dctx {} k = { seq := c.seq }) ∧
      (c.used = true → c.polder = p → c.lost = true → OpEnds (.digestCtxRelease r idx) s r idx fun t e =>
        e.status = 0x0E ∧ tget t.isl.dctx {} k = { seq := c.seq }) ∧
      (c.used = true → c.polder ≠ p → OpFails (.digestCtxRelease r idx) s r idx 7) ∧
      (c.used = false → OpFails (.digestCtxRelease r idx) s r idx 0x0E)) ∧
    (s.isl.up = false ∨ s.isl.sampled = true → Gives (.entropyHealthWindow true) s fun t =>
      t = { s with isl := { s.isl with ok := true, sampled := true } }) ∧
    (s.isl.up = true → s.isl.sampled = false → noneWaits → Gives (.entropyHealthWindow true) s fun t =>
      t.isl = { s.isl with ok := true, sampled := true, ready := true, mediaReady := true }) ∧
    (s.isl.failT = [] → Gives (.entropyHealthWindow false) s fun t => t.isl.ok = false ∧ t.isl.failT = [s.now] ∧
      t.isl.alarms = s.isl.alarms) ∧
    (∀ t1 t2, s.isl.failT = [t1, t2] → s.now < t1 + 1000000 → s.now < t2 + 1000000 → Gives (.entropyHealthWindow false) s fun t =>
      t.isl.last = 1 ∧ zeroed t) ∧
    (∀ e ∈ [(Instr.voltageGlitch, 2), (.clockGlitch, 3), (.temperature, 4)], Gives e.1 s fun t => t.isl.last = BitVec.ofNat 8 e.2 ∧ zeroed t ∧
      (s.flt.latched = [] → Reports t 9 256)) ∧
    (Gives (.slotIntegrity .cipherKey n) s fun t => t.isl.last = 6 ∧ t.isl.ready = s.isl.ready ∧
      tget t.isl.keys {} n = { gen := (tget s.isl.keys {} n).gen } ∧
      (noneStarted → ∀ m, m ≠ n → tget t.isl.keys {} m = tget s.isl.keys {} m)) ∧
    (s.isl.alarms ≠ 0 →
      (s.isl.mediaReady = false → noneWaits → Gives .alarmMediaReady s fun t =>
        t.isl = { s.isl with media := s.nv.mediaKeys, mediaReady := true }) ∧
      (s.isl.mediaReady = true → s.isl.ready = false → Gives .alarmRingReady s fun t => t.isl.ready = true ∧
        ∀ q, (polder s q).st ≠ .empty → tget t.isl.transDraw 0 q ≠ 0)) ∧
    (s.isl.seedT + 1000000 ≤ s.now ∨ 2 ^ 20 ≤ s.isl.reqs → Gives .drbgReseed s fun t =>
      t = { s with isl := { s.isl with reseeds := s.isl.reseeds + 1, reqs := 0, seedT := s.now } }) ∧
    (s.now < s.isl.seedT + 1000000 → s.isl.reqs < 2 ^ 20 → Gives .drbgReseed s fun t => t = s) ∧
    (let c := frameOf 5 0 0
     (Keyed s ini c → s.isl.mediaEnd ≤ s.now →
      (n < 1024 → Gives (.mediaKeyNew ini n) s fun t => KeyUsed s t c ∧ tget t.isl.media 0 (n + 1) = s.nv.nextKey ∧
        tget t.nv.mediaKeys 0 (n + 1) = s.nv.nextKey ∧ t.nv.nextKey = s.nv.nextKey + 1 ∧ mediaBusy t = true) ∧
      (Gives (.mediaKeyReload ini) s fun t => KeyUsed s t c ∧ t.isl.media = s.nv.mediaKeys ∧ mediaBusy t = true)) ∧
     (Keyed s ini c → mediaBusy s = true → ∀ i ∈ [Instr.mediaKeyNew ini n, .mediaKeyReload ini],
      Gives i s fun t => HasError t c 0x41 ∧ t.isl = s.isl) ∧
     (Writable s ini c → ini ∉ (hdr s c).closed → ∀ i ∈ [Instr.mediaKeyNew ini n, .mediaKeyReload ini],
      Gives i s fun t => HasError t c 3 ∧ t.isl = s.isl) ∧
     (PageOpen s ini c → Gives (.ciphRngStatRead ini) s fun t => t.isl = { s.isl with fails := 0 } ∧
      t.out.reg = BitVec.ofNat 32 (s.isl.reseeds.toNat * 65536 + s.isl.fails.toNat * 256 + (if s.isl.ok then 1 else 0)))) ∧
    (let m := frameOf 6 0 0
     (Writable s ini m →
      (v.toNat % 128 ≤ 71 → Gives (.measSelect ini v) s fun t => t.isl.snapVal = (reg s (v.toNat % 128)).val ∧ t.isl.snapPtr = 0) ∧
      (71 < v.toNat % 128 → Gives (.measSelect ini v) s fun t => HasError t m 0x41 ∧ t.isl = s.isl)) ∧
     (PageOpen s ini m → Gives (.measDataRead ini) s fun t => t.isl = { s.isl with snapPtr := s.isl.snapPtr + 1 } ∧
      t.out.reg = if s.isl.snapPtr < 12 then BitVec.ofNat 32 (leAt s.isl.snapVal (4 * s.isl.snapPtr) 4) else 0))

/-- Compression and decompression (from R235-R248, each in part): a stream of one fragment compressed, or not when it would not shrink; decompressed, or
ended by an error code that is counted; block ends, releases and the error counters. The model's own readings: log entries 4, 61. -/
def Obligations.Compression : Prop :=
  ∀ (s : State) (ini : Ini) (r idx n st : Nat) (f : Flight) (bs : Bytes),
    let p := ringStamp s r
    let w6 := fw f 6
    let h := fw f 7
    let one := fFirst f = true ∧ fLast f = true ∧ OpInput s r f st bs
    let errs := fun (t : State) (k : Nat) => tget t.cmpr.errs 0 k
    let inst := fun (t : State) (k : Nat) => tget t.cmpr.insts {} k
    let out := (cmprBlock (firstStrm s r f) bs (w6.getLsbD 29) true).2
    let ends := boundTo s n = some (r, f) ∧ flightOf s r f.idx = some f ∧ Fresh f ∧ ringLive s r = true ∧ nrgHeld s r = false
    let d := decodeFrag (fld w6 26 24) true (bs.length + 1) bs 0 [] 0 false
    let limit := (fw f 8).toNat
    (OpReady s r idx 5 0 f → one → bs ≠ [] →
      ((inst s f.pipe).bound = false → Gives (.compress r idx) s fun t => flightOf t r idx = some { f with inst := some f.pipe } ∧
        inst t f.pipe = { bound := true, owner := p, format := fld w6 26 24 } ∧ ∀ k, k ≠ f.pipe → inst t k = inst s k) ∧
      ((inst s f.pipe).bound = true → Gives (.compress r idx) s fun t => t = s)) ∧
    (ends → one → bs.length ≤ 1048576 →
      (bs.length ≤ out.length → OpEnds (.deflateBlockEnd n) s r f.idx fun t e => e.status = 9 ∧ e.outs = [] ∧ e.consumed = bs.length ∧
        errs t 4 = satInc (errs s 4) ∧ inst t n = {}) ∧
      (out.length < bs.length → 1 ≤ out.length → out.length ≤ 4096 → OpRoom s r f out.length →
        OpEnds (.deflateBlockEnd n) s r f.idx fun t e => e.status = BitVec.ofNat 8 st ∧ OneBuffer t e out ∧ inst t n = {})) ∧
    (ends → one → 1048576 < bs.length →
      let b := cmprBlock (firstStrm s r f) (bs.take 1048576) false false
      b.2.length < 1048576 → Gives (.deflateBlockEnd n) s fun t => inst t n = {} ∧
        flightOf t r f.idx = some { f with inst := none, eaten := 1048576, work := some { b.1 with input := b.2 } }) ∧
    (boundTo s n = none → Gives (.deflateBlockEnd n) s fun t => t = s) ∧
    (OpReady s r idx 6 0 f → one →
      (freeDec s = none → Gives (.decompress r idx) s fun t => t = s) ∧
      (freeDec s ≠ none → d.out.length < 32768 →
        (d.status = 0 → limit = 0 ∨ d.out.length ≤ limit → 1 ≤ d.out.length → d.out.length ≤ 4096 → OpRoom s r f d.out.length →
          OpEnds (.decompress r idx) s r idx fun t e => e.status = BitVec.ofNat 8 st ∧ OneBuffer t e d.out) ∧
        (10 ≤ d.status → d.status ≤ 13 → limit = 0 ∨ d.out.length ≤ limit → OpEnds (.decompress r idx) s r idx fun t e =>
          e.status = BitVec.ofNat 8 d.status ∧ e.outs = [] ∧ errs t (d.status - 10) = satInc (errs s (d.status - 10))) ∧
        (limit ≠ 0 → limit < d.out.length → OpEnds (.decompress r idx) s r idx fun t e => e.status = 0x0C ∧ e.outs = [] ∧
          errs t 2 = satInc (errs s 2)))) ∧
    (let k := cPipe h * 8 + cSlot h
     let c := tget s.cmpr.slots {} k
     OpReady s r idx 5 1 f → cPipe h < 4 → cSlot h < 8 →
      (c.used = true → c.polder = p → c.seq.toNat = cSeq h → OpEnds (.cmprCtxRelease r idx) s r idx fun t e => e.status = 0 ∧
        tget t.cmpr.slots {} k = { seq := c.seq }) ∧
      (c.used = false → OpFails (.cmprCtxRelease r idx) s r idx 0x0E)) ∧
    (let k := cSlot h
     let c := tget s.cmpr.recs {} k
     OpReady s r idx 6 1 f → cPipe h = 0 →
      (c.used = true → c.polder = p → c.seq.toNat = cSeq h → OpEnds (.cmprCtxRelease r idx) s r idx fun t e => e.status = 0 ∧
        tget t.cmpr.recs {} k = { seq := c.seq }) ∧
      (c.used = true → c.polder ≠ p → OpFails (.cmprCtxRelease r idx) s r idx 7) ∧
      (c.used = false → OpFails (.cmprCtxRelease r idx) s r idx 0x0E)) ∧
    (n < 5 → PageOpen s ini (frameOf 7 0 0) → Gives (.cmprErrRead ini n) s fun t => t.out.reg = errs s n ∧ errs t n = 0 ∧
      ∀ m, m ≠ n → errs t m = errs s m)

/-- Search descriptors (from R252-R254, R258, R259, R262, R264, R267-R271, each in part): a lookup's answer, entries written, invalidated and read, the next
match, the bucket shift and the recomputation of the masks, the entry snapshot; an index outside the partition is a breach.
The model's own readings: log entries 14, 61. -/
def Obligations.SearchDescriptors : Prop :=
  ∀ (s : State) (ini : Ini) (r idx e row st : Nat) (v : W32) (f : Flight) (bs : Bytes),
    let p := ringStamp s r
    let w6 := fw f 6
    let i := fld (fw f 7) 15 0
    let n := (fw f 8).toNat
    let key := (fw f 8).toNat + (fw f 9).toNat * 2 ^ 32
    let asked := leAt bs (fld w6 19 8) (fld w6 7 4)
    (OpReady s r idx 7 0 f → OpInput s r f st bs → fld w6 31 20 + 1 = bs.length → fld w6 1 0 = 0 → OpRoom s r f 4096 →
      (∀ x, lookupKey s p asked = some x → OpEnds (.lookup r idx) s r idx fun t e => e.status = BitVec.ofNat 8 st ∧ e.w6 = 1 ∧ e.w7 = 1 ∧ OneBuffer t e
        (leBytes 8 (x.ent.result.toNat + 2 ^ 36 + (if x.multi then 2 ^ 37 else 0) + x.count * 2 ^ 40 + relEntry s p x.idx * 2 ^ 48))) ∧
      (lookupKey s p asked = none → OpEnds (.lookup r idx) s r idx fun t e => e.status = BitVec.ofNat 8 st ∧ e.w6 = 0 ∧ e.w7 = 1 ∧
        OneBuffer t e (List.replicate 8 0))) ∧
    (OpReady s r idx 7 1 f →
      (absEntry s p i 1 = some e → OpEnds (.searchWrite r idx) s r idx fun t x => x.status = 0 ∧ (∀ m, m ≠ e → sent t m = sent s m) ∧
        sent t e = { valid := (fw f 13).getLsbD 31, lo := key, hi := (fw f 10).toNat + (fw f 11).toNat * 2 ^ 32,
                     result := BitVec.ofNat 36 ((fw f 12).toNat + 2 ^ 32 * fld (fw f 13) 3 0), prio := fld (fw f 13) 15 8,
                     polder := srchOwner s e }) ∧
      (absEntry s p i 1 = none → OpFails (.searchWrite r idx) s r idx 7)) ∧
    (OpReady s r idx 7 2 f →
      (absEntry s p i n = some e → OpEnds (.invalidate r idx) s r idx fun t x => x.status = 0 ∧
        ∀ m, sent t m = if e ≤ m ∧ m < e + n then {} else sent s m) ∧
      (absEntry s p i n = none → OpFails (.invalidate r idx) s r idx 7)) ∧
    (OpReady s r idx 7 3 f →
      (absEntry s p i n = some e → 1 ≤ n → n ≤ 21 → OpRoom s r f 512 → OpEnds (.searchRead r idx) s r idx fun t x => x.status = 0 ∧ x.produced = 24 * n ∧
        OneBuffer t x ((List.range n).flatMap (fun k => (entryWords (sent s (e + k))).flatMap (fun (w : W32) => leBytes 4 w.toNat)))) ∧
      (absEntry s p i n = none → OpFails (.searchRead r idx) s r idx 7)) ∧
    (OpReady s r idx 7 4 f →
      (absEntry s p i 1 = some e →
        (∀ k x, stepKey s p key (fld (fw f 10) 7 0) e = some (k, x) → OpEnds (.step r idx) s r idx fun _ y => y.status = 0 ∧
          y.w6 = x.result.setWidth 32 ∧ y.w7 = BitVec.ofNat 32 (2 ^ 31 + x.result.toNat / 2 ^ 32 * 65536 + relEntry s p k % 65536)) ∧
        (stepKey s p key (fld (fw f 10) 7 0) e = none → OpEnds (.step r idx) s r idx fun _ y => y.status = 0 ∧ y.w6 = 0 ∧ y.w7 = 0)) ∧
      (absEntry s p i 1 = none → OpFails (.step r idx) s r idx 7)) ∧
    (OpReady s r idx 7 5 f →
      (partRows s p = [] → (∀ x ∈ s.srch.shifting, x.1 ≠ some (r, idx)) → OpEnds (.shift r idx) s r idx fun t y => y.status = 0 ∧ shiftOf t p = fld (fw f 7) 5 0) ∧
      (partRows s p ≠ [] → (∀ x ∈ s.srch.shifting, x.1 ≠ some (r, idx)) → Gives (.shift r idx) s fun t => shiftOf t p = fld (fw f 7) 5 0 ∧
        flightOf t r idx = some f ∧ tget t.srch.busy false p = true ∧ (∀ k ∈ partRows s p, k ∈ t.srch.pending) ∧
        t.srch.shifting = s.srch.shifting ++ [(some (r, idx), p, partRows s p)])) ∧
    (row ∈ s.srch.pending → Gives (.maskRecomputeDone row) s fun t => tget t.srch.masks 0 row = rowMask s row ∧
      (∀ m, m ≠ row → tget t.srch.masks 0 m = tget s.srch.masks 0 m)) ∧
    (s.srch.pending = [row] → s.srch.shifting = [(some (r, idx), p, [row])] → flightOf s r idx = some f → f.res = none →
      OpEnds (.maskRecomputeDone row) s r idx fun t y => y.status = 0 ∧ t.srch.shifting = [] ∧ t.srch.pending = [] ∧
        tget t.srch.busy false p = false) ∧
    (Writable s ini (frameOf 8 0 0) → Gives (.searchEntrySnapshot ini v) s fun t =>
      t.srch = { s.srch with eIdx := BitVec.ofNat 16 (v.toNat % 65536), snap := entryWords (sent s (v.toNat % 65536)) })

/-! ## Flash and translation -/

/-- Flash channels (from R272-R277, R279, R282-R285, R287-R289, R292, R299-R302, each in part): pushes and their errors, the issue of each die command, its
end, soft decode, suspension, cancel, timeouts, training, the block-state registers and the counters.
The model's own readings: log entry 14. -/
def Obligations.FlashChannels : Prop :=
  ∀ (s : State) (ini : Ini) (ch q i n : Nat) (w : W32) (ws : List W32) (d e : FDesc) (out : DieOut) (b : Bool) (r : SoftRd), ch < 32 →
    let c := flc s ch
    let v := die s ch (dDie d)
    let f0 := frameOf 9 ch 0
    let f1 := frameOf 9 ch 1
    let planes := planesOf (dPlanes d)
    let blocks := fun (t : State) (x : FDesc) (st : BlkSt) => ∀ p ∈ planesOf (dPlanes x), (blk t ch (dDie x) p (dBlock x)).st = st
    let idle := fun (t : State) => (die t ch (dDie d)).st = .idle ∧ (die t ch (dDie d)).run = none
    let slot := (dqBase c q).1.toNat + (tget c.committed 0 q).toNat % max 1 (dqBase c q).2.toNat
    let full : FDesc := { words := ws ++ [w], q := q, t := s.now, slot := slot }
    let enabled : Flc :=
      { c with guard := BitVec.ofNat 12 (w.toNat / 2 ^ 20), retries := BitVec.ofNat 4 (w.toNat / 65536 % 16),
               autoSusp := w.getLsbD 1, enable := true }
    (q < 4 → Writable s ini f0 →
      (asmOf c ini = none → Gives (.descriptorPushWord ini ch q w) s fun t => asmOf (flc t ch) ini = some (q, [w]) ∧
        (flc t ch).queue = c.queue) ∧
      (∀ m, asmOf c ini = some (m, ws) → m ≠ q → Gives (.descriptorPushWord ini ch q w) s fun t => HasError t f0 0x63) ∧
      (asmOf c ini = some (q, ws) → ws.length = 7 →
        (dInvalid full = true → Gives (.descriptorPushWord ini ch q w) s fun t => HasError t f0 0x62 ∧ (flc t ch).queue = c.queue) ∧
        (dInvalid full = false → (dqBase c q).2.toNat ≤ dqUsed c q → Gives (.descriptorPushWord ini ch q w) s fun t =>
          HasError t f0 0x61 ∧ (flc t ch).queue = c.queue) ∧
        (dInvalid full = false → dqUsed c q < (dqBase c q).2.toNat → c.brownout = false →
          dIsRead full = false ∨ (dLimit full = 0 ∧ onSuspended (die s ch (dDie full)) full = false) →
          Gives (.descriptorPushWord ini ch q w) s fun t => (flc t ch).queue = c.queue ++ [full] ∧ asmOf (flc t ch) ini = none))) ∧
    (∀ x ∈ [(0, Instr.readPage ch q i), (1, .readCache ch q i), (2, .readRetry ch q i)], Turn s ch q i x.1 d →
      (onSuspended v d = false → dList d = true → Gives x.2 s fun t => DieRuns s t ch d .reading) ∧
      (∀ hs u, onSuspended v d = false → dList d = false → d.ftla = false →
        allocMany s (dPolder d) (512 :: (dGranules ch d).map (fun _ => 4096)) = some (hs, u) → Gives x.2 s fun t =>
          (die t ch (dDie d)).st = .reading ∧ (die t ch (dDie d)).run = some { d with bufs := hs, issued := s.now, waitT := none }) ∧
      (onSuspended v d = true → HasRecord s ch d → Gives x.2 s fun t => Records s t ch d 0x21)) ∧
    (Turn s ch q i 3 d → d.ftla = false →
      (∀ srcs, (∀ p ∈ planes, progCheck s ch d p = none) → progSources s ch d = .ok srcs → Gives (.program ch q i) s fun t =>
        (die t ch (dDie d)).st = .program ∧ (die t ch (dDie d)).run = some { d with issued := s.now, waitT := none } ∧
        (∀ p ∈ planes, blk t ch (dDie d) p (dBlock d) = progBlk d (blk s ch (dDie d) p (dBlock d))) ∧
        ∀ (k g : Nat) (x : Bytes), ((dGranules ch d).map Prod.snd)[k]? = some g → srcs[k]? = some x → tget t.ftla.media {} g = { data := x, raw := true }) ∧
      ((∃ p ∈ planes, progCheck s ch d p ≠ none) → HasRecord s ch d → Gives (.program ch q i) s fun t =>
        Records s t ch d 0x20 ∧ t.ftla.media = s.ftla.media)) ∧
    (Turn s ch q i 4 d →
      (v.susp = none → Gives (.erase ch q i) s fun t => DieRuns s t ch d .erase ∧ blocks t d .erasing) ∧
      (v.susp ≠ none → HasRecord s ch d → Gives (.erase ch q i) s fun t => Records s t ch d 0x27)) ∧
    (Turn s ch q i 5 d →
      (v.st = .erase → v.run = some e → Gives (.suspend ch q i) s fun t => (die t ch (dDie d)).st = .suspending ∧
        (die t ch (dDie d)).susp = some (e, v.ran + (s.now - v.t)) ∧ (die t ch (dDie d)).auto = false) ∧
      (v.st = .program → HasRecord s ch d → Gives (.suspend ch q i) s fun t => Records s t ch d 0x27) ∧
      (v.st = .idle → HasRecord s ch d → Gives (.suspend ch q i) s fun t => Records s t ch d 0)) ∧
    (Turn s ch q i 6 d →
      (v.susp = some (e, n) → v.st = .idle → Gives (.resume ch q i) s fun t => (die t ch (dDie d)).st = .erase ∧
        (die t ch (dDie d)).run = some e ∧ (die t ch (dDie d)).susp = none) ∧
      (v.susp = none → HasRecord s ch d → Gives (.resume ch q i) s fun t => Records s t ch d 0)) ∧
    (Turn s ch q i 7 d → Gives (.resetDie ch q i) s fun t => (die t ch (dDie d)).st = .resetting ∧ (die t ch (dDie d)).susp = none ∧
      (die t ch (dDie d)).run = some { d with issued := s.now, waitT := none }) ∧
    (Turn s ch q i 8 d → Gives (.getFeature ch q i) s fun t => DieRuns s t ch d .reading) ∧
    (Turn s ch q i 9 d → Gives (.setFeature ch q i) s fun t => DieRuns s t ch d .reading) ∧
    (Turn s ch q i 10 d → HasRecord s ch d → Gives (.readStatus ch q i) s fun t => Records s t ch d 0) ∧
    (v.run = some d → HasRecord s ch d →
      (v.st = .reading → dOp d = 0 → dList d = false → (∀ g, (tget s.ftla.media {} g).bad = false) → (∀ k, out.grans.getD k (.good 0) ≠ .soft) →
        Gives (.dieCommandEnd ch (dDie d) out) s fun t => Records s t ch d 0 ∧ idle t ∧
          ∀ g k l h, dGranules ch d = [(k, g)] → d.bufs = [l, h] → hPool l = 0 → hIdx l < 2048 → hPool h = 1 → hIdx h < 4608 →
            (granRaw s g).length = 4096 → bufData t h = granRaw s g) ∧
      (v.st = .program → dOp d = 3 → out.pass = false → Gives (.dieCommandEnd ch (dDie d) out) s fun t =>
        Records s t ch d 0x22 ∧ idle t ∧ blocks t d .sealed) ∧
      (v.st = .erase → dOp d = 4 → Gives (.dieCommandEnd ch (dDie d) out) s fun t => idle t ∧
        (out.pass = true → Records s t ch d 0 ∧ blocks t d .erased) ∧ (out.pass = false → Records s t ch d 0x23 ∧ blocks t d .sealed)) ∧
      (v.st = .reading → dOp d = 9 → Gives (.dieCommandEnd ch (dDie d) out) s fun t => Records s t ch d 0 ∧ idle t ∧
        tget (die t ch (dDie d)).feats 0 (fld (dw d 6) 7 0) = dw d 7) ∧
      (v.st = .resetting → dOp d = 7 → v.stuck = false → Gives (.dieCommandEnd ch (dDie d) out) s fun t =>
        Records s t ch d 0 ∧ idle t ∧ (die t ch (dDie d)).needTrain = true)) ∧
    (∀ g x, v.run = some d → v.st = .program → dOp d = 3 → d.ftla = true → out.pass = true → jFull s = false → d.units = [(n, i)] →
      s.ftla.staging.find? (fun y => y.seq == n) = some x → x.placed = some g → tget s.ftla.applied 0 x.lidx ≤ n → s.host.cmds = [] →
      Gives (.dieCommandEnd ch (dDie d) out) s fun t => idle t ∧ mapGet t x.lidx = g ∧ (∀ l, l ≠ x.lidx → mapGet t l = mapGet s l) ∧
        t.ftla.staging = s.ftla.staging.filter (fun y => !(y.lidx == x.lidx && decide (y.seq ≤ n)))) ∧
    (v.st = .training → Gives (.dieCommandEnd ch (dDie d) out) s fun t => idle t ∧ (die t ch (dDie d)).needTrain = false) ∧
    (c.soft = [r] → r.wait = [i] → r.bad = [] → s.softPool = [(ch, r.desc, i)] → HasRecord s ch r.desc → dList r.desc = false →
      Gives (.softDecodeDone ch (dTag r.desc) i (if b then some n else none) none) s fun t => (flc t ch).soft = [] ∧ t.softPool = [] ∧ (flc t ch).eccSoft = satInc c.eccSoft ∧
        (flc t ch).eccUnc = (if b then c.eccUnc else satInc c.eccUnc) ∧ Records s t ch r.desc (if b then 0 else 0x24)) ∧
    (Writable s ini f0 →
      ((c.cqProd - BitVec.ofNat 16 (w.toNat % 65536)).toNat ≤ 512 → Gives (.flcCompletionWrite ini ch w) s fun t =>
        (flc t ch).cqCons = BitVec.ofNat 16 (w.toNat % 65536) ∧ ((flc t ch).held = [] ∨ (flc t ch).cqProd - (flc t ch).cqCons = 512)) ∧
      (w.getLsbD 31 = true → c.queue.find? (fun d => d.q == w.toNat / 65536 % 4 && dTag d == w.toNat % 65536) = some d → HasRecord s ch d →
        c.backlog = [] → Gives (.flcCancel ini ch w) s fun t => (flc t ch).queue = c.queue.erase d ∧ Records s t ch d 3) ∧
      (w.getLsbD 0 = true → queuesOk c = true → Gives (.flcEnable ini ch w) s fun t => flc t ch = enabled) ∧
      (w.getLsbD 0 = true → queuesOk c = false → c.enable = false → Gives (.flcEnable ini ch w) s fun t => HasError t f0 0x64 ∧
        (flc t ch).enable = false) ∧
      (w.getLsbD 0 = false → Gives (.flcEnable ini ch w) s fun t => (flc t ch).enable = false)) ∧
    (Writable s ini f1 → Gives (.blockStateSelect ini ch w) s fun t =>
      flc t ch =
        { c with bstSel := w &&& 0xFFF3F000#32,
                 bstSnap := bstData (blk s ch (w.toNat / 4096 % 16) (w.toNat / 65536 % 4) (w.toNat / 2 ^ 20)) }) ∧
    (Keyed s ini f1 → w.toNat % 8 < 4 →
      let a := c.bstSel.toNat / 4096 % 16
      let p := c.bstSel.toNat / 65536 % 4
      let k := c.bstSel.toNat / 2 ^ 20
      (blkTargeted s ch a p k = false → Gives (.blockStateRestore ini ch w) s fun t => KeyUsed s t f1 ∧
        blkCode (blk t ch a p k).st = w.toNat % 8 ∧ (blk t ch a p k).pslc = w.getLsbD 3 ∧
        (w.toNat % 8 = 2 → (blk t ch a p k).ptr = w.toNat / 16 % 4096)) ∧
      (blkTargeted s ch a p k = true → Gives (.blockStateRestore ini ch w) s fun t => HasError t f1 0x41 ∧ t.flcs = s.flcs)) ∧
    (c.autoSusp = true → v.st = .erase → v.run = some e → urgent s ch (dDie d) = true → c.guard.toNat ≤ s.now - v.t →
      Gives (.autoSuspend ch (dDie d)) s fun t => (die t ch (dDie d)).st = .suspending ∧ (die t ch (dDie d)).auto = true ∧
        (die t ch (dDie d)).susp = some (e, v.ran + (s.now - v.t))) ∧
    (v.auto = true → v.susp = some (e, n) → v.st = .idle → urgent s ch (dDie d) = false → c.brownout = false →
      Gives (.autoResume ch (dDie d)) s fun t => (die t ch (dDie d)).st = .erase ∧ (die t ch (dDie d)).run = some e ∧
        (die t ch (dDie d)).susp = none) ∧
    (v.st = .idle → c.enable = true → c.drift.toNat ≤ n ∨ v.needTrain = true ∨ c.interval.toNat * 60000000 ≤ s.now - v.lastTrain →
      Gives (.dieRetrain ch (dDie d) n) s fun t => (die t ch (dDie d)).st = .training ∧ (flc t ch).trainCnt = c.trainCnt + 1) ∧
    (n < c.drift.toNat → v.needTrain = false → s.now - v.lastTrain < c.interval.toNat * 60000000 →
      Gives (.dieRetrain ch (dDie d) n) s fun t => t = s) ∧
    (v.st = .reading → v.run = some d → dOp d ≠ 4 → v.t + dieLimit d ≤ s.now → HasRecord s ch d → Gives (.dieTimeout ch (dDie d)) s fun t =>
      (die t ch (dDie d)).st = .stuck ∧ (die t ch (dDie d)).stuck = true ∧ Records s t ch d 0x26 ∧
      (s.flt.latched = [] → Reports t 4 (ch * 16 + dDie d))) ∧
    (PageOpen s ini f1 →
      (Gives (.flcEccSoftRead ini ch) s fun t => t.out.reg = c.eccSoft ∧ flc t ch = { c with eccSoft := 0 }) ∧
      (Gives (.flcEccUncRead ini ch) s fun t => t.out.reg = c.eccUnc ∧ flc t ch = { c with eccUnc := 0 }))

/-- Translation (from R22, R303, R306, R310-R315, R318, R320, R321, R326, R334, R335, each in part): program units of staged writes, read-around, write-back,
the Q window, the recovery, and the commands of service firmware, each with its completion.
The model's own readings: log entries 7, 15, 16. -/
def Obligations.Translation : Prop :=
  ∀ (s : State) (ini : Ini) (ch d block page sb fn sq cid lba n : Nat) (planes : BitVec 4) (units : List (Nat × Nat)) (grans : List Nat)
    (q : RdReq) (c : Cmd) (v : W32) (f : Staged),
    let w := ftlaCmd s
    let word := cmdW w
    let l := (word 2).toNat + 2 ^ 32 * fld (word 3) 31 28
    let new := (word 4).toNat + 2 ^ 32 * fld (word 3) 27 24
    let old := (word 5).toNat + 2 ^ 32 * fld (word 3) 23 20
    let sbv := tget s.ftla.sbs {} (d * 2730 + block)
    let page_ := frameOf 0x0A 0 0
    let only := fun (t : State) (x : Nat) => ∀ m, mapGet t m = if m = l then x else mapGet s m
    let same := fun (t : State) => ∀ m, mapGet t m = mapGet s m
    (ch < 32 → d < 16 → block < 2730 → page < pagesOf (if sbv.ev = 2 then 1 else 0) → planes ≠ 0 → s.ftla.enable = true →
      s.isl.mediaReady = true → unitsOk s planes units = true → units ≠ [] → unitDue s planes units = true →
      ch ≠ parityChan s (d * 2730 + block) page → sbv.absent.getLsbD ch = false → dqRoom (flc s ch) 2 = true →
      page ∈ sbv.window ∨ (sbv.window.length < 32 ∧ (sbv.window ≠ [] ∨ windowsOpen s < 64)) →
      (flc s ch).brownout = false → (∀ x ∈ (flc s ch).backlog, x.q ≠ 2) →
      Gives (.programUnitIssue ch d block page planes false units) s fun t =>
        (∃ x, (flc t ch).queue = (flc s ch).queue ++ [x] ∧ x.units = units ∧ x.ftla = true ∧ x.q = 2 ∧ dOp x = 3 ∧ dDie x = d ∧
          dBlock x = block ∧ dPage x = page) ∧ page ∈ (tget t.ftla.sbs {} (d * 2730 + block)).window ∧
        (∀ u ∈ units, f ∈ s.ftla.staging → f.seq = u.1 →
          { f with placed := some (granNo ch d (u.2 / 4) block page (u.2 % 4)) } ∈ t.ftla.staging)) ∧
    (units ≠ [] → unitDue s planes units = false → Gives (.programUnitIssue ch d block page planes false units) s fun t => t = s) ∧
    (fn < 1024 → s.ftla.reads.find? (fun x => x.who == .cmd fn sq cid lba && x.withdrawn) = some q → s.isl.mediaReady = true →
      consents s q = true → canRebuild s q.gran = true → findCmd s fn sq cid = some c → c.op = .read → c.parts = [{ lba := lba }] →
      (∀ y, nsOf s c.nsid = some y → y.pi = 0) → HasQueue s fn sq → Gives (.readAround fn sq cid lba) s fun t => t.ftla.raCnt = satInc s.ftla.raCnt ∧ findCmd t fn sq cid = none ∧
        ∃ m, entries t fn sq = entries s fn sq ++ [{ fn := fn, sq := sq, cid := cid, data := padTo m (granPlain s q.lidx q.gran) }]) ∧
    (s.host.cmds = [] → s.ftla.ready = true → 196608 ≤ s.ftla.journal.length ∨ cacheDirty s = true → oldestPages s [n] = true → locOk lba = true →
      Gives (.mapWriteBack [(n, lba)]) s fun t => (tget t.ftla.pages {} n).dirty = false ∧ (tget t.ftla.pages {} n).loc = some lba) ∧
    (jFull s = false → (tget s.ftla.sbs {} sb).window.head? = some page → readBackDue s sb page = true →
      Gives (.qWindowReadback sb page []) s fun t => t.ftla.map = s.ftla.map ∧
        tget t.ftla.sbs {} sb = { tget s.ftla.sbs {} sb with window := (tget s.ftla.sbs {} sb).window.erase page }) ∧
    (inBoot s = true → s.ftla.replaying = true → s.rst.mramHeld = false → 9 ≤ s.rst.step.toNat → drainOk s grans = true →
      Gives (.ftlaReady grans) s fun t => t.ftla.ready = true ∧ t.ftla.replaying = false ∧
        (s.nrg.embValid = false → t.rst.step = 12 ∧ t.rst.ready = false) ∧ (s.nrg.embValid = true → t.rst.step = 13 ∧ t.rst.ready = true)) ∧
    (FtlaTurn s 1 → s.ftla.ready = true → l < mapEnd → Gives .mapGet s fun t => FtlaEnds s t 0 (mapGet s l) ∧ same t) ∧
    (FtlaTurn s 2 → s.ftla.ready = true → jFull s = false → l < mapEnd → reservedVal new = false →
      (tget s.ftla.applied 0 l ≤ (word 6).toNat → Gives .mapSet s fun t => FtlaEnds s t 0 (mapGet s l) ∧ only t new) ∧
      ((word 6).toNat < tget s.ftla.applied 0 l → Gives .mapSet s fun t => FtlaEnds s t 0x30 (mapGet s l) ∧ same t)) ∧
    (FtlaTurn s 3 → s.ftla.ready = true → jFull s = false → l < mapEnd → reservedVal new = false →
      (mapGet s l = old → Gives .mapMove s fun t => FtlaEnds s t 0 1 ∧ only t new) ∧
      (mapGet s l ≠ old → Gives .mapMove s fun t => FtlaEnds s t 0x30 0 ∧ same t)) ∧
    (FtlaTurn s 4 → s.ftla.ready = true → jFull s = false →
      let x := (word 5).toNat + 2 ^ 32 * fld (word 6) 3 0
      (l + (word 4).toNat ≤ mapEnd → vZeroed ≤ x → Gives .trim s fun t => FtlaEnds s t 0 0 ∧
        ∀ m, mapGet t m = if l ≤ m ∧ m < l + (word 4).toNat then x else mapGet s m) ∧
      (x < vZeroed → Gives .trim s fun t => FtlaEnds s t 0x31 0 ∧ same t)) ∧
    (FtlaTurn s 5 → s.ftla.ready = true → jFull s = false → (word 2).toNat < mapPages → locOk lba = true → Gives (.pageOut lba) s fun t =>
      FtlaEnds s t 0 lba ∧ same t ∧ (tget t.ftla.pages {} (word 2).toNat).loc = some lba ∧ (tget t.ftla.pages {} (word 2).toNat).dirty = false) ∧
    (FtlaTurn s 6 → s.ftla.ready = true → jFull s = false →
      (5 ≤ fld (word 1) 31 28 → fld (word 1) 31 28 ≤ 8 → Gives .record s fun t => FtlaEnds s t 0 s.ftla.jseq ∧ same t ∧
        t.ftla.jseq = s.ftla.jseq + 1) ∧
      (fld (word 1) 31 28 < 5 → Gives .record s fun t => FtlaEnds s t 0x31 0 ∧ t.ftla.jseq = s.ftla.jseq)) ∧
    (let g := (word 2).toNat + 2 ^ 32 * fld (word 3) 3 0
     let cur := (word 4).toNat + 2 ^ 32 * fld (word 5) 3 0
     FtlaTurn s 7 → s.ftla.ready = true → g < granEnd →
      (canRebuild s g = true → sramCur ≤ cur → cur + 4096 ≤ sramCur + 50331648 →
        (∀ p ∈ spanPoints (cur - sramCur) 4096, freeAt s p = false) → (granRaw s g).length = 4096 → Gives .rebuild s fun t =>
        FtlaEnds s t 0 0 ∧ readBytes t.bpm.sram (cur - sramCur) 4096 = granRaw s g) ∧
      (canRebuild s g = false → Gives .rebuild s fun t => FtlaEnds s t 0x32 0 ∧ t.bpm = s.bpm)) ∧
    (FtlaTurn s 8 → s.ftla.ready = true →
      (fld (word 2) 15 0 < 43680 → (word 3).toNat ≤ 2 → Gives .sbSet s fun t => FtlaEnds s t 0 0 ∧
        (tget t.ftla.sbs {} (fld (word 2) 15 0)).stream = (word 3).toNat) ∧
      (2 < (word 3).toNat → Gives .sbSet s fun t => FtlaEnds s t 0x31 0 ∧ t.ftla.sbs = s.ftla.sbs)) ∧
    (s.ftla.ready = false → locOk lba = true → ∀ e ∈ [(1, Instr.mapGet), (2, .mapSet), (3, .mapMove), (4, .trim), (5, .pageOut lba), (6, .record),
      (7, .rebuild), (8, .sbSet)], FtlaTurn s e.1 → Gives e.2 s fun t => FtlaEnds s t 0x33 0 ∧ same t) ∧
    (Writable s ini page_ → Gives (.ftlaCompletionWrite ini v) s fun t =>
      t = { s with ftla := { s.ftla with cqCons := BitVec.ofNat 9 (v.toNat % 512) } }) ∧
    (PageOpen s ini page_ →
      (Gives (.ftlaLaMissRead ini) s fun t => t.out.reg = s.ftla.laMiss ∧ t.ftla = { s.ftla with laMiss := 0 }) ∧
      (Gives (.ftlaMcMissRead ini) s fun t => t.out.reg = s.ftla.mcMiss ∧ t.ftla = { s.ftla with mcMiss := 0 }) ∧
      (Gives (.ftlaRaCntRead ini) s fun t => t.out.reg = s.ftla.raCnt ∧ t.ftla = { s.ftla with raCnt := 0 }))

/-! ## Memory integrity and faults -/

/-- Memory integrity and faults (from R343-R347, R353-R359, R372, R383, R397-R399, R407, R408, each in part): retraining, spare lines and rows, scrubbing, a
failed device, the order switch, the check-bit test, MEMI's registers; the report windows; rails, clocks and the thermal shutdown; the commits of the calibration set and of the option area.
The model's own readings: log entries 34, 47, 48. -/
def Obligations.MemoryAndFaults : Prop :=
  ∀ (s : State) (ini : Ini) (v : W32) (ch row dev inst line cause : Nat) (rd wr : BitVec 8) (r r2 : FRep)
    (a a2 t0 : Nat) (b : Bytes),
    let fD := frameOf 0x0B 0 0
    let fM := frameOf 0x0C 0 0
    let fL := frameOf 0x10 0 0
    let fO := frameOf 0x12 0 0
    let fC := frameOf 0x13 0 0
    let quiet := s.flt.latched = []
    let logged := fun (t : State) (P : FEnt → Prop) => t.nv.faultSeq = s.nv.faultSeq + 1 ∧
      ∃ e, t.nv.faults.head? = some e ∧ e.seq = s.nv.faultSeq + 1 ∧ P e
    let allFail := fun (t : State) => ∀ fn, fn < 65 → present s fn = true → (ctrl t fn).cfs = true
    let far := 8 < rd.toInt.natAbs ∨ 8 < wr.toInt.natAbs
    let ch_ := 162 + ch
    (ch < 8 → s.drc.trained = true → s.drc.selfref = false → Gives (.dramRetrainPause ch rd wr) s fun t =>
      tget t.drc.oscRd 0 ch = rd ∧ tget t.drc.oscWr 0 ch = wr ∧
      (far → s.drc.driftRep.getLsbD ch = false → t.drc.driftRep.getLsbD ch = true ∧ (quiet → Reports t 5 (8 + ch))) ∧
      (¬ far ∨ s.drc.driftRep.getLsbD ch = true → t = { s with drc := { s.drc with oscRd := t.drc.oscRd, oscWr := t.drc.oscWr } })) ∧
    (ch < 8 → line < 2 ^ 32 → line / 224 = row → 3 ≤ lineErrs s ch_ line ∨ 2 ≤ lineState s ch_ line → (minst s ch_).remap.length < 8 →
      Gives (.dramRepairPause ch row) s fun t => (minst t ch_).remap = (minst s ch_).remap ++ [row] ∧ lineErrs t ch_ line = 0 ∧
        (2 ≤ lineState s ch_ line → lineState t ch_ line = 1) ∧ logged t fun e => e.kind = 1 ∧ e.cls = 5 ∧ e.inst % 4 = ch % 4) ∧
    (hasSpares inst = true → inst < 162 → 3 ≤ lineErrs s inst line ∨ 2 ≤ lineState s inst line →
      ((minst s inst).remap.length < 8 → Gives (.lineRemap inst line) s fun t => (minst t inst).remap = (minst s inst).remap ++ [line] ∧
        lineErrs t inst line = 0 ∧ (2 ≤ lineState s inst line → lineState t inst line = 1) ∧
        logged t fun e => e.kind = 1 ∧ e.cls = 6 ∧ e.inst = inst) ∧
      (8 ≤ (minst s inst).remap.length → (minst s inst).fullRep = false → quiet → Gives (.lineRemap inst line) s fun t =>
        Reports t 6 inst ∧ (minst t inst).remap = (minst s inst).remap ∧ t.nv = s.nv)) ∧
    (inst < 162 ∨ (inst ≤ 169 ∧ s.drc.scrubEn = true ∧ s.drc.selfref = false) →
      (Gives (.scrub inst line .clean) s fun t => t = s) ∧
      (Gives (.scrub inst line .correctable) s fun t => t = { s with memi := t.memi } ∧
        minst t inst = { minst s inst with ce := satInc (minst s inst).ce } ∧ lineErrs t inst line = lineErrs s inst line + 1) ∧
      (lineBad s inst line = false → 96 ≤ inst ∧ inst < 112 ∨ 162 ≤ inst → Gives (.scrub inst line .uncorrectable) s fun t =>
        lineState t inst line = 1 ∧ (minst t inst).ue = satInc (minst s inst).ue ∧ t.memi.ueW1 = BitVec.ofNat 32 line ∧
        t.memi.ueW0 = BitVec.ofNat 32 (inst * 2 ^ 24 + 7 * 2 ^ 20 + 1) ∧ (quiet → inst < 162 → Reports t 6 inst)) ∧
      (lineBad s inst line = false → 32 ≤ inst ∧ inst < 64 → Gives (.scrub inst line .uncorrectable) s fun t =>
        lineState t inst line = 0 ∧ (minst t inst).ue = satInc (minst s inst).ue)) ∧
    (dev < 8 → s.nv.failedDev.getLsbD dev = false → Gives (.dramDeviceFailed dev) s fun t => t.nv.failedDev.getLsbD dev = true ∧
      t.nrg.draining = true ∧ allFail t ∧ t.host.smart.getLsbD 2 = true ∧ (quiet → Reports t 5 dev)) ∧
    (Keyed s ini fD → Gives (.orderSwitch ini v) s fun t => KeyUsed s t fD ∧ t.drc = { s.drc with glm96 := v.getLsbD 0, wq := [], orderT := some s.now }) ∧
    (Writable s ini fD → ini ∉ (hdr s fD).closed → Gives (.orderSwitch ini v) s fun t => HasError t fD 3 ∧ t.drc = s.drc) ∧
    (Keyed s ini fM →
      (s.memi.armed = false → Gives (.checkBitTestArm ini v) s fun t => KeyUsed s t fM ∧
        t.memi = { s.memi with armed := true, mode := v.getLsbD 16, target := BitVec.ofNat 8 (v.toNat % 256) }) ∧
      (s.memi.armed = true → Gives (.checkBitTestArm ini v) s fun t => HasError t fM 0x41 ∧ t.memi = s.memi)) ∧
    (Writable s ini fM → let n := v.toNat % 256
      (n ≤ 169 → Gives (.memiSelect ini v) s fun t => t = { s with memi := { s.memi with
        sel := BitVec.ofNat 8 n, snapCe := (minst s n).ce, snapUe := (minst s n).ue } }) ∧
      (169 < n → Gives (.memiSelect ini v) s fun t => HasError t fM 0x41 ∧ t.memi = s.memi)) ∧
    (PageOpen s ini fM → Gives (.ueRecordRead ini) s fun t => t.out.reg = s.memi.ueW0 ∧
      t.memi = { s.memi with latW1 := s.memi.ueW1, latW2 := s.memi.ueW2 }) ∧
    (PageOpen s ini fD → Gives (.drcFwdRead ini) s fun t => t.out.reg = s.drc.fwd ∧ t.drc = { s.drc with fwd := 0 }) ∧
    (PageOpen s ini fL → Gives (.fltAbsRead ini) s fun t => t.out.reg = s.flt.abs ∧ t.flt = { s.flt with abs := 0 }) ∧
    (t0 + 2 ≤ s.now →
      (s.flt.window = some (t0, [(r, a)]) → Gives .faultWindowEnd s fun t => t.flt.window = none ∧
        t.flt.latched = s.flt.latched ++ [(r.cls, r.inst, s.now)] ∧ logged t fun e => e.kind = 0 ∧ e.cls = r.cls ∧ e.inst = r.inst ∧
          e.t = a ∧ e.cause = r.cause ∧ e.count = 1 ∧ e.extra = r.action) ∧
      (s.flt.window = some (t0, [(r, a), (r2, a2)]) → covers r2.cls r2.inst r.cls r.inst = true → covers r.cls r.inst r2.cls r2.inst = false →
        Gives .faultWindowEnd s fun t => t.flt.window = none ∧ t.flt.latched = s.flt.latched ++ [(r2.cls, r2.inst, s.now)] ∧
          logged t fun e => e.kind = 0 ∧ e.cls = r2.cls ∧ e.inst = r2.inst ∧ e.t = a2 ∧ e.count = 2 ∧ e.extra = max r.action r2.action)) ∧
    (quiet → inst < 8 → 1 ≤ cause → cause ≤ 3 → Gives (.railFault inst cause) s fun t => t = { s with flt := t.flt } ∧ Reports t 1 inst) ∧
    (1 ≤ inst → inst ≤ 40 → domainRuns s inst = true → Gives (.clockLoss inst) s fun t => domainRuns t inst = false ∧
      (∀ d, 1 ≤ d → d ≤ 40 → d ≠ inst → domainRuns t d = domainRuns s d) ∧ t.clkLoss.getLsbD (inst - 1) = true ∧ (quiet → Reports t 2 inst)) ∧
    (1 ≤ inst → inst ≤ 4 → s.pw.main = true → s.pw.thermal = false → Gives (.thermalShutdown inst) s fun t => t.pw.thermal = true ∧
      t.nrg.draining = true ∧ allFail t ∧ (quiet → Reports t 7 inst)) ∧
    (Keyed s ini fC → calBusy s = true → Gives (.calibrationCommit ini v) s fun t => HasError t fC 0x41 ∧ t.nv = s.nv) ∧
    (Keyed s ini fC → calBusy s = false →
      (v.toNat % 4 = 1 →
        (commitSource s s.rst.calSrc.toNat 65536 = none → Gives (.calibrationCommit ini v) s fun t => KeyUsed s t fC ∧ t.rst.calErr = 7 ∧
          t.nv = s.nv ∧ t.nrg = s.nrg) ∧
        (commitSource s s.rst.calSrc.toNat 65536 = some b →
          (calCheck s b = 0 → Gives (.calibrationCommit ini v) s fun t => KeyUsed s t fC ∧
            t.nv = { s.nv with cal := b, calCommits := satInc s.nv.calCommits } ∧ t.rst = { s.rst with calErr := 0, calValid := true, calT := some s.now } ∧
            t.nrg = { s.nrg with calGain := b, calNew := true, drift := false, driftCnt := 0 }) ∧
          (calCheck s b ≠ 0 → Gives (.calibrationCommit ini v) s fun t => KeyUsed s t fC ∧ t.rst.calErr = BitVec.ofNat 8 (calCheck s b) ∧
            t.nv = s.nv ∧ t.nrg = s.nrg) ∧
          (span b 16 20 ≠ padTo 20 s.fuse.serial ∨ areaCrc b (leAt b 8 4) = false ∨ (leAt b 6 2 = 0 ∧ calSigned b = false) →
            Gives (.calibrationCommit ini v) s fun t => t.nv = s.nv))) ∧
      (v.toNat % 4 ≠ 1 → Gives (.calibrationCommit ini v) s fun t => HasError t fC 0x41 ∧ t.nv = s.nv)) ∧
    (Keyed s ini fO → optBusy s = true → Gives (.optionCommit ini v) s fun t => HasError t fO 0x41 ∧ t.nv = s.nv) ∧
    (Keyed s ini fO → optBusy s = false →
      (v.toNat % 4 = 1 →
        (optSource s s.rst.optSrc.toNat = none → Gives (.optionCommit ini v) s fun t => KeyUsed s t fO ∧ t.rst.optErr = 6 ∧ t.nv = s.nv) ∧
        (optSource s s.rst.optSrc.toNat = some b →
          (optCheck b = 0 → keyChangeOk s b = true → Gives (.optionCommit ini v) s fun t => KeyUsed s t fO ∧
            t.rst = { s.rst with optErr := 0, optPending := true, optT := some s.now } ∧
            t.nv = if s.rst.optHalf then { s.nv with optA := withGeneration b (s.rst.optGen + 1) }
                   else { s.nv with optB := withGeneration b (s.rst.optGen + 1) }) ∧
          (optCheck b ≠ 0 → Gives (.optionCommit ini v) s fun t => t.rst.optErr = BitVec.ofNat 8 (optCheck b) ∧ t.nv = s.nv) ∧
          (optCheck b = 0 → keyChangeOk s b = false → Gives (.optionCommit ini v) s fun t => t.rst.optErr = 5 ∧ t.nv = s.nv))) ∧
      (v.toNat % 4 ≠ 1 → Gives (.optionCommit ini v) s fun t => HasError t fO 0x41 ∧ t.nv = s.nv))

/-- Latched tags (R409): a report that one of them absorbs counts in FLT_ABS, makes no entry and no interrupt, and restarts the 10 s of
every tag that absorbs it; a tag is released 10 s after the last report that it carried or absorbed; a report that none absorbs joins the
open window, or opens one. -/
def Obligations.LatchedTags : Prop :=
  ∀ (s : State) (blk_ inst cls tinst cause action : Nat),
    let by_ := fun (l : Nat × Nat × Nat) => (l.1 = cls ∧ l.2.1 = tinst) ∨ covers l.1 l.2.1 cls tinst = true
    let x : FRep := ⟨cls, tinst, blk_, inst, cause, action⟩
    (1 ≤ cls → cls ≤ 9 →
      ((∀ l ∈ s.flt.latched, ¬ by_ l) → Gives (.faultReport blk_ inst cls tinst cause action) s fun t =>
        t = { s with flt := { s.flt with window := some (match s.flt.window with
          | none => (s.now, [(x, s.time.cal)])
          | some w => (w.1, w.2 ++ [(x, s.time.cal)])) } }) ∧
      ((∃ l ∈ s.flt.latched, by_ l) → Gives (.faultReport blk_ inst cls tinst cause action) s fun t =>
        t = { s with flt := { s.flt with abs := satInc s.flt.abs, latched := t.flt.latched } } ∧
        t.flt.latched.length = s.flt.latched.length ∧ ∀ (i : Nat) (l : Nat × Nat × Nat), s.flt.latched[i]? = some l →
          (by_ l → t.flt.latched[i]? = some (l.1, l.2.1, s.now)) ∧ (¬ by_ l → t.flt.latched[i]? = some l))) ∧
    (Gives (.tagRelease cls tinst) s fun t => t = { s with flt := { s.flt with latched := t.flt.latched } } ∧
      ∀ l, l ∈ t.flt.latched ↔ l ∈ s.flt.latched ∧ ¬ (l.1 = cls ∧ l.2.1 = tinst ∧ l.2.2 + 10000000 ≤ s.now))

/-! ## Energy and time -/

/-- Energy and time (from R360-R367, R370, R371, R374-R378, R380, R381, R385, each in part): deductions of a sample, the epoch boundary, the envelope guard,
the embankment's measurement and its limits, the safety drain, the calendar, and the counters read as pairs.
The model's own readings: log entries 26, 45, 46. -/
def Obligations.EnergyAndTime : Prop :=
  ∀ (s : State) (ini : Ini) (rails : List (Nat × Nat)) (temps : List Int) (p j v step_ fall : Nat) (grans : List Nat) (x : Job),
    let n := s.nrg
    let after := fun (q : Nat) => max ((acct s q).bal - (((acct s q).pend / 10 ^ 9 : Nat) : Int)) (-2147483648 : Int)
    let est := fun (q : Nat) => (acct s q).est / 10 ^ 9
    let e := n.measRem + railEnergy s 0 (rails.getD 0 (0, 0)) + railEnergy s 1 (rails.getD 1 (0, 0))
    let fN := frameOf 0x0D 0 0
    let fT := frameOf 0x0E 0 0
    (s.pw.aux = true →
      (Gives (.nrgSample rails) s fun t => t.nrg.meas = n.meas + e / 10 ^ 10 ∧ t.nrg.measRem = e % 10 ^ 10 ∧
        t.nrg.window = n.window + e / 10 ^ 10 ∧ t.nrg.samples = n.samples + 1 ∧
        (s.jobs = [] → p < 64 → (acct t p).bal = after p ∧ (acct t p).pend = (acct s p).pend % 10 ^ 9) ∧
        (job s j = some x → x.st = .running → ∃ y, job t j = some y ∧ y.st = if (acct t x.polder).bal < 0 then .held else .running)) ∧
      (s.jobs = [] → temps.length = 4 → Gives (.epochBoundary temps) s fun t =>
        let all := ((List.range 64).map est).sum
        let charged := if p = 0 then (n.meas : Int) - ((all - est 0 : Nat) : Int) else (est p : Int)
        t.nrg.epoch = (n.epoch + 1) % 2 ^ 64 ∧ t.nrg.meas = 0 ∧ t.nrg.lastMeas = n.meas ∧ t.nrg.temps = sensors s temps ∧
        t.nv.energyUj = (s.nv.energyUj + n.meas) % 2 ^ 64 ∧
        (p < 64 → let q := acct t p
          q.snapEst = est p ∧ q.est = 0 ∧ q.snapRec = charged ∧ q.life = (((acct s p).life : Int) + charged).toNat ∧
          q.snapDef = (acct s p).deferred ∧ q.deferred = false ∧ q.snapBal = q.bal ∧
          q.bal = min (after p + (q.refill : Int)) (255 * (q.refill : Int)) ∧ (q.cap ≠ 0 → q.refill ≤ q.cap.toNat) ∧
          ((polder s p).st ≠ .active → (polder s p).st ≠ .quiescing → q.refill = 0)) ∧
        (s.host.psNext = some v → v ≤ 3 → s.host.ps ≤ 3 → t.host.ps = v ∧ t.host.opPs = v ∧ t.host.psNext = none ∧
          t.nrg.envelope = BitVec.ofNat 2 (max v s.host.ceiling.toNat)) ∧
        ((∃ c ∈ sensors s temps, 850 ≤ c) → t.nrg.thermal = 3 ∧ t.host.smart.getLsbD 1 = true))) ∧
    (10 ≤ n.samples → Gives .envelopeGuardWindow s fun t =>
      let cap := admission s * 1000
      t = { s with freeCtr := t.freeCtr, nrg := t.nrg } ∧ t.nrg.window = 0 ∧ t.nrg.samples = 0 ∧
      (cap < n.window → (n.held = 0 → t.nrg.held = 4) ∧ (n.held = 4 → t.nrg.held = 6) ∧ (n.held = 6 → t.nrg.held = 7) ∧
        (n.held = 7 → t.nrg.held = 7 ∧ t.nrg.pacing = true ∧ n.gap ≤ t.nrg.gap)) ∧
      (n.window ≤ cap → t.nrg.pacing = false ∧ t.nrg.gap = 0 ∧ (95 * cap ≤ 100 * n.window → t.nrg.held = n.held) ∧
        (100 * n.window < 95 * cap →
          (n.held = 7 → t.nrg.held = 6) ∧ (n.held = 6 → t.nrg.held = 4) ∧ (n.held = 4 → t.nrg.held = 0)))) ∧
    (s.pw.main = true → s.pw.brownout = false → n.measuring = false → n.limitNext = none → occupancy s ≤ limitAt s (vLo s) * 1048576 →
      n.test = true ∨ (n.embValid = false ∧ 9 ≤ s.rst.step.toNat ∧ s.rst.mramHeld = false) ∨
        (n.embValid = true ∧ n.lastMeasT + 86400000000 ≤ s.now) →
      Gives .embankmentMeasurement s fun t => t.nrg.measuring = true ∧
        t.nrg.limit = if n.embValid then limitAt s (vLo s) else n.limit) ∧
    (n.measuring = true → Gives (.embankmentMeasurementEnd step_ fall) s fun t => let m := t.nrg
      m.measuring = false ∧ m.test = false ∧ m.embValid = true ∧ m.lastMeasT = s.now ∧
      m.capUf = BitVec.ofNat 20 (satN 20 (calNum s 4 28 500 * fall / (vChg s - vLo s))) ∧
      m.esr = BitVec.ofNat 16 (satN 16 (step_ * 1000 / calNum s 4 28 500)) ∧
      m.limitNext = some (limitAt t (vChg t)) ∧ m.limit = min (limitAt t (vChg t)) (limitAt t (vLo t)) ∧
      (eUsable t < 6000 → t.host.smart.getLsbD 4 = true) ∧
      (s.rst.step = 12 → s.rst.ready = false → s.rst.failed = false → t.rst.ready = true ∧ t.rst.step = 13)) ∧
    (n.limitNext = some v → n.measuring = false → s.pw.main = true → Gives .bankCharged s fun t => t.nrg.limit = v ∧ t.nrg.limitNext = none ∧
      (v = 0 → t.host.smart.getLsbD 3 = true) ∧ (64 ≤ v → t.host.smart.getLsbD 3 = false)) ∧
    (n.embValid = true → s.pw.main = true → n.draining = false → uncovered s ≠ [] → needsDrain s = true → gransOk s grans = true →
      Gives (.safetyDrain grans) s fun t => uncovered t = [] ∧ (∀ e ∈ uncovered s, e.seq ∈ t.nrg.safety) ∧
        (s.flt.latched = [] → Reports t 1 2)) ∧
    (n.safety ≠ [] → (∀ e ∈ s.ftla.staging, e.seq ∉ n.safety) → jFull s = false → s.host.cmds = [] → Gives .drainRelease s fun t =>
      t.nrg.safety = [] ∧ t.ftla.jseq = s.ftla.jseq + 1) ∧
    (s.pw.aux = true → let c := (s.time.cal + 1) % 2 ^ 64
      Gives .calendarTick s fun t => t = { s with time := { s.time with cal := c, shadow := c } }) ∧
    (s.pw.aux = true → s.time.saved + 60000000 ≤ s.now → Gives .calendarSave s fun t =>
      t = { s with time := { s.time with saved := s.now }, nv := { s.nv with calendar := s.time.cal } }) ∧
    (s.pw.aux = true → s.pw.main = true → Gives .powerOnSecond s fun t =>
      t = { s with nv := { s.nv with posSeconds := (s.nv.posSeconds + 1) % 2 ^ 64 } }) ∧
    (PageOpen s ini fT →
      (Gives (.calendarShadowRead ini) s fun t => t.out.reg = BitVec.ofNat 32 s.time.shadow ∧
        t.time = { s.time with shadowHi := BitVec.ofNat 32 (s.time.shadow / 2 ^ 32) }) ∧
      (Gives (.powerOnSecondsRead ini) s fun t => t.out.reg = BitVec.ofNat 32 s.nv.posSeconds ∧
        t.time = { s.time with posHi := BitVec.ofNat 32 (s.nv.posSeconds / 2 ^ 32) }) ∧
      (Gives (.energyDeliveredRead ini) s fun t => t.out.reg = BitVec.ofNat 32 s.nv.energyUj ∧
        t.time = { s.time with engHi := BitVec.ofNat 32 (s.nv.energyUj / 2 ^ 32) })) ∧
    (PageOpen s ini fN → Gives (.epochRead ini) s fun t => t.out.reg = BitVec.ofNat 32 n.epoch ∧
      t.nrg = { n with epochHi := BitVec.ofNat 32 (n.epoch / 2 ^ 32) })

/-! ## Power, reset and boot -/

/-- Power, reset and boot (from R27, R83, R295, R297, R379, R386-R397, R404, R412, R447, R450, R451, each in part): what each reset keeps, brown-out, the
hold-up drain, power disable, the boot up to step 9 with its failures, the releases, and the watchdog.
The model's own readings: log entries 7, 18, 46, 49, 50. -/
def Obligations.ResetAndBoot : Prop :=
  ∀ (s : State) (pins : BitVec 3) (grans : List Nat) (env : BootEnv) (fn c ch d n p : Nat) (v : W32) (e : Staged) (b : Bytes),
    let off := s.pw.main = false
    let fresh := fun (t : State) => t.cores = [] ∧ t.jobs = [] ∧ t.host = {} ∧ t.pol = {} ∧ t.bpm = {} ∧ t.flcs = [] ∧ t.dram = [] ∧
      t.fuse = s.fuse ∧ t.ftla.map = s.ftla.map
    let counted := fun (t : State) => t.nv = { s.nv with cycles := s.nv.cycles + 1 } ∧
      t.ftla.staging = s.ftla.staging.filter (fun x => x.drained.isSome)
    let disabled := s.pw.pwrdis = true ∧ s.pw.off = false ∧ s.pw.main = true
    let latched := fun (t : State) => t.nrg.draining = true ∧ t.nv.calendar = s.time.cal ∧ t.drc.selfref = false ∧
      (ch < 32 → (flc t ch).brownout = true ∧
        ((flc s ch).backlog = [] → ∀ x ∈ (flc t ch).queue, (dHoldup x = true ∧ dOp x = 3) ∨ dOp x = 10) ∧
        ((die s ch d).st = .erase → (die t ch d).st = .suspending ∧ (die t ch d).auto = true))
    (off → s.pw.aux = false → Gives (.coldPowerOn pins) s fun t => fresh t ∧ counted t ∧ t.rst = {} ∧ t.flt = {} ∧ t.sbd = { slot := pins } ∧
      t.pw = { pwrdis := s.pw.pwrdis } ∧
      let z : Time := { posHi := BitVec.ofNat 32 (s.nv.posSeconds / 2 ^ 32), engHi := BitVec.ofNat 32 (s.nv.energyUj / 2 ^ 32) }
      t.time = if s.nv.calSet then { z with
        cal := s.nv.calendar, shadow := s.nv.calendar, shadowHi := BitVec.ofNat 32 (s.nv.calendar / 2 ^ 32), st := 2, synch := true } else z) ∧
    (off → s.pw.aux = true → Gives .mainPowerOn s fun t => fresh t ∧ counted t ∧ t.rst = { kind := 1 } ∧ t.sbd = s.sbd ∧
      t.pw = { pwrdis := s.pw.pwrdis } ∧ t.time = { s.time with saved := 0, st := if s.nv.calSet then 2 else 0 }) ∧
    (s.pw.main = true → drainOk s grans = true → Gives (.mainPowerLoss grans) s fun t => t.pw.main = false ∧ t.pw.por = true ∧
      t.cores = [] ∧ t.jobs = [] ∧ t.dram = [] ∧ t.host.ctrls = [] ∧ t.host.cmds = [] ∧ t.sbd = s.sbd ∧ t.time = s.time ∧
      t.clkLock = s.clkLock &&& 0xE000000000#40 ∧ (∀ x ∈ t.ftla.staging, x.drained ≠ none) ∧
      (s.pw.brownout = false → s.pw.pwrdis = false → t.nv.calendar = s.time.cal) ∧
      (s.pw.brownout = true → (∀ x ∈ s.ftla.staging, stagedLost s x = false) → e ∈ s.ftla.staging →
        ∃ x ∈ t.ftla.staging, x.seq = e.seq ∧ x.data = e.data)) ∧
    (Gives .auxPowerLoss s fun t => t = { s with pw := { s.pw with aux := false }, clkLock := s.clkLock &&& 0x1FFFFFFFFF#40, sbd := {} }) ∧
    (s.host.portA.up = true → booting s = false ∨ 2 ≤ s.rst.kind.toNat → Gives (.nvmSubsystemReset 0 0x4E564D65) s fun t => fresh t ∧
      t.rst.kind = 2 ∧ t.pw = { s.pw with por := true } ∧ t.nv = s.nv ∧ t.time = s.time ∧ t.flt = s.flt ∧
      t.ftla.staging = s.ftla.staging.map (fun x => { x with placed := none }) ∧ t.nrg.envelope = 0 ∧
      (acct t p).weight = 16 ∧ (acct t p).cap = 0 ∧ (p ≠ 0 → (acct t p).bal = 0)) ∧
    (fn ≠ 0 ∨ v ≠ 0x4E564D65 → Gives (.nvmSubsystemReset fn v) s fun t => t = s) ∧
    (s.pw.main = true → s.pw.brownout = false → s.pw.pwrdis = false → Gives .brownoutLatch s fun t => t.pw.brownout = true ∧ latched t) ∧
    (s.pw.main = true → s.pw.brownout = true → s.pw.pwrdis = false → Gives .brownoutRecovery s fun t => t.pw.brownout = false ∧
      t.nrg.draining = false ∧ (ch < 32 → (flc t ch).brownout = false)) ∧
    (s.pw.pwrdis = false →
      (s.pw.por = true ∨ off → Gives .powerDisable s fun t => t = { s with pw := { s.pw with pwrdis := true } }) ∧
      (s.pw.por = false → s.pw.main = true → s.pw.brownout = false → Gives .powerDisable s fun t => t.pw.pwrdis = true ∧
        t.host.portA = {} ∧ t.host.portB = {} ∧ latched t)) ∧
    (s.nrg.draining = true → drainOk s grans = true → Gives (.holdupDrainDone grans) s fun t => t.nrg.draining = false ∧ uncovered t = [] ∧
      (disabled → s.pw.released = false → t.pw.off = true ∧ t.pw.por = true ∧ t.cores = [] ∧ t.sbd = s.sbd) ∧
      (disabled → s.pw.released = true → t.pw = {} ∧ t.rst = { kind := 1 } ∧ t.cores = []) ∧
      (¬ disabled → t.pw = s.pw ∧ t.cores = s.cores ∧ t.jobs = s.jobs)) ∧
    (s.pw.pwrdis = true →
      (s.pw.off = true → Gives .powerDisableRelease s fun t => fresh t ∧ counted t ∧ t.pw = {} ∧ t.rst = { kind := 1 }) ∧
      (s.pw.off = false → s.pw.por = true ∨ off → Gives .powerDisableRelease s fun t => t = { s with pw := { s.pw with pwrdis := false } }) ∧
      (disabled → s.pw.por = false → Gives .powerDisableRelease s fun t => t = { s with pw := { s.pw with released := true } })) ∧
    (s.pw.main = true → s.pw.aux = true → s.pw.por = true → s.pw.pwrdis = false → s.rst.failed = false → Gives (.boot env) s fun t =>
      t.pw = { s.pw with por := false } ∧ t.rst.bootT = s.now ∧
      (tget t.isl.meas {} 0).val = Config.sha384 ((tget s.isl.meas {} 0).val ++ Config.sha384 Config.bootRom) ∧
      (env.badDram ≠ 0 → t.rst.step = 7 ∧ t.drc.trained = false ∧ t.drc.failedCh = env.badDram) ∧
      (env.badDram = 0 → t.drc.trained = true ∧ t.isl.up = true ∧ t.isl.ready = env.samples ∧ t.isl.mediaReady = env.samples ∧
        ((t.rst.failed = true ∧ t.rst.step = 7) ∨
         (t.rst.failed = false ∧ t.rst.step = 9 ∧ t.rst.wdtEn = true ∧ t.ftla.enable = true ∧ t.ftla.replaying = true ∧
          (t.rst.image = s.nv.slot1 ∨ t.rst.image = s.nv.slot2) ∧ (c ∈ t.rst.service → (core t c).pc = BitVec.ofNat 36 (imageWin + imEntry t.rst.image))))) ∧
      (s.cores = [] → env.badCores = [] → t.rst.cores = 32 ∧ 6 ≤ t.rst.service.length ∧ t.rst.service.length ≤ 16 ∧
        ∀ i, i < t.rst.service.length → t.rst.service[i]? = some i) ∧
      (c < 32 → env.badCores = [c] → s.cores = [] →
        (s.nv.spares.length < 2 → t.nv.spares = s.nv.spares ++ [c] ∧ (core t c).absent = false ∧ t.rst.cores = 32) ∧
        (2 ≤ s.nv.spares.length → t.nv.spares = s.nv.spares ∧ (core t c).absent = true ∧ c ∉ t.rst.service ∧ t.rst.cores = 31)) ∧
      (ch < 32 → (flc t ch).enable = true ∧ (flc t ch).brownout = s.pw.brownout)) ∧
    (inBoot s = true → s.rst.mramHeld = true →
      (Gives .mramWriteRelease s fun t => t = { s with rst := { s.rst with mramHeld := false, step := if s.rst.step = 9 then 10 else s.rst.step } }) ∧
      (s.rst.bootT + 3000000 ≤ s.now → Gives .mramReleaseTimeout s fun t => t.rst.mramHeld = false ∧ t.nrg.capUf = 0 ∧ t.nrg.limit = 0 ∧
        t.nrg.embValid = true ∧ t.host.smart.getLsbD 3 = true ∧ t.host.smart.getLsbD 4 = true ∧ (s.flt.latched = [] → Reports t 1 2))) ∧
    (inBoot s = true → s.rst.bootT + s.rst.bootTimeoutS * 1000000 ≤ s.now →
      (s.rst.retried = true → Gives (.bootTimeout env) s fun t => t.rst.failed = true ∧
        ∀ f, f < 65 → present s f = true → (ctrl s f).cc.getLsbD 0 = true → (ctrl t f).cfs = true) ∧
      (s.rst.retried = false → Gives (.bootTimeout env) s fun t => t.rst.retried = true ∧ t.rst.kind = s.rst.kind ∧ t.rst.bootT = s.now ∧
        t.pw.por = false ∧ t.host.sqs = [] ∧ t.host.cmds = [] ∧ t.jobs = [])) ∧
    (s.pol.reactivate = true → (∀ x ∈ s.pol.tab, x.2.st ≠ .teardown) →
      (s.rst.polRecs = [] → Gives .optionPolderReactivation s fun t => t = { s with pol := { s.pol with reactivate := false } }) ∧
      (s.rst.polRecs = [b] → leAt b 0 1 = n → 1 ≤ n → n ≤ 63 → (polder s n).st = .empty → Gives .optionPolderReactivation s fun t =>
        t.pol.reactivate = false ∧ ((polder t n).st = .active ∨ (polder t n).st = .provisioning) ∧
        ((polder t n).st = .provisioning → ∃ x, t.nv.faults.head? = some x ∧ x.kind = 3 ∧ x.inst = n))) ∧
    (s.rst.wdtEn = true →
      ((∀ k, k < 16 → missedKick s k = true → s.rst.missed.getLsbD k = false) → Gives .watchdogPeriodEnd s fun t => t.rst.kick = 0 ∧
        (n < 16 → t.rst.missed.getLsbD n = missedKick s n ∧ t.rst.late.getLsbD n = (s.rst.late.getLsbD n || missedKick s n) ∧
          (missedKick s n = true → (core t (s.rst.service.getD n 0)).wdtInt = true)) ∧ t.pw = s.pw) ∧
      (n < 16 → missedKick s n = true → s.rst.missed.getLsbD n = true → booting s = false ∨ 2 ≤ s.rst.kind.toNat →
        Gives .watchdogPeriodEnd s fun t => fresh t ∧ t.rst.kind = 3 ∧
        t.pw = { s.pw with por := true } ∧ (s.flt.latched = [] → Reports t 8 (s.rst.service.getD n 0))))

/-! ## The sideband -/

/-- The sideband (from R3, R414-R425, R64, each in part): dynamic addresses, the common command codes and their refusals, the I2C fallback, MCTP packets and
control messages, NVMe-MI on the two command slots and from the host, the admin tunnel, and SBD_STAT.
The model's own readings: log entries 5, 51, 52. -/
def Obligations.Sideband : Prop :=
  ∀ (s : State) (addr legacy : BitVec 7) (won tie : Bool) (n len off c v fn cid : Nat) (pkt : MctpPacket) (eid : BitVec 8)
    (b r : Bytes) (k : BitVec 2) (ini : Ini) (op : Nat),
    let d := s.sbd
    let pid := 0x1F3C * 2 ^ 33 + 0x0256 * 2 ^ 16 + d.slot.toNat * 2 ^ 12 + (crc32c (padTo 20 s.fuse.serial)).toNat % 4096
    let pidBytes := (leBytes 6 pid).reverse
    let home := 0x48 + d.slot.toNat
    let reply := fun (i : Instr) (x : Option Bytes) => Gives i s fun t => t = { s with sbd := { d with resp := x } }
    let word := (if d.ibi = true ∨ d.slot0.ibi = true ∨ d.slot1.ibi = true then 1 else 0) + (if d.protoErr then 32 else 0) + 256 * fltSumm s + 1024 * (s.nv.faultSeq % 64)
    let two := fun (x : Nat) => (leBytes 2 x).reverse
    let fru := Config.fruHead ++ asciiPad (orderingCode s) 16 ++ Config.fruTail
    let asm := fun (t : State) => (miSlot t pkt.slot).asm
    let codes := [Instr.getpid, .getbcr, .getdcr, .getstatus, .getmwl, .getmrl, .setmwl n, .setmrl n]
    (s.pw.aux = true →
      (d.dynValid = false → Gives (.entdaa addr won tie) s fun t => t.sbd.resp = some (pidBytes ++ [0x06, 0x00]) ∧
        t.sbd.dynValid = won ∧ (won = true → t.sbd.dynAddr = addr ∧ t.sbd.fallback = false ∧ t.sbd.tied = tie)) ∧
      (d.dynValid = false → legacy.toNat = home → Gives (.setdasa legacy addr) s fun t => t.sbd.dynValid = true ∧ t.sbd.dynAddr = addr ∧
        t.sbd.fallback = false ∧ t.sbd.resp ≠ none) ∧
      (d.dynValid = true ∨ legacy.toNat ≠ home → reply (.setdasa legacy addr) none) ∧
      (Gives .rstdaa s fun t => t = { s with sbd := { d with dynValid := false, dynAddr := 0, eid := 0, tied := false, resp := some [] } }) ∧
      (Gives .enec s fun t => t = { s with sbd := { d with ibiEn := true, resp := some [] } }) ∧
      (Gives .disec s fun t => t = { s with sbd := { d with ibiEn := false, resp := some [] } }) ∧
      (d.dynValid = false → ∀ i ∈ codes, reply i none) ∧
      reply (.unsupportedCcc true) none ∧ (Gives (.unsupportedCcc false) s fun t => t = s) ∧
      (d.fallback = true → addr.toNat = home → reply (.i2cFruRead addr len) (some (span fru d.fruOff len)) ∧
        Gives (.i2cFruOffsetWrite addr off) s fun t => t = { s with sbd := { d with fruOff := off, resp := some [] } }) ∧
      (d.fallback = false ∨ addr.toNat ≠ home → reply (.i2cFruRead addr len) none ∧ reply (.i2cFruOffsetWrite addr off) none)) ∧
    (s.pw.aux = true → d.dynValid = true → d.tied = false →
      reply .getpid (some pidBytes) ∧ reply .getbcr (some [0x06]) ∧ reply .getdcr (some [0x00]) ∧
      reply .getmwl (some (two d.mwl)) ∧ reply .getmrl (some (two d.mrl)) ∧
      (Gives .getstatus s fun t => t = { s with sbd := { d with protoErr := false, resp := some (two word) } }) ∧
      (69 ≤ n → n ≤ 261 → (Gives (.setmwl n) s fun t => t = { s with sbd := { d with mwl := n, resp := some [] } }) ∧
        Gives (.setmrl n) s fun t => t = { s with sbd := { d with mrl := n, resp := some [] } }) ∧
      (n < 69 ∨ 261 < n → reply (.setmwl n) none ∧ reply (.setmrl n) none) ∧
      (eid ≠ 0 → eid ≠ 0xFF → Gives (.setEndpointId eid) s fun t => t.sbd.eid = eid ∧ t.sbd.resp = some [0, 0, eid, 0]) ∧
      (Gives .getEndpointId s fun t => ∃ x, x.length = 2 ∧ t.sbd.resp = some ([0, d.eid] ++ x)) ∧
      (Gives .getEndpointUuid s fun t => ∃ x, x.length = 16 ∧ t.sbd.resp = some ([0] ++ x)) ∧
      (Gives .getMctpVersionSupport s fun t => ∃ x, t.sbd.resp = some ([0] ++ x)) ∧
      (Gives .getMessageTypeSupport s fun t => t.sbd.resp = some [0, 1, 4] ∧ t.sbd.ibi = d.ibiEn) ∧
      (n < 2 → (miSlot s n).req = some r → Gives (.miResponseReady n) s fun t => miSlot t n = { miSlot s n with
        req := none, tunnel := false, resp := some r, ibi := (miSlot s n).ibi || d.ibiEn } ∧ t.sbd.resp = some r) ∧
      (pkt.slot < 2 →
        (pkt.pecOk = false → Gives (.mctpPacket pkt) s fun t => asm t = none ∧ (miSlot t pkt.slot).req = (miSlot s pkt.slot).req) ∧
        (pkt.pecOk = true → pkt.dest = 0 ∨ (d.eid ≠ 0 ∧ pkt.dest = d.eid) →
          (pkt.som = true → pkt.eom = false → pkt.payload.length ≤ 4224 →
            Gives (.mctpPacket pkt) s fun t => asm t = some (pkt.payload, pkt.seq + 1)) ∧
          (pkt.som = false → asm s = some (b, k) → k ≠ pkt.seq → Gives (.mctpPacket pkt) s fun t => asm t = none) ∧
          (pkt.som = false → asm s = some (b, k) → k = pkt.seq → pkt.eom = false → b.length + pkt.payload.length ≤ 4224 →
            Gives (.mctpPacket pkt) s fun t => asm t = some (b ++ pkt.payload, pkt.seq + 1)) ∧
          (pkt.som = true → pkt.eom = true → pkt.msgType = 4 → pkt.payload.length ≤ 4224 →
            ((miSlot s pkt.slot).req = none → Gives (.mctpPacket pkt) s fun t => (miSlot t pkt.slot).req ≠ none ∧ asm t = none) ∧
            ((miSlot s pkt.slot).req ≠ none → Gives (.mctpPacket pkt) s fun t => t.sbd.dropped = satInc d.dropped ∧
              (miSlot t pkt.slot).req = (miSlot s pkt.slot).req))) ∧
        (pkt.pecOk = true → pkt.dest ≠ 0 → pkt.dest ≠ d.eid → Gives (.mctpPacket pkt) s fun t => t = s))) ∧
    (s.pw.aux = true → d.dynValid = true → n < 2 →
      let answers := fun (i : Instr) (P : Bytes → Prop) => Gives i s fun t =>
        ∃ x, (miSlot t n).req = some x ∧ P x ∧ t.host = s.host ∧ (miSlot t n).ibi = false
      let there := c = 0 ∨ (c = 64 ∧ s.rst.dual = true)
      let commands := [Instr.readNvmeMiDataStructure n v c, .nvmSubsystemHealthStatusPoll n, .controllerHealthStatusPoll n c,
        .configurationGet n v, .configurationSet n v len, .vpdRead n off len, .adminTunnel n c (.other op)]
      ((miSlot s n).req ≠ none → ∀ i ∈ commands, Gives i s fun t => t = { s with sbd := { d with dropped := satInc d.dropped } }) ∧
      ((miSlot s n).req = none →
        answers (.readNvmeMiDataStructure n 2 c) (fun x => x = [0] ++ (if s.rst.dual then [2, 0, 0, 0, 64, 0] else [1, 0, 0, 0])) ∧
        (4 < v → answers (.readNvmeMiDataStructure n v c) (fun x => x = [4])) ∧
        (v ≤ 1 → answers (.readNvmeMiDataStructure n v c) (fun x => x.getD 0 9 = 0)) ∧
        answers (.nvmSubsystemHealthStatusPoll n) (fun x => x.length = 9 ∧ x.getD 0 9 = 0 ∧ x.getD 2 0 = s.host.smart ∧
          ((x.getD 1 0).getLsbD 5 = true ↔ fltSumm s ≠ 3)) ∧
        (there → answers (.controllerHealthStatusPoll n c) (fun x => x.take 3 = [0] ++ leBytes 2 c ∧
          leAt x 3 2 = if s.pw.main = true ∧ s.pw.off = false then (cstsReg s c).toNat % 65536 else 0)) ∧
        (¬ there → answers (.controllerHealthStatusPoll n c) (fun x => x = [4])) ∧
        answers (.configurationGet n 3) (fun x => x = [0] ++ leBytes 3 d.mtu) ∧
        answers (.configurationGet n 2) (fun x => x = [0] ++ leBytes 3 d.health) ∧
        (v ≠ 2 → v ≠ 3 → answers (.configurationGet n v) (fun x => x = [4]) ∧ answers (.configurationSet n v len) (fun x => x = [4])) ∧
        (64 ≤ v → v ≤ 256 → v + 5 ≤ d.mwl → v + 5 ≤ d.mrl → answers (.configurationSet n 3 v) (fun x => x = [0]) ∧
          Gives (.configurationSet n 3 v) s fun t => t.sbd.mtu = v) ∧
        (v < 64 ∨ 256 < v ∨ d.mwl < v + 5 ∨ d.mrl < v + 5 → answers (.configurationSet n 3 v) (fun x => x = [4]) ∧
          Gives (.configurationSet n 3 v) s fun t => t.sbd.mtu = d.mtu) ∧
        answers (.vpdRead n off len) (fun x => x = [0] ++ span fru off len) ∧
        answers (.adminTunnel n c (.other op)) (fun x => x = [3]) ∧
        (∀ q ∈ [TunnelCmd.identify v len, .getLogPage v off len, .getFeatures v],
          (c ≠ 0 → answers (.adminTunnel n c q) (fun x => x = [4])) ∧
          (s.pw.main = false ∨ s.pw.off = true → answers (.adminTunnel n 0 q) (fun x => x = [2]))) ∧
        (s.pw.main = true → s.pw.off = false →
          answers (.adminTunnel n 0 (.identify 1 v)) (fun x => x.take 3 = [0, 0, 0] ∧ x.length = 4099 ∧ leAt x 3 2 = 0x1F3C) ∧
          answers (.adminTunnel n 0 (.getLogPage 0xC1 off len)) (fun x => x = [0, 0, 0] ++ span (logC1 s) off len) ∧
          answers (.adminTunnel n 0 (.getLogPage 0xC5 off len)) (fun x => x = [0, 0, 0] ++ span (logC5 s.nv.cal) off len) ∧
          answers (.adminTunnel n 0 (.getFeatures 0xC1))
            (fun x => x = [0, 0, 0] ++ leBytes 4 (BitVec.ofNat 32 (frozenCount s 0)).toNat ++ [0, 0, 0, 0])))) ∧
    (MayFetch s fn 0 →
      let ok : Compl := { fn := fn, sq := 0, cid := cid }
      (¬ IsPf fn → AdminFails (.nvmeMiSend fn cid op b) s fn cid .invalidOpcode 0 ∧
        AdminFails (.nvmeMiReceive fn cid op len) s fn cid .invalidOpcode 0) ∧
      (IsPf fn →
        (leAt b 0 1 = 3 → 64 ≤ leAt b 2 2 → leAt b 2 2 ≤ 256 → leAt b 2 2 + 5 ≤ d.mwl → leAt b 2 2 + 5 ≤ d.mrl →
          Acts (.nvmeMiSend fn cid 3 b) s ok (fun t => { t with sbd := s.sbd }) fun t => t.sbd = { d with mtu := leAt b 2 2 }) ∧
        (op ≠ 3 → Ends (.nvmeMiSend fn cid op b) s { ok with dw0 := 3 } id fun _ => True) ∧
        (op = 3 ∨ 5 < op → Ends (.nvmeMiReceive fn cid op len) s { ok with dw0 := 3 } id fun _ => True) ∧
        Ends (.nvmeMiReceive fn cid 5 len) s { ok with data := span fru 0 len } id fun _ => True)) ∧
    (PageOpen s ini (frameOf 0x11 0 0) → Gives (.sbdStatRead ini) s fun t => t.sbd = { d with dropped := 0 } ∧ let x := t.out.reg
      x.toNat / 2 ^ 24 = d.eid.toNat ∧ x.toNat / 65536 % 256 = d.dropped.toNat ∧ x.getLsbD 15 = d.fallback ∧ x.getLsbD 14 = d.dynValid ∧
      x.toNat / 128 % 128 = d.dynAddr.toNat ∧ x.getLsbD 6 = d.ibiEn ∧ x.getLsbD 5 = d.protoErr ∧ x.toNat % 8 = d.slot.toNat)

/-! ## The words of the Adral-2 -/

/-- Decoding a word gives back the command that was encoded (from R125-R134, R140, R146, R156, each in part), for every command that is a word of a core,
with every operand at every value that its field admits. The model's own beside the table of operations, which gives its rows no
bits (assumption 11). -/
def Obligations.EncodingRoundTrip : Prop :=
  ∀ (i : Instr) (e : Nat × W36), encode i = some e → decodeWord e.1 e.2 = some i

/-- Words written out by the encodings of chapter "The Adral-2 instruction set". -/
def Obligations.SpecWords : Prop :=
  decodeWord 0 0o500404562220#36 = some (.pairedWord 0 false 0x10209 0x0e490) ∧
  decodeWord 0 0o475023640777#36 = some (.pairedWord 0 false 0x0f427 0x141ff) ∧
  decodeWord 0 0o200404140000#36 = some (.customInstruction 0 0 8 4 6 0)

/-! ## Reset and the whole machine -/

/-- Reset values that the register tables give (from R33, R47, R75, R83, R88, R366, R386, R418, each in part): no queue, job or command exists, polder 0
alone is ACTIVE, the registers with a value other than 0 hold it, and the two memories are in their form. -/
def Obligations.ResetValues : Prop :=
  let s := State.reset
  s.pending = [] ∧ s.host.sqs = [] ∧ s.host.cqs = [] ∧ s.host.cmds = [] ∧ s.jobs = [] ∧ s.rst.ready = false ∧ s.rst.step = 0 ∧
  (∀ p, p < 64 → (polder s p).st = (if p = 0 then .active else .empty) ∧ (polder s p).weight = (if p = 0 then 16 else 0) ∧
    (polder s p).lend = true ∧ (acct s p).weight = 16 ∧ (acct s p).cap = 0 ∧ (acct s p).bal = 0) ∧
  s.pol.aen = true ∧ s.bpm.age = 10000 ∧ s.nrg.svcPct = 50 ∧ s.drc.hours = 24 ∧ s.drc.scrubEn = true ∧
  (∀ ch, ch < 32 → (flc s ch).guard = 500 ∧ (flc s ch).retries = 4 ∧ (flc s ch).autoSusp = true ∧ (flc s ch).enable = false ∧
    (flc s ch).interval = 15 ∧ (flc s ch).drift = 8 ∧ ∀ q, q < 4 → dqBase (flc s ch) q = (BitVec.ofNat 8 (64 * q), 64)) ∧
  s.ftla.stagger = true ∧ s.ftla.spread = 400 ∧ s.ftla.cache = 3611761 ∧ s.host.raEn = true ∧ s.host.raThreshold = 300 ∧
  s.rst.wdtMs = 100 ∧ s.sbd.fallback = true ∧ s.sbd.ibiEn = true ∧ s.host.ps = 0 ∧ s.sbd.dynValid = false ∧
  Memory.wf s.dram = true ∧ Memory.wf s.bpm.sram = true

/-- No step breaks the canonical form of the two memories: the addresses of the listed bytes rise strictly, and no listed byte is the 0
that an unlisted address reads as (assumption 8). -/
def Obligations.MemoriesKeepTheirForm : Prop :=
  ∀ (s t : State), Memory.wf s.dram = true → Memory.wf s.bpm.sram = true → step s = .next t →
    Memory.wf t.dram = true ∧ Memory.wf t.bpm.sram = true
end

