-- ==== Sys2Proof/Laws/State.lean ====
section
/-! SUPPORT. One lemma per field of the state per update of Ops.lean, each true by definition, so that no proof unfolds a
record update. -/

namespace Sys2Proof.Machine

open Sys2Proof

variable (s : State)

@[simp] theorem setCore_now (c : Nat) (k : Core) : (setCore s c k).now = s.now := rfl
@[simp] theorem setCore_freeCtr (c : Nat) (k : Core) : (setCore s c k).freeCtr = s.freeCtr := rfl
@[simp] theorem setCore_pending (c : Nat) (k : Core) : (setCore s c k).pending = s.pending := rfl
@[simp] theorem setCore_fuse (c : Nat) (k : Core) : (setCore s c k).fuse = s.fuse := rfl
@[simp] theorem setCore_nv (c : Nat) (k : Core) : (setCore s c k).nv = s.nv := rfl
@[simp] theorem setCore_pw (c : Nat) (k : Core) : (setCore s c k).pw = s.pw := rfl
@[simp] theorem setCore_rst (c : Nat) (k : Core) : (setCore s c k).rst = s.rst := rfl
@[simp] theorem setCore_host (c : Nat) (k : Core) : (setCore s c k).host = s.host := rfl
@[simp] theorem setCore_pol (c : Nat) (k : Core) : (setCore s c k).pol = s.pol := rfl
@[simp] theorem setCore_progs (c : Nat) (k : Core) : (setCore s c k).progs = s.progs := rfl
@[simp] theorem setCore_rsets (c : Nat) (k : Core) : (setCore s c k).rsets = s.rsets := rfl
@[simp] theorem setCore_jobs (c : Nat) (k : Core) : (setCore s c k).jobs = s.jobs := rfl
@[simp] theorem setCore_nextJob (c : Nat) (k : Core) : (setCore s c k).nextJob = s.nextJob := rfl
@[simp] theorem setCore_void (c : Nat) (k : Core) : (setCore s c k).void = s.void := rfl
@[simp] theorem setCore_cores (c : Nat) (k : Core) : (setCore s c k).cores = tset s.cores {} c k := rfl
@[simp] theorem setCore_bpm (c : Nat) (k : Core) : (setCore s c k).bpm = s.bpm := rfl
@[simp] theorem setCore_isl (c : Nat) (k : Core) : (setCore s c k).isl = s.isl := rfl
@[simp] theorem setCore_cmpr (c : Nat) (k : Core) : (setCore s c k).cmpr = s.cmpr := rfl
@[simp] theorem setCore_srch (c : Nat) (k : Core) : (setCore s c k).srch = s.srch := rfl
@[simp] theorem setCore_flcs (c : Nat) (k : Core) : (setCore s c k).flcs = s.flcs := rfl
@[simp] theorem setCore_ftla (c : Nat) (k : Core) : (setCore s c k).ftla = s.ftla := rfl
@[simp] theorem setCore_dram (c : Nat) (k : Core) : (setCore s c k).dram = s.dram := rfl
@[simp] theorem setCore_drc (c : Nat) (k : Core) : (setCore s c k).drc = s.drc := rfl
@[simp] theorem setCore_memi (c : Nat) (k : Core) : (setCore s c k).memi = s.memi := rfl
@[simp] theorem setCore_nrg (c : Nat) (k : Core) : (setCore s c k).nrg = s.nrg := rfl
@[simp] theorem setCore_time (c : Nat) (k : Core) : (setCore s c k).time = s.time := rfl
@[simp] theorem setCore_flt (c : Nat) (k : Core) : (setCore s c k).flt = s.flt := rfl
@[simp] theorem setCore_sbd (c : Nat) (k : Core) : (setCore s c k).sbd = s.sbd := rfl
@[simp] theorem setCore_hdrs (c : Nat) (k : Core) : (setCore s c k).hdrs = s.hdrs := rfl
@[simp] theorem setCore_pmon (c : Nat) (k : Core) : (setCore s c k).pmon = s.pmon := rfl
@[simp] theorem setCore_clkLock (c : Nat) (k : Core) : (setCore s c k).clkLock = s.clkLock := rfl
@[simp] theorem setCore_clkLoss (c : Nat) (k : Core) : (setCore s c k).clkLoss = s.clkLoss := rfl
@[simp] theorem setCore_out (c : Nat) (k : Core) : (setCore s c k).out = s.out := rfl

@[simp] theorem modCore_now (c : Nat) (f : Core → Core) : (modCore s c f).now = s.now := rfl
@[simp] theorem modCore_freeCtr (c : Nat) (f : Core → Core) : (modCore s c f).freeCtr = s.freeCtr := rfl
@[simp] theorem modCore_pending (c : Nat) (f : Core → Core) : (modCore s c f).pending = s.pending := rfl
@[simp] theorem modCore_fuse (c : Nat) (f : Core → Core) : (modCore s c f).fuse = s.fuse := rfl
@[simp] theorem modCore_nv (c : Nat) (f : Core → Core) : (modCore s c f).nv = s.nv := rfl
@[simp] theorem modCore_pw (c : Nat) (f : Core → Core) : (modCore s c f).pw = s.pw := rfl
@[simp] theorem modCore_rst (c : Nat) (f : Core → Core) : (modCore s c f).rst = s.rst := rfl
@[simp] theorem modCore_host (c : Nat) (f : Core → Core) : (modCore s c f).host = s.host := rfl
@[simp] theorem modCore_pol (c : Nat) (f : Core → Core) : (modCore s c f).pol = s.pol := rfl
@[simp] theorem modCore_progs (c : Nat) (f : Core → Core) : (modCore s c f).progs = s.progs := rfl
@[simp] theorem modCore_rsets (c : Nat) (f : Core → Core) : (modCore s c f).rsets = s.rsets := rfl
@[simp] theorem modCore_jobs (c : Nat) (f : Core → Core) : (modCore s c f).jobs = s.jobs := rfl
@[simp] theorem modCore_nextJob (c : Nat) (f : Core → Core) : (modCore s c f).nextJob = s.nextJob := rfl
@[simp] theorem modCore_void (c : Nat) (f : Core → Core) : (modCore s c f).void = s.void := rfl
@[simp] theorem modCore_cores (c : Nat) (f : Core → Core) : (modCore s c f).cores = tset s.cores {} c (f (core s c)) := rfl
@[simp] theorem modCore_bpm (c : Nat) (f : Core → Core) : (modCore s c f).bpm = s.bpm := rfl
@[simp] theorem modCore_isl (c : Nat) (f : Core → Core) : (modCore s c f).isl = s.isl := rfl
@[simp] theorem modCore_cmpr (c : Nat) (f : Core → Core) : (modCore s c f).cmpr = s.cmpr := rfl
@[simp] theorem modCore_srch (c : Nat) (f : Core → Core) : (modCore s c f).srch = s.srch := rfl
@[simp] theorem modCore_flcs (c : Nat) (f : Core → Core) : (modCore s c f).flcs = s.flcs := rfl
@[simp] theorem modCore_ftla (c : Nat) (f : Core → Core) : (modCore s c f).ftla = s.ftla := rfl
@[simp] theorem modCore_dram (c : Nat) (f : Core → Core) : (modCore s c f).dram = s.dram := rfl
@[simp] theorem modCore_drc (c : Nat) (f : Core → Core) : (modCore s c f).drc = s.drc := rfl
@[simp] theorem modCore_memi (c : Nat) (f : Core → Core) : (modCore s c f).memi = s.memi := rfl
@[simp] theorem modCore_nrg (c : Nat) (f : Core → Core) : (modCore s c f).nrg = s.nrg := rfl
@[simp] theorem modCore_time (c : Nat) (f : Core → Core) : (modCore s c f).time = s.time := rfl
@[simp] theorem modCore_flt (c : Nat) (f : Core → Core) : (modCore s c f).flt = s.flt := rfl
@[simp] theorem modCore_sbd (c : Nat) (f : Core → Core) : (modCore s c f).sbd = s.sbd := rfl
@[simp] theorem modCore_hdrs (c : Nat) (f : Core → Core) : (modCore s c f).hdrs = s.hdrs := rfl
@[simp] theorem modCore_pmon (c : Nat) (f : Core → Core) : (modCore s c f).pmon = s.pmon := rfl
@[simp] theorem modCore_clkLock (c : Nat) (f : Core → Core) : (modCore s c f).clkLock = s.clkLock := rfl
@[simp] theorem modCore_clkLoss (c : Nat) (f : Core → Core) : (modCore s c f).clkLoss = s.clkLoss := rfl
@[simp] theorem modCore_out (c : Nat) (f : Core → Core) : (modCore s c f).out = s.out := rfl

@[simp] theorem modPolder_now (p : Nat) (f : Polder → Polder) : (modPolder s p f).now = s.now := rfl
@[simp] theorem modPolder_freeCtr (p : Nat) (f : Polder → Polder) : (modPolder s p f).freeCtr = s.freeCtr := rfl
@[simp] theorem modPolder_pending (p : Nat) (f : Polder → Polder) : (modPolder s p f).pending = s.pending := rfl
@[simp] theorem modPolder_fuse (p : Nat) (f : Polder → Polder) : (modPolder s p f).fuse = s.fuse := rfl
@[simp] theorem modPolder_nv (p : Nat) (f : Polder → Polder) : (modPolder s p f).nv = s.nv := rfl
@[simp] theorem modPolder_pw (p : Nat) (f : Polder → Polder) : (modPolder s p f).pw = s.pw := rfl
@[simp] theorem modPolder_rst (p : Nat) (f : Polder → Polder) : (modPolder s p f).rst = s.rst := rfl
@[simp] theorem modPolder_host (p : Nat) (f : Polder → Polder) : (modPolder s p f).host = s.host := rfl
@[simp] theorem modPolder_pol (p : Nat) (f : Polder → Polder) : (modPolder s p f).pol = { s.pol with tab := tmod s.pol.tab {} p f } := rfl
@[simp] theorem modPolder_progs (p : Nat) (f : Polder → Polder) : (modPolder s p f).progs = s.progs := rfl
@[simp] theorem modPolder_rsets (p : Nat) (f : Polder → Polder) : (modPolder s p f).rsets = s.rsets := rfl
@[simp] theorem modPolder_jobs (p : Nat) (f : Polder → Polder) : (modPolder s p f).jobs = s.jobs := rfl
@[simp] theorem modPolder_nextJob (p : Nat) (f : Polder → Polder) : (modPolder s p f).nextJob = s.nextJob := rfl
@[simp] theorem modPolder_void (p : Nat) (f : Polder → Polder) : (modPolder s p f).void = s.void := rfl
@[simp] theorem modPolder_cores (p : Nat) (f : Polder → Polder) : (modPolder s p f).cores = s.cores := rfl
@[simp] theorem modPolder_bpm (p : Nat) (f : Polder → Polder) : (modPolder s p f).bpm = s.bpm := rfl
@[simp] theorem modPolder_isl (p : Nat) (f : Polder → Polder) : (modPolder s p f).isl = s.isl := rfl
@[simp] theorem modPolder_cmpr (p : Nat) (f : Polder → Polder) : (modPolder s p f).cmpr = s.cmpr := rfl
@[simp] theorem modPolder_srch (p : Nat) (f : Polder → Polder) : (modPolder s p f).srch = s.srch := rfl
@[simp] theorem modPolder_flcs (p : Nat) (f : Polder → Polder) : (modPolder s p f).flcs = s.flcs := rfl
@[simp] theorem modPolder_ftla (p : Nat) (f : Polder → Polder) : (modPolder s p f).ftla = s.ftla := rfl
@[simp] theorem modPolder_dram (p : Nat) (f : Polder → Polder) : (modPolder s p f).dram = s.dram := rfl
@[simp] theorem modPolder_drc (p : Nat) (f : Polder → Polder) : (modPolder s p f).drc = s.drc := rfl
@[simp] theorem modPolder_memi (p : Nat) (f : Polder → Polder) : (modPolder s p f).memi = s.memi := rfl
@[simp] theorem modPolder_nrg (p : Nat) (f : Polder → Polder) : (modPolder s p f).nrg = s.nrg := rfl
@[simp] theorem modPolder_time (p : Nat) (f : Polder → Polder) : (modPolder s p f).time = s.time := rfl
@[simp] theorem modPolder_flt (p : Nat) (f : Polder → Polder) : (modPolder s p f).flt = s.flt := rfl
@[simp] theorem modPolder_sbd (p : Nat) (f : Polder → Polder) : (modPolder s p f).sbd = s.sbd := rfl
@[simp] theorem modPolder_hdrs (p : Nat) (f : Polder → Polder) : (modPolder s p f).hdrs = s.hdrs := rfl
@[simp] theorem modPolder_pmon (p : Nat) (f : Polder → Polder) : (modPolder s p f).pmon = s.pmon := rfl
@[simp] theorem modPolder_clkLock (p : Nat) (f : Polder → Polder) : (modPolder s p f).clkLock = s.clkLock := rfl
@[simp] theorem modPolder_clkLoss (p : Nat) (f : Polder → Polder) : (modPolder s p f).clkLoss = s.clkLoss := rfl
@[simp] theorem modPolder_out (p : Nat) (f : Polder → Polder) : (modPolder s p f).out = s.out := rfl

@[simp] theorem modCtrl_now (n : Nat) (f : Ctrl → Ctrl) : (modCtrl s n f).now = s.now := rfl
@[simp] theorem modCtrl_freeCtr (n : Nat) (f : Ctrl → Ctrl) : (modCtrl s n f).freeCtr = s.freeCtr := rfl
@[simp] theorem modCtrl_pending (n : Nat) (f : Ctrl → Ctrl) : (modCtrl s n f).pending = s.pending := rfl
@[simp] theorem modCtrl_fuse (n : Nat) (f : Ctrl → Ctrl) : (modCtrl s n f).fuse = s.fuse := rfl
@[simp] theorem modCtrl_nv (n : Nat) (f : Ctrl → Ctrl) : (modCtrl s n f).nv = s.nv := rfl
@[simp] theorem modCtrl_pw (n : Nat) (f : Ctrl → Ctrl) : (modCtrl s n f).pw = s.pw := rfl
@[simp] theorem modCtrl_rst (n : Nat) (f : Ctrl → Ctrl) : (modCtrl s n f).rst = s.rst := rfl
@[simp] theorem modCtrl_host (n : Nat) (f : Ctrl → Ctrl) : (modCtrl s n f).host = { s.host with ctrls := tmod s.host.ctrls {} n f } := rfl
@[simp] theorem modCtrl_pol (n : Nat) (f : Ctrl → Ctrl) : (modCtrl s n f).pol = s.pol := rfl
@[simp] theorem modCtrl_progs (n : Nat) (f : Ctrl → Ctrl) : (modCtrl s n f).progs = s.progs := rfl
@[simp] theorem modCtrl_rsets (n : Nat) (f : Ctrl → Ctrl) : (modCtrl s n f).rsets = s.rsets := rfl
@[simp] theorem modCtrl_jobs (n : Nat) (f : Ctrl → Ctrl) : (modCtrl s n f).jobs = s.jobs := rfl
@[simp] theorem modCtrl_nextJob (n : Nat) (f : Ctrl → Ctrl) : (modCtrl s n f).nextJob = s.nextJob := rfl
@[simp] theorem modCtrl_void (n : Nat) (f : Ctrl → Ctrl) : (modCtrl s n f).void = s.void := rfl
@[simp] theorem modCtrl_cores (n : Nat) (f : Ctrl → Ctrl) : (modCtrl s n f).cores = s.cores := rfl
@[simp] theorem modCtrl_bpm (n : Nat) (f : Ctrl → Ctrl) : (modCtrl s n f).bpm = s.bpm := rfl
@[simp] theorem modCtrl_isl (n : Nat) (f : Ctrl → Ctrl) : (modCtrl s n f).isl = s.isl := rfl
@[simp] theorem modCtrl_cmpr (n : Nat) (f : Ctrl → Ctrl) : (modCtrl s n f).cmpr = s.cmpr := rfl
@[simp] theorem modCtrl_srch (n : Nat) (f : Ctrl → Ctrl) : (modCtrl s n f).srch = s.srch := rfl
@[simp] theorem modCtrl_flcs (n : Nat) (f : Ctrl → Ctrl) : (modCtrl s n f).flcs = s.flcs := rfl
@[simp] theorem modCtrl_ftla (n : Nat) (f : Ctrl → Ctrl) : (modCtrl s n f).ftla = s.ftla := rfl
@[simp] theorem modCtrl_dram (n : Nat) (f : Ctrl → Ctrl) : (modCtrl s n f).dram = s.dram := rfl
@[simp] theorem modCtrl_drc (n : Nat) (f : Ctrl → Ctrl) : (modCtrl s n f).drc = s.drc := rfl
@[simp] theorem modCtrl_memi (n : Nat) (f : Ctrl → Ctrl) : (modCtrl s n f).memi = s.memi := rfl
@[simp] theorem modCtrl_nrg (n : Nat) (f : Ctrl → Ctrl) : (modCtrl s n f).nrg = s.nrg := rfl
@[simp] theorem modCtrl_time (n : Nat) (f : Ctrl → Ctrl) : (modCtrl s n f).time = s.time := rfl
@[simp] theorem modCtrl_flt (n : Nat) (f : Ctrl → Ctrl) : (modCtrl s n f).flt = s.flt := rfl
@[simp] theorem modCtrl_sbd (n : Nat) (f : Ctrl → Ctrl) : (modCtrl s n f).sbd = s.sbd := rfl
@[simp] theorem modCtrl_hdrs (n : Nat) (f : Ctrl → Ctrl) : (modCtrl s n f).hdrs = s.hdrs := rfl
@[simp] theorem modCtrl_pmon (n : Nat) (f : Ctrl → Ctrl) : (modCtrl s n f).pmon = s.pmon := rfl
@[simp] theorem modCtrl_clkLock (n : Nat) (f : Ctrl → Ctrl) : (modCtrl s n f).clkLock = s.clkLock := rfl
@[simp] theorem modCtrl_clkLoss (n : Nat) (f : Ctrl → Ctrl) : (modCtrl s n f).clkLoss = s.clkLoss := rfl
@[simp] theorem modCtrl_out (n : Nat) (f : Ctrl → Ctrl) : (modCtrl s n f).out = s.out := rfl

@[simp] theorem setSq_now (n q : Nat) (v : Option Sq) : (setSq s n q v).now = s.now := rfl
@[simp] theorem setSq_freeCtr (n q : Nat) (v : Option Sq) : (setSq s n q v).freeCtr = s.freeCtr := rfl
@[simp] theorem setSq_pending (n q : Nat) (v : Option Sq) : (setSq s n q v).pending = s.pending := rfl
@[simp] theorem setSq_fuse (n q : Nat) (v : Option Sq) : (setSq s n q v).fuse = s.fuse := rfl
@[simp] theorem setSq_nv (n q : Nat) (v : Option Sq) : (setSq s n q v).nv = s.nv := rfl
@[simp] theorem setSq_pw (n q : Nat) (v : Option Sq) : (setSq s n q v).pw = s.pw := rfl
@[simp] theorem setSq_rst (n q : Nat) (v : Option Sq) : (setSq s n q v).rst = s.rst := rfl
@[simp] theorem setSq_host (n q : Nat) (v : Option Sq) : (setSq s n q v).host = { s.host with sqs := tset s.host.sqs none (qkey n q) v } := rfl
@[simp] theorem setSq_pol (n q : Nat) (v : Option Sq) : (setSq s n q v).pol = s.pol := rfl
@[simp] theorem setSq_progs (n q : Nat) (v : Option Sq) : (setSq s n q v).progs = s.progs := rfl
@[simp] theorem setSq_rsets (n q : Nat) (v : Option Sq) : (setSq s n q v).rsets = s.rsets := rfl
@[simp] theorem setSq_jobs (n q : Nat) (v : Option Sq) : (setSq s n q v).jobs = s.jobs := rfl
@[simp] theorem setSq_nextJob (n q : Nat) (v : Option Sq) : (setSq s n q v).nextJob = s.nextJob := rfl
@[simp] theorem setSq_void (n q : Nat) (v : Option Sq) : (setSq s n q v).void = s.void := rfl
@[simp] theorem setSq_cores (n q : Nat) (v : Option Sq) : (setSq s n q v).cores = s.cores := rfl
@[simp] theorem setSq_bpm (n q : Nat) (v : Option Sq) : (setSq s n q v).bpm = s.bpm := rfl
@[simp] theorem setSq_isl (n q : Nat) (v : Option Sq) : (setSq s n q v).isl = s.isl := rfl
@[simp] theorem setSq_cmpr (n q : Nat) (v : Option Sq) : (setSq s n q v).cmpr = s.cmpr := rfl
@[simp] theorem setSq_srch (n q : Nat) (v : Option Sq) : (setSq s n q v).srch = s.srch := rfl
@[simp] theorem setSq_flcs (n q : Nat) (v : Option Sq) : (setSq s n q v).flcs = s.flcs := rfl
@[simp] theorem setSq_ftla (n q : Nat) (v : Option Sq) : (setSq s n q v).ftla = s.ftla := rfl
@[simp] theorem setSq_dram (n q : Nat) (v : Option Sq) : (setSq s n q v).dram = s.dram := rfl
@[simp] theorem setSq_drc (n q : Nat) (v : Option Sq) : (setSq s n q v).drc = s.drc := rfl
@[simp] theorem setSq_memi (n q : Nat) (v : Option Sq) : (setSq s n q v).memi = s.memi := rfl
@[simp] theorem setSq_nrg (n q : Nat) (v : Option Sq) : (setSq s n q v).nrg = s.nrg := rfl
@[simp] theorem setSq_time (n q : Nat) (v : Option Sq) : (setSq s n q v).time = s.time := rfl
@[simp] theorem setSq_flt (n q : Nat) (v : Option Sq) : (setSq s n q v).flt = s.flt := rfl
@[simp] theorem setSq_sbd (n q : Nat) (v : Option Sq) : (setSq s n q v).sbd = s.sbd := rfl
@[simp] theorem setSq_hdrs (n q : Nat) (v : Option Sq) : (setSq s n q v).hdrs = s.hdrs := rfl
@[simp] theorem setSq_pmon (n q : Nat) (v : Option Sq) : (setSq s n q v).pmon = s.pmon := rfl
@[simp] theorem setSq_clkLock (n q : Nat) (v : Option Sq) : (setSq s n q v).clkLock = s.clkLock := rfl
@[simp] theorem setSq_clkLoss (n q : Nat) (v : Option Sq) : (setSq s n q v).clkLoss = s.clkLoss := rfl
@[simp] theorem setSq_out (n q : Nat) (v : Option Sq) : (setSq s n q v).out = s.out := rfl

@[simp] theorem setCq_now (n q : Nat) (v : Option Cq) : (setCq s n q v).now = s.now := rfl
@[simp] theorem setCq_freeCtr (n q : Nat) (v : Option Cq) : (setCq s n q v).freeCtr = s.freeCtr := rfl
@[simp] theorem setCq_pending (n q : Nat) (v : Option Cq) : (setCq s n q v).pending = s.pending := rfl
@[simp] theorem setCq_fuse (n q : Nat) (v : Option Cq) : (setCq s n q v).fuse = s.fuse := rfl
@[simp] theorem setCq_nv (n q : Nat) (v : Option Cq) : (setCq s n q v).nv = s.nv := rfl
@[simp] theorem setCq_pw (n q : Nat) (v : Option Cq) : (setCq s n q v).pw = s.pw := rfl
@[simp] theorem setCq_rst (n q : Nat) (v : Option Cq) : (setCq s n q v).rst = s.rst := rfl
@[simp] theorem setCq_host (n q : Nat) (v : Option Cq) : (setCq s n q v).host = { s.host with cqs := tset s.host.cqs none (qkey n q) v } := rfl
@[simp] theorem setCq_pol (n q : Nat) (v : Option Cq) : (setCq s n q v).pol = s.pol := rfl
@[simp] theorem setCq_progs (n q : Nat) (v : Option Cq) : (setCq s n q v).progs = s.progs := rfl
@[simp] theorem setCq_rsets (n q : Nat) (v : Option Cq) : (setCq s n q v).rsets = s.rsets := rfl
@[simp] theorem setCq_jobs (n q : Nat) (v : Option Cq) : (setCq s n q v).jobs = s.jobs := rfl
@[simp] theorem setCq_nextJob (n q : Nat) (v : Option Cq) : (setCq s n q v).nextJob = s.nextJob := rfl
@[simp] theorem setCq_void (n q : Nat) (v : Option Cq) : (setCq s n q v).void = s.void := rfl
@[simp] theorem setCq_cores (n q : Nat) (v : Option Cq) : (setCq s n q v).cores = s.cores := rfl
@[simp] theorem setCq_bpm (n q : Nat) (v : Option Cq) : (setCq s n q v).bpm = s.bpm := rfl
@[simp] theorem setCq_isl (n q : Nat) (v : Option Cq) : (setCq s n q v).isl = s.isl := rfl
@[simp] theorem setCq_cmpr (n q : Nat) (v : Option Cq) : (setCq s n q v).cmpr = s.cmpr := rfl
@[simp] theorem setCq_srch (n q : Nat) (v : Option Cq) : (setCq s n q v).srch = s.srch := rfl
@[simp] theorem setCq_flcs (n q : Nat) (v : Option Cq) : (setCq s n q v).flcs = s.flcs := rfl
@[simp] theorem setCq_ftla (n q : Nat) (v : Option Cq) : (setCq s n q v).ftla = s.ftla := rfl
@[simp] theorem setCq_dram (n q : Nat) (v : Option Cq) : (setCq s n q v).dram = s.dram := rfl
@[simp] theorem setCq_drc (n q : Nat) (v : Option Cq) : (setCq s n q v).drc = s.drc := rfl
@[simp] theorem setCq_memi (n q : Nat) (v : Option Cq) : (setCq s n q v).memi = s.memi := rfl
@[simp] theorem setCq_nrg (n q : Nat) (v : Option Cq) : (setCq s n q v).nrg = s.nrg := rfl
@[simp] theorem setCq_time (n q : Nat) (v : Option Cq) : (setCq s n q v).time = s.time := rfl
@[simp] theorem setCq_flt (n q : Nat) (v : Option Cq) : (setCq s n q v).flt = s.flt := rfl
@[simp] theorem setCq_sbd (n q : Nat) (v : Option Cq) : (setCq s n q v).sbd = s.sbd := rfl
@[simp] theorem setCq_hdrs (n q : Nat) (v : Option Cq) : (setCq s n q v).hdrs = s.hdrs := rfl
@[simp] theorem setCq_pmon (n q : Nat) (v : Option Cq) : (setCq s n q v).pmon = s.pmon := rfl
@[simp] theorem setCq_clkLock (n q : Nat) (v : Option Cq) : (setCq s n q v).clkLock = s.clkLock := rfl
@[simp] theorem setCq_clkLoss (n q : Nat) (v : Option Cq) : (setCq s n q v).clkLoss = s.clkLoss := rfl
@[simp] theorem setCq_out (n q : Nat) (v : Option Cq) : (setCq s n q v).out = s.out := rfl

@[simp] theorem setRing_now (r : Nat) (g : Ring) : (setRing s r g).now = s.now := rfl
@[simp] theorem setRing_freeCtr (r : Nat) (g : Ring) : (setRing s r g).freeCtr = s.freeCtr := rfl
@[simp] theorem setRing_pending (r : Nat) (g : Ring) : (setRing s r g).pending = s.pending := rfl
@[simp] theorem setRing_fuse (r : Nat) (g : Ring) : (setRing s r g).fuse = s.fuse := rfl
@[simp] theorem setRing_nv (r : Nat) (g : Ring) : (setRing s r g).nv = s.nv := rfl
@[simp] theorem setRing_pw (r : Nat) (g : Ring) : (setRing s r g).pw = s.pw := rfl
@[simp] theorem setRing_rst (r : Nat) (g : Ring) : (setRing s r g).rst = s.rst := rfl
@[simp] theorem setRing_host (r : Nat) (g : Ring) : (setRing s r g).host = s.host := rfl
@[simp] theorem setRing_pol (r : Nat) (g : Ring) : (setRing s r g).pol = s.pol := rfl
@[simp] theorem setRing_progs (r : Nat) (g : Ring) : (setRing s r g).progs = s.progs := rfl
@[simp] theorem setRing_rsets (r : Nat) (g : Ring) : (setRing s r g).rsets = s.rsets := rfl
@[simp] theorem setRing_jobs (r : Nat) (g : Ring) : (setRing s r g).jobs = s.jobs := rfl
@[simp] theorem setRing_nextJob (r : Nat) (g : Ring) : (setRing s r g).nextJob = s.nextJob := rfl
@[simp] theorem setRing_void (r : Nat) (g : Ring) : (setRing s r g).void = s.void := rfl
@[simp] theorem setRing_cores (r : Nat) (g : Ring) : (setRing s r g).cores = s.cores := rfl
@[simp] theorem setRing_bpm (r : Nat) (g : Ring) : (setRing s r g).bpm = { s.bpm with rings := tset s.bpm.rings {} r g } := rfl
@[simp] theorem setRing_isl (r : Nat) (g : Ring) : (setRing s r g).isl = s.isl := rfl
@[simp] theorem setRing_cmpr (r : Nat) (g : Ring) : (setRing s r g).cmpr = s.cmpr := rfl
@[simp] theorem setRing_srch (r : Nat) (g : Ring) : (setRing s r g).srch = s.srch := rfl
@[simp] theorem setRing_flcs (r : Nat) (g : Ring) : (setRing s r g).flcs = s.flcs := rfl
@[simp] theorem setRing_ftla (r : Nat) (g : Ring) : (setRing s r g).ftla = s.ftla := rfl
@[simp] theorem setRing_dram (r : Nat) (g : Ring) : (setRing s r g).dram = s.dram := rfl
@[simp] theorem setRing_drc (r : Nat) (g : Ring) : (setRing s r g).drc = s.drc := rfl
@[simp] theorem setRing_memi (r : Nat) (g : Ring) : (setRing s r g).memi = s.memi := rfl
@[simp] theorem setRing_nrg (r : Nat) (g : Ring) : (setRing s r g).nrg = s.nrg := rfl
@[simp] theorem setRing_time (r : Nat) (g : Ring) : (setRing s r g).time = s.time := rfl
@[simp] theorem setRing_flt (r : Nat) (g : Ring) : (setRing s r g).flt = s.flt := rfl
@[simp] theorem setRing_sbd (r : Nat) (g : Ring) : (setRing s r g).sbd = s.sbd := rfl
@[simp] theorem setRing_hdrs (r : Nat) (g : Ring) : (setRing s r g).hdrs = s.hdrs := rfl
@[simp] theorem setRing_pmon (r : Nat) (g : Ring) : (setRing s r g).pmon = s.pmon := rfl
@[simp] theorem setRing_clkLock (r : Nat) (g : Ring) : (setRing s r g).clkLock = s.clkLock := rfl
@[simp] theorem setRing_clkLoss (r : Nat) (g : Ring) : (setRing s r g).clkLoss = s.clkLoss := rfl
@[simp] theorem setRing_out (r : Nat) (g : Ring) : (setRing s r g).out = s.out := rfl

@[simp] theorem modRing_now (r : Nat) (f : Ring → Ring) : (modRing s r f).now = s.now := rfl
@[simp] theorem modRing_freeCtr (r : Nat) (f : Ring → Ring) : (modRing s r f).freeCtr = s.freeCtr := rfl
@[simp] theorem modRing_pending (r : Nat) (f : Ring → Ring) : (modRing s r f).pending = s.pending := rfl
@[simp] theorem modRing_fuse (r : Nat) (f : Ring → Ring) : (modRing s r f).fuse = s.fuse := rfl
@[simp] theorem modRing_nv (r : Nat) (f : Ring → Ring) : (modRing s r f).nv = s.nv := rfl
@[simp] theorem modRing_pw (r : Nat) (f : Ring → Ring) : (modRing s r f).pw = s.pw := rfl
@[simp] theorem modRing_rst (r : Nat) (f : Ring → Ring) : (modRing s r f).rst = s.rst := rfl
@[simp] theorem modRing_host (r : Nat) (f : Ring → Ring) : (modRing s r f).host = s.host := rfl
@[simp] theorem modRing_pol (r : Nat) (f : Ring → Ring) : (modRing s r f).pol = s.pol := rfl
@[simp] theorem modRing_progs (r : Nat) (f : Ring → Ring) : (modRing s r f).progs = s.progs := rfl
@[simp] theorem modRing_rsets (r : Nat) (f : Ring → Ring) : (modRing s r f).rsets = s.rsets := rfl
@[simp] theorem modRing_jobs (r : Nat) (f : Ring → Ring) : (modRing s r f).jobs = s.jobs := rfl
@[simp] theorem modRing_nextJob (r : Nat) (f : Ring → Ring) : (modRing s r f).nextJob = s.nextJob := rfl
@[simp] theorem modRing_void (r : Nat) (f : Ring → Ring) : (modRing s r f).void = s.void := rfl
@[simp] theorem modRing_cores (r : Nat) (f : Ring → Ring) : (modRing s r f).cores = s.cores := rfl
@[simp] theorem modRing_bpm (r : Nat) (f : Ring → Ring) : (modRing s r f).bpm = { s.bpm with rings := tset s.bpm.rings {} r (f (ring s r)) } := rfl
@[simp] theorem modRing_isl (r : Nat) (f : Ring → Ring) : (modRing s r f).isl = s.isl := rfl
@[simp] theorem modRing_cmpr (r : Nat) (f : Ring → Ring) : (modRing s r f).cmpr = s.cmpr := rfl
@[simp] theorem modRing_srch (r : Nat) (f : Ring → Ring) : (modRing s r f).srch = s.srch := rfl
@[simp] theorem modRing_flcs (r : Nat) (f : Ring → Ring) : (modRing s r f).flcs = s.flcs := rfl
@[simp] theorem modRing_ftla (r : Nat) (f : Ring → Ring) : (modRing s r f).ftla = s.ftla := rfl
@[simp] theorem modRing_dram (r : Nat) (f : Ring → Ring) : (modRing s r f).dram = s.dram := rfl
@[simp] theorem modRing_drc (r : Nat) (f : Ring → Ring) : (modRing s r f).drc = s.drc := rfl
@[simp] theorem modRing_memi (r : Nat) (f : Ring → Ring) : (modRing s r f).memi = s.memi := rfl
@[simp] theorem modRing_nrg (r : Nat) (f : Ring → Ring) : (modRing s r f).nrg = s.nrg := rfl
@[simp] theorem modRing_time (r : Nat) (f : Ring → Ring) : (modRing s r f).time = s.time := rfl
@[simp] theorem modRing_flt (r : Nat) (f : Ring → Ring) : (modRing s r f).flt = s.flt := rfl
@[simp] theorem modRing_sbd (r : Nat) (f : Ring → Ring) : (modRing s r f).sbd = s.sbd := rfl
@[simp] theorem modRing_hdrs (r : Nat) (f : Ring → Ring) : (modRing s r f).hdrs = s.hdrs := rfl
@[simp] theorem modRing_pmon (r : Nat) (f : Ring → Ring) : (modRing s r f).pmon = s.pmon := rfl
@[simp] theorem modRing_clkLock (r : Nat) (f : Ring → Ring) : (modRing s r f).clkLock = s.clkLock := rfl
@[simp] theorem modRing_clkLoss (r : Nat) (f : Ring → Ring) : (modRing s r f).clkLoss = s.clkLoss := rfl
@[simp] theorem modRing_out (r : Nat) (f : Ring → Ring) : (modRing s r f).out = s.out := rfl

@[simp] theorem modFlc_now (n : Nat) (f : Flc → Flc) : (modFlc s n f).now = s.now := rfl
@[simp] theorem modFlc_freeCtr (n : Nat) (f : Flc → Flc) : (modFlc s n f).freeCtr = s.freeCtr := rfl
@[simp] theorem modFlc_pending (n : Nat) (f : Flc → Flc) : (modFlc s n f).pending = s.pending := rfl
@[simp] theorem modFlc_fuse (n : Nat) (f : Flc → Flc) : (modFlc s n f).fuse = s.fuse := rfl
@[simp] theorem modFlc_nv (n : Nat) (f : Flc → Flc) : (modFlc s n f).nv = s.nv := rfl
@[simp] theorem modFlc_pw (n : Nat) (f : Flc → Flc) : (modFlc s n f).pw = s.pw := rfl
@[simp] theorem modFlc_rst (n : Nat) (f : Flc → Flc) : (modFlc s n f).rst = s.rst := rfl
@[simp] theorem modFlc_host (n : Nat) (f : Flc → Flc) : (modFlc s n f).host = s.host := rfl
@[simp] theorem modFlc_pol (n : Nat) (f : Flc → Flc) : (modFlc s n f).pol = s.pol := rfl
@[simp] theorem modFlc_progs (n : Nat) (f : Flc → Flc) : (modFlc s n f).progs = s.progs := rfl
@[simp] theorem modFlc_rsets (n : Nat) (f : Flc → Flc) : (modFlc s n f).rsets = s.rsets := rfl
@[simp] theorem modFlc_jobs (n : Nat) (f : Flc → Flc) : (modFlc s n f).jobs = s.jobs := rfl
@[simp] theorem modFlc_nextJob (n : Nat) (f : Flc → Flc) : (modFlc s n f).nextJob = s.nextJob := rfl
@[simp] theorem modFlc_void (n : Nat) (f : Flc → Flc) : (modFlc s n f).void = s.void := rfl
@[simp] theorem modFlc_cores (n : Nat) (f : Flc → Flc) : (modFlc s n f).cores = s.cores := rfl
@[simp] theorem modFlc_bpm (n : Nat) (f : Flc → Flc) : (modFlc s n f).bpm = s.bpm := rfl
@[simp] theorem modFlc_isl (n : Nat) (f : Flc → Flc) : (modFlc s n f).isl = s.isl := rfl
@[simp] theorem modFlc_cmpr (n : Nat) (f : Flc → Flc) : (modFlc s n f).cmpr = s.cmpr := rfl
@[simp] theorem modFlc_srch (n : Nat) (f : Flc → Flc) : (modFlc s n f).srch = s.srch := rfl
@[simp] theorem modFlc_flcs (n : Nat) (f : Flc → Flc) : (modFlc s n f).flcs = tmod s.flcs {} n f := rfl
@[simp] theorem modFlc_ftla (n : Nat) (f : Flc → Flc) : (modFlc s n f).ftla = s.ftla := rfl
@[simp] theorem modFlc_dram (n : Nat) (f : Flc → Flc) : (modFlc s n f).dram = s.dram := rfl
@[simp] theorem modFlc_drc (n : Nat) (f : Flc → Flc) : (modFlc s n f).drc = s.drc := rfl
@[simp] theorem modFlc_memi (n : Nat) (f : Flc → Flc) : (modFlc s n f).memi = s.memi := rfl
@[simp] theorem modFlc_nrg (n : Nat) (f : Flc → Flc) : (modFlc s n f).nrg = s.nrg := rfl
@[simp] theorem modFlc_time (n : Nat) (f : Flc → Flc) : (modFlc s n f).time = s.time := rfl
@[simp] theorem modFlc_flt (n : Nat) (f : Flc → Flc) : (modFlc s n f).flt = s.flt := rfl
@[simp] theorem modFlc_sbd (n : Nat) (f : Flc → Flc) : (modFlc s n f).sbd = s.sbd := rfl
@[simp] theorem modFlc_hdrs (n : Nat) (f : Flc → Flc) : (modFlc s n f).hdrs = s.hdrs := rfl
@[simp] theorem modFlc_pmon (n : Nat) (f : Flc → Flc) : (modFlc s n f).pmon = s.pmon := rfl
@[simp] theorem modFlc_clkLock (n : Nat) (f : Flc → Flc) : (modFlc s n f).clkLock = s.clkLock := rfl
@[simp] theorem modFlc_clkLoss (n : Nat) (f : Flc → Flc) : (modFlc s n f).clkLoss = s.clkLoss := rfl
@[simp] theorem modFlc_out (n : Nat) (f : Flc → Flc) : (modFlc s n f).out = s.out := rfl

@[simp] theorem setJob_now (j : Nat) (v : Option Job) : (setJob s j v).now = s.now := rfl
@[simp] theorem setJob_freeCtr (j : Nat) (v : Option Job) : (setJob s j v).freeCtr = s.freeCtr := rfl
@[simp] theorem setJob_pending (j : Nat) (v : Option Job) : (setJob s j v).pending = s.pending := rfl
@[simp] theorem setJob_fuse (j : Nat) (v : Option Job) : (setJob s j v).fuse = s.fuse := rfl
@[simp] theorem setJob_nv (j : Nat) (v : Option Job) : (setJob s j v).nv = s.nv := rfl
@[simp] theorem setJob_pw (j : Nat) (v : Option Job) : (setJob s j v).pw = s.pw := rfl
@[simp] theorem setJob_rst (j : Nat) (v : Option Job) : (setJob s j v).rst = s.rst := rfl
@[simp] theorem setJob_host (j : Nat) (v : Option Job) : (setJob s j v).host = s.host := rfl
@[simp] theorem setJob_pol (j : Nat) (v : Option Job) : (setJob s j v).pol = s.pol := rfl
@[simp] theorem setJob_progs (j : Nat) (v : Option Job) : (setJob s j v).progs = s.progs := rfl
@[simp] theorem setJob_rsets (j : Nat) (v : Option Job) : (setJob s j v).rsets = s.rsets := rfl
@[simp] theorem setJob_jobs (j : Nat) (v : Option Job) : (setJob s j v).jobs = tset s.jobs none j v := rfl
@[simp] theorem setJob_nextJob (j : Nat) (v : Option Job) : (setJob s j v).nextJob = s.nextJob := rfl
@[simp] theorem setJob_void (j : Nat) (v : Option Job) : (setJob s j v).void = s.void := rfl
@[simp] theorem setJob_cores (j : Nat) (v : Option Job) : (setJob s j v).cores = s.cores := rfl
@[simp] theorem setJob_bpm (j : Nat) (v : Option Job) : (setJob s j v).bpm = s.bpm := rfl
@[simp] theorem setJob_isl (j : Nat) (v : Option Job) : (setJob s j v).isl = s.isl := rfl
@[simp] theorem setJob_cmpr (j : Nat) (v : Option Job) : (setJob s j v).cmpr = s.cmpr := rfl
@[simp] theorem setJob_srch (j : Nat) (v : Option Job) : (setJob s j v).srch = s.srch := rfl
@[simp] theorem setJob_flcs (j : Nat) (v : Option Job) : (setJob s j v).flcs = s.flcs := rfl
@[simp] theorem setJob_ftla (j : Nat) (v : Option Job) : (setJob s j v).ftla = s.ftla := rfl
@[simp] theorem setJob_dram (j : Nat) (v : Option Job) : (setJob s j v).dram = s.dram := rfl
@[simp] theorem setJob_drc (j : Nat) (v : Option Job) : (setJob s j v).drc = s.drc := rfl
@[simp] theorem setJob_memi (j : Nat) (v : Option Job) : (setJob s j v).memi = s.memi := rfl
@[simp] theorem setJob_nrg (j : Nat) (v : Option Job) : (setJob s j v).nrg = s.nrg := rfl
@[simp] theorem setJob_time (j : Nat) (v : Option Job) : (setJob s j v).time = s.time := rfl
@[simp] theorem setJob_flt (j : Nat) (v : Option Job) : (setJob s j v).flt = s.flt := rfl
@[simp] theorem setJob_sbd (j : Nat) (v : Option Job) : (setJob s j v).sbd = s.sbd := rfl
@[simp] theorem setJob_hdrs (j : Nat) (v : Option Job) : (setJob s j v).hdrs = s.hdrs := rfl
@[simp] theorem setJob_pmon (j : Nat) (v : Option Job) : (setJob s j v).pmon = s.pmon := rfl
@[simp] theorem setJob_clkLock (j : Nat) (v : Option Job) : (setJob s j v).clkLock = s.clkLock := rfl
@[simp] theorem setJob_clkLoss (j : Nat) (v : Option Job) : (setJob s j v).clkLoss = s.clkLoss := rfl
@[simp] theorem setJob_out (j : Nat) (v : Option Job) : (setJob s j v).out = s.out := rfl

@[simp] theorem modHost_now (f : HostIf → HostIf) : (modHost s f).now = s.now := rfl
@[simp] theorem modHost_freeCtr (f : HostIf → HostIf) : (modHost s f).freeCtr = s.freeCtr := rfl
@[simp] theorem modHost_pending (f : HostIf → HostIf) : (modHost s f).pending = s.pending := rfl
@[simp] theorem modHost_fuse (f : HostIf → HostIf) : (modHost s f).fuse = s.fuse := rfl
@[simp] theorem modHost_nv (f : HostIf → HostIf) : (modHost s f).nv = s.nv := rfl
@[simp] theorem modHost_pw (f : HostIf → HostIf) : (modHost s f).pw = s.pw := rfl
@[simp] theorem modHost_rst (f : HostIf → HostIf) : (modHost s f).rst = s.rst := rfl
@[simp] theorem modHost_host (f : HostIf → HostIf) : (modHost s f).host = f s.host := rfl
@[simp] theorem modHost_pol (f : HostIf → HostIf) : (modHost s f).pol = s.pol := rfl
@[simp] theorem modHost_progs (f : HostIf → HostIf) : (modHost s f).progs = s.progs := rfl
@[simp] theorem modHost_rsets (f : HostIf → HostIf) : (modHost s f).rsets = s.rsets := rfl
@[simp] theorem modHost_jobs (f : HostIf → HostIf) : (modHost s f).jobs = s.jobs := rfl
@[simp] theorem modHost_nextJob (f : HostIf → HostIf) : (modHost s f).nextJob = s.nextJob := rfl
@[simp] theorem modHost_void (f : HostIf → HostIf) : (modHost s f).void = s.void := rfl
@[simp] theorem modHost_cores (f : HostIf → HostIf) : (modHost s f).cores = s.cores := rfl
@[simp] theorem modHost_bpm (f : HostIf → HostIf) : (modHost s f).bpm = s.bpm := rfl
@[simp] theorem modHost_isl (f : HostIf → HostIf) : (modHost s f).isl = s.isl := rfl
@[simp] theorem modHost_cmpr (f : HostIf → HostIf) : (modHost s f).cmpr = s.cmpr := rfl
@[simp] theorem modHost_srch (f : HostIf → HostIf) : (modHost s f).srch = s.srch := rfl
@[simp] theorem modHost_flcs (f : HostIf → HostIf) : (modHost s f).flcs = s.flcs := rfl
@[simp] theorem modHost_ftla (f : HostIf → HostIf) : (modHost s f).ftla = s.ftla := rfl
@[simp] theorem modHost_dram (f : HostIf → HostIf) : (modHost s f).dram = s.dram := rfl
@[simp] theorem modHost_drc (f : HostIf → HostIf) : (modHost s f).drc = s.drc := rfl
@[simp] theorem modHost_memi (f : HostIf → HostIf) : (modHost s f).memi = s.memi := rfl
@[simp] theorem modHost_nrg (f : HostIf → HostIf) : (modHost s f).nrg = s.nrg := rfl
@[simp] theorem modHost_time (f : HostIf → HostIf) : (modHost s f).time = s.time := rfl
@[simp] theorem modHost_flt (f : HostIf → HostIf) : (modHost s f).flt = s.flt := rfl
@[simp] theorem modHost_sbd (f : HostIf → HostIf) : (modHost s f).sbd = s.sbd := rfl
@[simp] theorem modHost_hdrs (f : HostIf → HostIf) : (modHost s f).hdrs = s.hdrs := rfl
@[simp] theorem modHost_pmon (f : HostIf → HostIf) : (modHost s f).pmon = s.pmon := rfl
@[simp] theorem modHost_clkLock (f : HostIf → HostIf) : (modHost s f).clkLock = s.clkLock := rfl
@[simp] theorem modHost_clkLoss (f : HostIf → HostIf) : (modHost s f).clkLoss = s.clkLoss := rfl
@[simp] theorem modHost_out (f : HostIf → HostIf) : (modHost s f).out = s.out := rfl

@[simp] theorem modIsl_now (f : Island → Island) : (modIsl s f).now = s.now := rfl
@[simp] theorem modIsl_freeCtr (f : Island → Island) : (modIsl s f).freeCtr = s.freeCtr := rfl
@[simp] theorem modIsl_pending (f : Island → Island) : (modIsl s f).pending = s.pending := rfl
@[simp] theorem modIsl_fuse (f : Island → Island) : (modIsl s f).fuse = s.fuse := rfl
@[simp] theorem modIsl_nv (f : Island → Island) : (modIsl s f).nv = s.nv := rfl
@[simp] theorem modIsl_pw (f : Island → Island) : (modIsl s f).pw = s.pw := rfl
@[simp] theorem modIsl_rst (f : Island → Island) : (modIsl s f).rst = s.rst := rfl
@[simp] theorem modIsl_host (f : Island → Island) : (modIsl s f).host = s.host := rfl
@[simp] theorem modIsl_pol (f : Island → Island) : (modIsl s f).pol = s.pol := rfl
@[simp] theorem modIsl_progs (f : Island → Island) : (modIsl s f).progs = s.progs := rfl
@[simp] theorem modIsl_rsets (f : Island → Island) : (modIsl s f).rsets = s.rsets := rfl
@[simp] theorem modIsl_jobs (f : Island → Island) : (modIsl s f).jobs = s.jobs := rfl
@[simp] theorem modIsl_nextJob (f : Island → Island) : (modIsl s f).nextJob = s.nextJob := rfl
@[simp] theorem modIsl_void (f : Island → Island) : (modIsl s f).void = s.void := rfl
@[simp] theorem modIsl_cores (f : Island → Island) : (modIsl s f).cores = s.cores := rfl
@[simp] theorem modIsl_bpm (f : Island → Island) : (modIsl s f).bpm = s.bpm := rfl
@[simp] theorem modIsl_isl (f : Island → Island) : (modIsl s f).isl = f s.isl := rfl
@[simp] theorem modIsl_cmpr (f : Island → Island) : (modIsl s f).cmpr = s.cmpr := rfl
@[simp] theorem modIsl_srch (f : Island → Island) : (modIsl s f).srch = s.srch := rfl
@[simp] theorem modIsl_flcs (f : Island → Island) : (modIsl s f).flcs = s.flcs := rfl
@[simp] theorem modIsl_ftla (f : Island → Island) : (modIsl s f).ftla = s.ftla := rfl
@[simp] theorem modIsl_dram (f : Island → Island) : (modIsl s f).dram = s.dram := rfl
@[simp] theorem modIsl_drc (f : Island → Island) : (modIsl s f).drc = s.drc := rfl
@[simp] theorem modIsl_memi (f : Island → Island) : (modIsl s f).memi = s.memi := rfl
@[simp] theorem modIsl_nrg (f : Island → Island) : (modIsl s f).nrg = s.nrg := rfl
@[simp] theorem modIsl_time (f : Island → Island) : (modIsl s f).time = s.time := rfl
@[simp] theorem modIsl_flt (f : Island → Island) : (modIsl s f).flt = s.flt := rfl
@[simp] theorem modIsl_sbd (f : Island → Island) : (modIsl s f).sbd = s.sbd := rfl
@[simp] theorem modIsl_hdrs (f : Island → Island) : (modIsl s f).hdrs = s.hdrs := rfl
@[simp] theorem modIsl_pmon (f : Island → Island) : (modIsl s f).pmon = s.pmon := rfl
@[simp] theorem modIsl_clkLock (f : Island → Island) : (modIsl s f).clkLock = s.clkLock := rfl
@[simp] theorem modIsl_clkLoss (f : Island → Island) : (modIsl s f).clkLoss = s.clkLoss := rfl
@[simp] theorem modIsl_out (f : Island → Island) : (modIsl s f).out = s.out := rfl

@[simp] theorem modFtla_now (f : Ftla → Ftla) : (modFtla s f).now = s.now := rfl
@[simp] theorem modFtla_freeCtr (f : Ftla → Ftla) : (modFtla s f).freeCtr = s.freeCtr := rfl
@[simp] theorem modFtla_pending (f : Ftla → Ftla) : (modFtla s f).pending = s.pending := rfl
@[simp] theorem modFtla_fuse (f : Ftla → Ftla) : (modFtla s f).fuse = s.fuse := rfl
@[simp] theorem modFtla_nv (f : Ftla → Ftla) : (modFtla s f).nv = s.nv := rfl
@[simp] theorem modFtla_pw (f : Ftla → Ftla) : (modFtla s f).pw = s.pw := rfl
@[simp] theorem modFtla_rst (f : Ftla → Ftla) : (modFtla s f).rst = s.rst := rfl
@[simp] theorem modFtla_host (f : Ftla → Ftla) : (modFtla s f).host = s.host := rfl
@[simp] theorem modFtla_pol (f : Ftla → Ftla) : (modFtla s f).pol = s.pol := rfl
@[simp] theorem modFtla_progs (f : Ftla → Ftla) : (modFtla s f).progs = s.progs := rfl
@[simp] theorem modFtla_rsets (f : Ftla → Ftla) : (modFtla s f).rsets = s.rsets := rfl
@[simp] theorem modFtla_jobs (f : Ftla → Ftla) : (modFtla s f).jobs = s.jobs := rfl
@[simp] theorem modFtla_nextJob (f : Ftla → Ftla) : (modFtla s f).nextJob = s.nextJob := rfl
@[simp] theorem modFtla_void (f : Ftla → Ftla) : (modFtla s f).void = s.void := rfl
@[simp] theorem modFtla_cores (f : Ftla → Ftla) : (modFtla s f).cores = s.cores := rfl
@[simp] theorem modFtla_bpm (f : Ftla → Ftla) : (modFtla s f).bpm = s.bpm := rfl
@[simp] theorem modFtla_isl (f : Ftla → Ftla) : (modFtla s f).isl = s.isl := rfl
@[simp] theorem modFtla_cmpr (f : Ftla → Ftla) : (modFtla s f).cmpr = s.cmpr := rfl
@[simp] theorem modFtla_srch (f : Ftla → Ftla) : (modFtla s f).srch = s.srch := rfl
@[simp] theorem modFtla_flcs (f : Ftla → Ftla) : (modFtla s f).flcs = s.flcs := rfl
@[simp] theorem modFtla_ftla (f : Ftla → Ftla) : (modFtla s f).ftla = f s.ftla := rfl
@[simp] theorem modFtla_dram (f : Ftla → Ftla) : (modFtla s f).dram = s.dram := rfl
@[simp] theorem modFtla_drc (f : Ftla → Ftla) : (modFtla s f).drc = s.drc := rfl
@[simp] theorem modFtla_memi (f : Ftla → Ftla) : (modFtla s f).memi = s.memi := rfl
@[simp] theorem modFtla_nrg (f : Ftla → Ftla) : (modFtla s f).nrg = s.nrg := rfl
@[simp] theorem modFtla_time (f : Ftla → Ftla) : (modFtla s f).time = s.time := rfl
@[simp] theorem modFtla_flt (f : Ftla → Ftla) : (modFtla s f).flt = s.flt := rfl
@[simp] theorem modFtla_sbd (f : Ftla → Ftla) : (modFtla s f).sbd = s.sbd := rfl
@[simp] theorem modFtla_hdrs (f : Ftla → Ftla) : (modFtla s f).hdrs = s.hdrs := rfl
@[simp] theorem modFtla_pmon (f : Ftla → Ftla) : (modFtla s f).pmon = s.pmon := rfl
@[simp] theorem modFtla_clkLock (f : Ftla → Ftla) : (modFtla s f).clkLock = s.clkLock := rfl
@[simp] theorem modFtla_clkLoss (f : Ftla → Ftla) : (modFtla s f).clkLoss = s.clkLoss := rfl
@[simp] theorem modFtla_out (f : Ftla → Ftla) : (modFtla s f).out = s.out := rfl

@[simp] theorem modNrg_now (f : Nrg → Nrg) : (modNrg s f).now = s.now := rfl
@[simp] theorem modNrg_freeCtr (f : Nrg → Nrg) : (modNrg s f).freeCtr = s.freeCtr := rfl
@[simp] theorem modNrg_pending (f : Nrg → Nrg) : (modNrg s f).pending = s.pending := rfl
@[simp] theorem modNrg_fuse (f : Nrg → Nrg) : (modNrg s f).fuse = s.fuse := rfl
@[simp] theorem modNrg_nv (f : Nrg → Nrg) : (modNrg s f).nv = s.nv := rfl
@[simp] theorem modNrg_pw (f : Nrg → Nrg) : (modNrg s f).pw = s.pw := rfl
@[simp] theorem modNrg_rst (f : Nrg → Nrg) : (modNrg s f).rst = s.rst := rfl
@[simp] theorem modNrg_host (f : Nrg → Nrg) : (modNrg s f).host = s.host := rfl
@[simp] theorem modNrg_pol (f : Nrg → Nrg) : (modNrg s f).pol = s.pol := rfl
@[simp] theorem modNrg_progs (f : Nrg → Nrg) : (modNrg s f).progs = s.progs := rfl
@[simp] theorem modNrg_rsets (f : Nrg → Nrg) : (modNrg s f).rsets = s.rsets := rfl
@[simp] theorem modNrg_jobs (f : Nrg → Nrg) : (modNrg s f).jobs = s.jobs := rfl
@[simp] theorem modNrg_nextJob (f : Nrg → Nrg) : (modNrg s f).nextJob = s.nextJob := rfl
@[simp] theorem modNrg_void (f : Nrg → Nrg) : (modNrg s f).void = s.void := rfl
@[simp] theorem modNrg_cores (f : Nrg → Nrg) : (modNrg s f).cores = s.cores := rfl
@[simp] theorem modNrg_bpm (f : Nrg → Nrg) : (modNrg s f).bpm = s.bpm := rfl
@[simp] theorem modNrg_isl (f : Nrg → Nrg) : (modNrg s f).isl = s.isl := rfl
@[simp] theorem modNrg_cmpr (f : Nrg → Nrg) : (modNrg s f).cmpr = s.cmpr := rfl
@[simp] theorem modNrg_srch (f : Nrg → Nrg) : (modNrg s f).srch = s.srch := rfl
@[simp] theorem modNrg_flcs (f : Nrg → Nrg) : (modNrg s f).flcs = s.flcs := rfl
@[simp] theorem modNrg_ftla (f : Nrg → Nrg) : (modNrg s f).ftla = s.ftla := rfl
@[simp] theorem modNrg_dram (f : Nrg → Nrg) : (modNrg s f).dram = s.dram := rfl
@[simp] theorem modNrg_drc (f : Nrg → Nrg) : (modNrg s f).drc = s.drc := rfl
@[simp] theorem modNrg_memi (f : Nrg → Nrg) : (modNrg s f).memi = s.memi := rfl
@[simp] theorem modNrg_nrg (f : Nrg → Nrg) : (modNrg s f).nrg = f s.nrg := rfl
@[simp] theorem modNrg_time (f : Nrg → Nrg) : (modNrg s f).time = s.time := rfl
@[simp] theorem modNrg_flt (f : Nrg → Nrg) : (modNrg s f).flt = s.flt := rfl
@[simp] theorem modNrg_sbd (f : Nrg → Nrg) : (modNrg s f).sbd = s.sbd := rfl
@[simp] theorem modNrg_hdrs (f : Nrg → Nrg) : (modNrg s f).hdrs = s.hdrs := rfl
@[simp] theorem modNrg_pmon (f : Nrg → Nrg) : (modNrg s f).pmon = s.pmon := rfl
@[simp] theorem modNrg_clkLock (f : Nrg → Nrg) : (modNrg s f).clkLock = s.clkLock := rfl
@[simp] theorem modNrg_clkLoss (f : Nrg → Nrg) : (modNrg s f).clkLoss = s.clkLoss := rfl
@[simp] theorem modNrg_out (f : Nrg → Nrg) : (modNrg s f).out = s.out := rfl

@[simp] theorem modRst_now (f : Rst → Rst) : (modRst s f).now = s.now := rfl
@[simp] theorem modRst_freeCtr (f : Rst → Rst) : (modRst s f).freeCtr = s.freeCtr := rfl
@[simp] theorem modRst_pending (f : Rst → Rst) : (modRst s f).pending = s.pending := rfl
@[simp] theorem modRst_fuse (f : Rst → Rst) : (modRst s f).fuse = s.fuse := rfl
@[simp] theorem modRst_nv (f : Rst → Rst) : (modRst s f).nv = s.nv := rfl
@[simp] theorem modRst_pw (f : Rst → Rst) : (modRst s f).pw = s.pw := rfl
@[simp] theorem modRst_rst (f : Rst → Rst) : (modRst s f).rst = f s.rst := rfl
@[simp] theorem modRst_host (f : Rst → Rst) : (modRst s f).host = s.host := rfl
@[simp] theorem modRst_pol (f : Rst → Rst) : (modRst s f).pol = s.pol := rfl
@[simp] theorem modRst_progs (f : Rst → Rst) : (modRst s f).progs = s.progs := rfl
@[simp] theorem modRst_rsets (f : Rst → Rst) : (modRst s f).rsets = s.rsets := rfl
@[simp] theorem modRst_jobs (f : Rst → Rst) : (modRst s f).jobs = s.jobs := rfl
@[simp] theorem modRst_nextJob (f : Rst → Rst) : (modRst s f).nextJob = s.nextJob := rfl
@[simp] theorem modRst_void (f : Rst → Rst) : (modRst s f).void = s.void := rfl
@[simp] theorem modRst_cores (f : Rst → Rst) : (modRst s f).cores = s.cores := rfl
@[simp] theorem modRst_bpm (f : Rst → Rst) : (modRst s f).bpm = s.bpm := rfl
@[simp] theorem modRst_isl (f : Rst → Rst) : (modRst s f).isl = s.isl := rfl
@[simp] theorem modRst_cmpr (f : Rst → Rst) : (modRst s f).cmpr = s.cmpr := rfl
@[simp] theorem modRst_srch (f : Rst → Rst) : (modRst s f).srch = s.srch := rfl
@[simp] theorem modRst_flcs (f : Rst → Rst) : (modRst s f).flcs = s.flcs := rfl
@[simp] theorem modRst_ftla (f : Rst → Rst) : (modRst s f).ftla = s.ftla := rfl
@[simp] theorem modRst_dram (f : Rst → Rst) : (modRst s f).dram = s.dram := rfl
@[simp] theorem modRst_drc (f : Rst → Rst) : (modRst s f).drc = s.drc := rfl
@[simp] theorem modRst_memi (f : Rst → Rst) : (modRst s f).memi = s.memi := rfl
@[simp] theorem modRst_nrg (f : Rst → Rst) : (modRst s f).nrg = s.nrg := rfl
@[simp] theorem modRst_time (f : Rst → Rst) : (modRst s f).time = s.time := rfl
@[simp] theorem modRst_flt (f : Rst → Rst) : (modRst s f).flt = s.flt := rfl
@[simp] theorem modRst_sbd (f : Rst → Rst) : (modRst s f).sbd = s.sbd := rfl
@[simp] theorem modRst_hdrs (f : Rst → Rst) : (modRst s f).hdrs = s.hdrs := rfl
@[simp] theorem modRst_pmon (f : Rst → Rst) : (modRst s f).pmon = s.pmon := rfl
@[simp] theorem modRst_clkLock (f : Rst → Rst) : (modRst s f).clkLock = s.clkLock := rfl
@[simp] theorem modRst_clkLoss (f : Rst → Rst) : (modRst s f).clkLoss = s.clkLoss := rfl
@[simp] theorem modRst_out (f : Rst → Rst) : (modRst s f).out = s.out := rfl

@[simp] theorem modNv_now (f : Nv → Nv) : (modNv s f).now = s.now := rfl
@[simp] theorem modNv_freeCtr (f : Nv → Nv) : (modNv s f).freeCtr = s.freeCtr := rfl
@[simp] theorem modNv_pending (f : Nv → Nv) : (modNv s f).pending = s.pending := rfl
@[simp] theorem modNv_fuse (f : Nv → Nv) : (modNv s f).fuse = s.fuse := rfl
@[simp] theorem modNv_nv (f : Nv → Nv) : (modNv s f).nv = f s.nv := rfl
@[simp] theorem modNv_pw (f : Nv → Nv) : (modNv s f).pw = s.pw := rfl
@[simp] theorem modNv_rst (f : Nv → Nv) : (modNv s f).rst = s.rst := rfl
@[simp] theorem modNv_host (f : Nv → Nv) : (modNv s f).host = s.host := rfl
@[simp] theorem modNv_pol (f : Nv → Nv) : (modNv s f).pol = s.pol := rfl
@[simp] theorem modNv_progs (f : Nv → Nv) : (modNv s f).progs = s.progs := rfl
@[simp] theorem modNv_rsets (f : Nv → Nv) : (modNv s f).rsets = s.rsets := rfl
@[simp] theorem modNv_jobs (f : Nv → Nv) : (modNv s f).jobs = s.jobs := rfl
@[simp] theorem modNv_nextJob (f : Nv → Nv) : (modNv s f).nextJob = s.nextJob := rfl
@[simp] theorem modNv_void (f : Nv → Nv) : (modNv s f).void = s.void := rfl
@[simp] theorem modNv_cores (f : Nv → Nv) : (modNv s f).cores = s.cores := rfl
@[simp] theorem modNv_bpm (f : Nv → Nv) : (modNv s f).bpm = s.bpm := rfl
@[simp] theorem modNv_isl (f : Nv → Nv) : (modNv s f).isl = s.isl := rfl
@[simp] theorem modNv_cmpr (f : Nv → Nv) : (modNv s f).cmpr = s.cmpr := rfl
@[simp] theorem modNv_srch (f : Nv → Nv) : (modNv s f).srch = s.srch := rfl
@[simp] theorem modNv_flcs (f : Nv → Nv) : (modNv s f).flcs = s.flcs := rfl
@[simp] theorem modNv_ftla (f : Nv → Nv) : (modNv s f).ftla = s.ftla := rfl
@[simp] theorem modNv_dram (f : Nv → Nv) : (modNv s f).dram = s.dram := rfl
@[simp] theorem modNv_drc (f : Nv → Nv) : (modNv s f).drc = s.drc := rfl
@[simp] theorem modNv_memi (f : Nv → Nv) : (modNv s f).memi = s.memi := rfl
@[simp] theorem modNv_nrg (f : Nv → Nv) : (modNv s f).nrg = s.nrg := rfl
@[simp] theorem modNv_time (f : Nv → Nv) : (modNv s f).time = s.time := rfl
@[simp] theorem modNv_flt (f : Nv → Nv) : (modNv s f).flt = s.flt := rfl
@[simp] theorem modNv_sbd (f : Nv → Nv) : (modNv s f).sbd = s.sbd := rfl
@[simp] theorem modNv_hdrs (f : Nv → Nv) : (modNv s f).hdrs = s.hdrs := rfl
@[simp] theorem modNv_pmon (f : Nv → Nv) : (modNv s f).pmon = s.pmon := rfl
@[simp] theorem modNv_clkLock (f : Nv → Nv) : (modNv s f).clkLock = s.clkLock := rfl
@[simp] theorem modNv_clkLoss (f : Nv → Nv) : (modNv s f).clkLoss = s.clkLoss := rfl
@[simp] theorem modNv_out (f : Nv → Nv) : (modNv s f).out = s.out := rfl

@[simp] theorem modSbd_now (f : Sbd → Sbd) : (modSbd s f).now = s.now := rfl
@[simp] theorem modSbd_freeCtr (f : Sbd → Sbd) : (modSbd s f).freeCtr = s.freeCtr := rfl
@[simp] theorem modSbd_pending (f : Sbd → Sbd) : (modSbd s f).pending = s.pending := rfl
@[simp] theorem modSbd_fuse (f : Sbd → Sbd) : (modSbd s f).fuse = s.fuse := rfl
@[simp] theorem modSbd_nv (f : Sbd → Sbd) : (modSbd s f).nv = s.nv := rfl
@[simp] theorem modSbd_pw (f : Sbd → Sbd) : (modSbd s f).pw = s.pw := rfl
@[simp] theorem modSbd_rst (f : Sbd → Sbd) : (modSbd s f).rst = s.rst := rfl
@[simp] theorem modSbd_host (f : Sbd → Sbd) : (modSbd s f).host = s.host := rfl
@[simp] theorem modSbd_pol (f : Sbd → Sbd) : (modSbd s f).pol = s.pol := rfl
@[simp] theorem modSbd_progs (f : Sbd → Sbd) : (modSbd s f).progs = s.progs := rfl
@[simp] theorem modSbd_rsets (f : Sbd → Sbd) : (modSbd s f).rsets = s.rsets := rfl
@[simp] theorem modSbd_jobs (f : Sbd → Sbd) : (modSbd s f).jobs = s.jobs := rfl
@[simp] theorem modSbd_nextJob (f : Sbd → Sbd) : (modSbd s f).nextJob = s.nextJob := rfl
@[simp] theorem modSbd_void (f : Sbd → Sbd) : (modSbd s f).void = s.void := rfl
@[simp] theorem modSbd_cores (f : Sbd → Sbd) : (modSbd s f).cores = s.cores := rfl
@[simp] theorem modSbd_bpm (f : Sbd → Sbd) : (modSbd s f).bpm = s.bpm := rfl
@[simp] theorem modSbd_isl (f : Sbd → Sbd) : (modSbd s f).isl = s.isl := rfl
@[simp] theorem modSbd_cmpr (f : Sbd → Sbd) : (modSbd s f).cmpr = s.cmpr := rfl
@[simp] theorem modSbd_srch (f : Sbd → Sbd) : (modSbd s f).srch = s.srch := rfl
@[simp] theorem modSbd_flcs (f : Sbd → Sbd) : (modSbd s f).flcs = s.flcs := rfl
@[simp] theorem modSbd_ftla (f : Sbd → Sbd) : (modSbd s f).ftla = s.ftla := rfl
@[simp] theorem modSbd_dram (f : Sbd → Sbd) : (modSbd s f).dram = s.dram := rfl
@[simp] theorem modSbd_drc (f : Sbd → Sbd) : (modSbd s f).drc = s.drc := rfl
@[simp] theorem modSbd_memi (f : Sbd → Sbd) : (modSbd s f).memi = s.memi := rfl
@[simp] theorem modSbd_nrg (f : Sbd → Sbd) : (modSbd s f).nrg = s.nrg := rfl
@[simp] theorem modSbd_time (f : Sbd → Sbd) : (modSbd s f).time = s.time := rfl
@[simp] theorem modSbd_flt (f : Sbd → Sbd) : (modSbd s f).flt = s.flt := rfl
@[simp] theorem modSbd_sbd (f : Sbd → Sbd) : (modSbd s f).sbd = f s.sbd := rfl
@[simp] theorem modSbd_hdrs (f : Sbd → Sbd) : (modSbd s f).hdrs = s.hdrs := rfl
@[simp] theorem modSbd_pmon (f : Sbd → Sbd) : (modSbd s f).pmon = s.pmon := rfl
@[simp] theorem modSbd_clkLock (f : Sbd → Sbd) : (modSbd s f).clkLock = s.clkLock := rfl
@[simp] theorem modSbd_clkLoss (f : Sbd → Sbd) : (modSbd s f).clkLoss = s.clkLoss := rfl
@[simp] theorem modSbd_out (f : Sbd → Sbd) : (modSbd s f).out = s.out := rfl

@[simp] theorem modBpm_now (f : Bpm → Bpm) : (modBpm s f).now = s.now := rfl
@[simp] theorem modBpm_freeCtr (f : Bpm → Bpm) : (modBpm s f).freeCtr = s.freeCtr := rfl
@[simp] theorem modBpm_pending (f : Bpm → Bpm) : (modBpm s f).pending = s.pending := rfl
@[simp] theorem modBpm_fuse (f : Bpm → Bpm) : (modBpm s f).fuse = s.fuse := rfl
@[simp] theorem modBpm_nv (f : Bpm → Bpm) : (modBpm s f).nv = s.nv := rfl
@[simp] theorem modBpm_pw (f : Bpm → Bpm) : (modBpm s f).pw = s.pw := rfl
@[simp] theorem modBpm_rst (f : Bpm → Bpm) : (modBpm s f).rst = s.rst := rfl
@[simp] theorem modBpm_host (f : Bpm → Bpm) : (modBpm s f).host = s.host := rfl
@[simp] theorem modBpm_pol (f : Bpm → Bpm) : (modBpm s f).pol = s.pol := rfl
@[simp] theorem modBpm_progs (f : Bpm → Bpm) : (modBpm s f).progs = s.progs := rfl
@[simp] theorem modBpm_rsets (f : Bpm → Bpm) : (modBpm s f).rsets = s.rsets := rfl
@[simp] theorem modBpm_jobs (f : Bpm → Bpm) : (modBpm s f).jobs = s.jobs := rfl
@[simp] theorem modBpm_nextJob (f : Bpm → Bpm) : (modBpm s f).nextJob = s.nextJob := rfl
@[simp] theorem modBpm_void (f : Bpm → Bpm) : (modBpm s f).void = s.void := rfl
@[simp] theorem modBpm_cores (f : Bpm → Bpm) : (modBpm s f).cores = s.cores := rfl
@[simp] theorem modBpm_bpm (f : Bpm → Bpm) : (modBpm s f).bpm = f s.bpm := rfl
@[simp] theorem modBpm_isl (f : Bpm → Bpm) : (modBpm s f).isl = s.isl := rfl
@[simp] theorem modBpm_cmpr (f : Bpm → Bpm) : (modBpm s f).cmpr = s.cmpr := rfl
@[simp] theorem modBpm_srch (f : Bpm → Bpm) : (modBpm s f).srch = s.srch := rfl
@[simp] theorem modBpm_flcs (f : Bpm → Bpm) : (modBpm s f).flcs = s.flcs := rfl
@[simp] theorem modBpm_ftla (f : Bpm → Bpm) : (modBpm s f).ftla = s.ftla := rfl
@[simp] theorem modBpm_dram (f : Bpm → Bpm) : (modBpm s f).dram = s.dram := rfl
@[simp] theorem modBpm_drc (f : Bpm → Bpm) : (modBpm s f).drc = s.drc := rfl
@[simp] theorem modBpm_memi (f : Bpm → Bpm) : (modBpm s f).memi = s.memi := rfl
@[simp] theorem modBpm_nrg (f : Bpm → Bpm) : (modBpm s f).nrg = s.nrg := rfl
@[simp] theorem modBpm_time (f : Bpm → Bpm) : (modBpm s f).time = s.time := rfl
@[simp] theorem modBpm_flt (f : Bpm → Bpm) : (modBpm s f).flt = s.flt := rfl
@[simp] theorem modBpm_sbd (f : Bpm → Bpm) : (modBpm s f).sbd = s.sbd := rfl
@[simp] theorem modBpm_hdrs (f : Bpm → Bpm) : (modBpm s f).hdrs = s.hdrs := rfl
@[simp] theorem modBpm_pmon (f : Bpm → Bpm) : (modBpm s f).pmon = s.pmon := rfl
@[simp] theorem modBpm_clkLock (f : Bpm → Bpm) : (modBpm s f).clkLock = s.clkLock := rfl
@[simp] theorem modBpm_clkLoss (f : Bpm → Bpm) : (modBpm s f).clkLoss = s.clkLoss := rfl
@[simp] theorem modBpm_out (f : Bpm → Bpm) : (modBpm s f).out = s.out := rfl

@[simp] theorem modAcct_now (p : Nat) (f : Acct → Acct) : (modAcct s p f).now = s.now := rfl
@[simp] theorem modAcct_freeCtr (p : Nat) (f : Acct → Acct) : (modAcct s p f).freeCtr = s.freeCtr := rfl
@[simp] theorem modAcct_pending (p : Nat) (f : Acct → Acct) : (modAcct s p f).pending = s.pending := rfl
@[simp] theorem modAcct_fuse (p : Nat) (f : Acct → Acct) : (modAcct s p f).fuse = s.fuse := rfl
@[simp] theorem modAcct_nv (p : Nat) (f : Acct → Acct) : (modAcct s p f).nv = s.nv := rfl
@[simp] theorem modAcct_pw (p : Nat) (f : Acct → Acct) : (modAcct s p f).pw = s.pw := rfl
@[simp] theorem modAcct_rst (p : Nat) (f : Acct → Acct) : (modAcct s p f).rst = s.rst := rfl
@[simp] theorem modAcct_host (p : Nat) (f : Acct → Acct) : (modAcct s p f).host = s.host := rfl
@[simp] theorem modAcct_pol (p : Nat) (f : Acct → Acct) : (modAcct s p f).pol = s.pol := rfl
@[simp] theorem modAcct_progs (p : Nat) (f : Acct → Acct) : (modAcct s p f).progs = s.progs := rfl
@[simp] theorem modAcct_rsets (p : Nat) (f : Acct → Acct) : (modAcct s p f).rsets = s.rsets := rfl
@[simp] theorem modAcct_jobs (p : Nat) (f : Acct → Acct) : (modAcct s p f).jobs = s.jobs := rfl
@[simp] theorem modAcct_nextJob (p : Nat) (f : Acct → Acct) : (modAcct s p f).nextJob = s.nextJob := rfl
@[simp] theorem modAcct_void (p : Nat) (f : Acct → Acct) : (modAcct s p f).void = s.void := rfl
@[simp] theorem modAcct_cores (p : Nat) (f : Acct → Acct) : (modAcct s p f).cores = s.cores := rfl
@[simp] theorem modAcct_bpm (p : Nat) (f : Acct → Acct) : (modAcct s p f).bpm = s.bpm := rfl
@[simp] theorem modAcct_isl (p : Nat) (f : Acct → Acct) : (modAcct s p f).isl = s.isl := rfl
@[simp] theorem modAcct_cmpr (p : Nat) (f : Acct → Acct) : (modAcct s p f).cmpr = s.cmpr := rfl
@[simp] theorem modAcct_srch (p : Nat) (f : Acct → Acct) : (modAcct s p f).srch = s.srch := rfl
@[simp] theorem modAcct_flcs (p : Nat) (f : Acct → Acct) : (modAcct s p f).flcs = s.flcs := rfl
@[simp] theorem modAcct_ftla (p : Nat) (f : Acct → Acct) : (modAcct s p f).ftla = s.ftla := rfl
@[simp] theorem modAcct_dram (p : Nat) (f : Acct → Acct) : (modAcct s p f).dram = s.dram := rfl
@[simp] theorem modAcct_drc (p : Nat) (f : Acct → Acct) : (modAcct s p f).drc = s.drc := rfl
@[simp] theorem modAcct_memi (p : Nat) (f : Acct → Acct) : (modAcct s p f).memi = s.memi := rfl
@[simp] theorem modAcct_nrg (p : Nat) (f : Acct → Acct) : (modAcct s p f).nrg = { s.nrg with acct := tmod s.nrg.acct {} p f } := rfl
@[simp] theorem modAcct_time (p : Nat) (f : Acct → Acct) : (modAcct s p f).time = s.time := rfl
@[simp] theorem modAcct_flt (p : Nat) (f : Acct → Acct) : (modAcct s p f).flt = s.flt := rfl
@[simp] theorem modAcct_sbd (p : Nat) (f : Acct → Acct) : (modAcct s p f).sbd = s.sbd := rfl
@[simp] theorem modAcct_hdrs (p : Nat) (f : Acct → Acct) : (modAcct s p f).hdrs = s.hdrs := rfl
@[simp] theorem modAcct_pmon (p : Nat) (f : Acct → Acct) : (modAcct s p f).pmon = s.pmon := rfl
@[simp] theorem modAcct_clkLock (p : Nat) (f : Acct → Acct) : (modAcct s p f).clkLock = s.clkLock := rfl
@[simp] theorem modAcct_clkLoss (p : Nat) (f : Acct → Acct) : (modAcct s p f).clkLoss = s.clkLoss := rfl
@[simp] theorem modAcct_out (p : Nat) (f : Acct → Acct) : (modAcct s p f).out = s.out := rfl

@[simp] theorem modHdr_now (n : Nat) (f : Hdr → Hdr) : (modHdr s n f).now = s.now := rfl
@[simp] theorem modHdr_freeCtr (n : Nat) (f : Hdr → Hdr) : (modHdr s n f).freeCtr = s.freeCtr := rfl
@[simp] theorem modHdr_pending (n : Nat) (f : Hdr → Hdr) : (modHdr s n f).pending = s.pending := rfl
@[simp] theorem modHdr_fuse (n : Nat) (f : Hdr → Hdr) : (modHdr s n f).fuse = s.fuse := rfl
@[simp] theorem modHdr_nv (n : Nat) (f : Hdr → Hdr) : (modHdr s n f).nv = s.nv := rfl
@[simp] theorem modHdr_pw (n : Nat) (f : Hdr → Hdr) : (modHdr s n f).pw = s.pw := rfl
@[simp] theorem modHdr_rst (n : Nat) (f : Hdr → Hdr) : (modHdr s n f).rst = s.rst := rfl
@[simp] theorem modHdr_host (n : Nat) (f : Hdr → Hdr) : (modHdr s n f).host = s.host := rfl
@[simp] theorem modHdr_pol (n : Nat) (f : Hdr → Hdr) : (modHdr s n f).pol = s.pol := rfl
@[simp] theorem modHdr_progs (n : Nat) (f : Hdr → Hdr) : (modHdr s n f).progs = s.progs := rfl
@[simp] theorem modHdr_rsets (n : Nat) (f : Hdr → Hdr) : (modHdr s n f).rsets = s.rsets := rfl
@[simp] theorem modHdr_jobs (n : Nat) (f : Hdr → Hdr) : (modHdr s n f).jobs = s.jobs := rfl
@[simp] theorem modHdr_nextJob (n : Nat) (f : Hdr → Hdr) : (modHdr s n f).nextJob = s.nextJob := rfl
@[simp] theorem modHdr_void (n : Nat) (f : Hdr → Hdr) : (modHdr s n f).void = s.void := rfl
@[simp] theorem modHdr_cores (n : Nat) (f : Hdr → Hdr) : (modHdr s n f).cores = s.cores := rfl
@[simp] theorem modHdr_bpm (n : Nat) (f : Hdr → Hdr) : (modHdr s n f).bpm = s.bpm := rfl
@[simp] theorem modHdr_isl (n : Nat) (f : Hdr → Hdr) : (modHdr s n f).isl = s.isl := rfl
@[simp] theorem modHdr_cmpr (n : Nat) (f : Hdr → Hdr) : (modHdr s n f).cmpr = s.cmpr := rfl
@[simp] theorem modHdr_srch (n : Nat) (f : Hdr → Hdr) : (modHdr s n f).srch = s.srch := rfl
@[simp] theorem modHdr_flcs (n : Nat) (f : Hdr → Hdr) : (modHdr s n f).flcs = s.flcs := rfl
@[simp] theorem modHdr_ftla (n : Nat) (f : Hdr → Hdr) : (modHdr s n f).ftla = s.ftla := rfl
@[simp] theorem modHdr_dram (n : Nat) (f : Hdr → Hdr) : (modHdr s n f).dram = s.dram := rfl
@[simp] theorem modHdr_drc (n : Nat) (f : Hdr → Hdr) : (modHdr s n f).drc = s.drc := rfl
@[simp] theorem modHdr_memi (n : Nat) (f : Hdr → Hdr) : (modHdr s n f).memi = s.memi := rfl
@[simp] theorem modHdr_nrg (n : Nat) (f : Hdr → Hdr) : (modHdr s n f).nrg = s.nrg := rfl
@[simp] theorem modHdr_time (n : Nat) (f : Hdr → Hdr) : (modHdr s n f).time = s.time := rfl
@[simp] theorem modHdr_flt (n : Nat) (f : Hdr → Hdr) : (modHdr s n f).flt = s.flt := rfl
@[simp] theorem modHdr_sbd (n : Nat) (f : Hdr → Hdr) : (modHdr s n f).sbd = s.sbd := rfl
@[simp] theorem modHdr_hdrs (n : Nat) (f : Hdr → Hdr) : (modHdr s n f).hdrs = tmod s.hdrs {} n f := rfl
@[simp] theorem modHdr_pmon (n : Nat) (f : Hdr → Hdr) : (modHdr s n f).pmon = s.pmon := rfl
@[simp] theorem modHdr_clkLock (n : Nat) (f : Hdr → Hdr) : (modHdr s n f).clkLock = s.clkLock := rfl
@[simp] theorem modHdr_clkLoss (n : Nat) (f : Hdr → Hdr) : (modHdr s n f).clkLoss = s.clkLoss := rfl
@[simp] theorem modHdr_out (n : Nat) (f : Hdr → Hdr) : (modHdr s n f).out = s.out := rfl

@[simp] theorem modMemi_now (f : Memi → Memi) : (modMemi s f).now = s.now := rfl
@[simp] theorem modMemi_freeCtr (f : Memi → Memi) : (modMemi s f).freeCtr = s.freeCtr := rfl
@[simp] theorem modMemi_pending (f : Memi → Memi) : (modMemi s f).pending = s.pending := rfl
@[simp] theorem modMemi_fuse (f : Memi → Memi) : (modMemi s f).fuse = s.fuse := rfl
@[simp] theorem modMemi_nv (f : Memi → Memi) : (modMemi s f).nv = s.nv := rfl
@[simp] theorem modMemi_pw (f : Memi → Memi) : (modMemi s f).pw = s.pw := rfl
@[simp] theorem modMemi_rst (f : Memi → Memi) : (modMemi s f).rst = s.rst := rfl
@[simp] theorem modMemi_host (f : Memi → Memi) : (modMemi s f).host = s.host := rfl
@[simp] theorem modMemi_pol (f : Memi → Memi) : (modMemi s f).pol = s.pol := rfl
@[simp] theorem modMemi_progs (f : Memi → Memi) : (modMemi s f).progs = s.progs := rfl
@[simp] theorem modMemi_rsets (f : Memi → Memi) : (modMemi s f).rsets = s.rsets := rfl
@[simp] theorem modMemi_jobs (f : Memi → Memi) : (modMemi s f).jobs = s.jobs := rfl
@[simp] theorem modMemi_nextJob (f : Memi → Memi) : (modMemi s f).nextJob = s.nextJob := rfl
@[simp] theorem modMemi_void (f : Memi → Memi) : (modMemi s f).void = s.void := rfl
@[simp] theorem modMemi_cores (f : Memi → Memi) : (modMemi s f).cores = s.cores := rfl
@[simp] theorem modMemi_bpm (f : Memi → Memi) : (modMemi s f).bpm = s.bpm := rfl
@[simp] theorem modMemi_isl (f : Memi → Memi) : (modMemi s f).isl = s.isl := rfl
@[simp] theorem modMemi_cmpr (f : Memi → Memi) : (modMemi s f).cmpr = s.cmpr := rfl
@[simp] theorem modMemi_srch (f : Memi → Memi) : (modMemi s f).srch = s.srch := rfl
@[simp] theorem modMemi_flcs (f : Memi → Memi) : (modMemi s f).flcs = s.flcs := rfl
@[simp] theorem modMemi_ftla (f : Memi → Memi) : (modMemi s f).ftla = s.ftla := rfl
@[simp] theorem modMemi_dram (f : Memi → Memi) : (modMemi s f).dram = s.dram := rfl
@[simp] theorem modMemi_drc (f : Memi → Memi) : (modMemi s f).drc = s.drc := rfl
@[simp] theorem modMemi_memi (f : Memi → Memi) : (modMemi s f).memi = f s.memi := rfl
@[simp] theorem modMemi_nrg (f : Memi → Memi) : (modMemi s f).nrg = s.nrg := rfl
@[simp] theorem modMemi_time (f : Memi → Memi) : (modMemi s f).time = s.time := rfl
@[simp] theorem modMemi_flt (f : Memi → Memi) : (modMemi s f).flt = s.flt := rfl
@[simp] theorem modMemi_sbd (f : Memi → Memi) : (modMemi s f).sbd = s.sbd := rfl
@[simp] theorem modMemi_hdrs (f : Memi → Memi) : (modMemi s f).hdrs = s.hdrs := rfl
@[simp] theorem modMemi_pmon (f : Memi → Memi) : (modMemi s f).pmon = s.pmon := rfl
@[simp] theorem modMemi_clkLock (f : Memi → Memi) : (modMemi s f).clkLock = s.clkLock := rfl
@[simp] theorem modMemi_clkLoss (f : Memi → Memi) : (modMemi s f).clkLoss = s.clkLoss := rfl
@[simp] theorem modMemi_out (f : Memi → Memi) : (modMemi s f).out = s.out := rfl

@[simp] theorem answer_now (v : W32) : (answer s v).now = s.now := rfl
@[simp] theorem answer_freeCtr (v : W32) : (answer s v).freeCtr = s.freeCtr := rfl
@[simp] theorem answer_pending (v : W32) : (answer s v).pending = s.pending := rfl
@[simp] theorem answer_fuse (v : W32) : (answer s v).fuse = s.fuse := rfl
@[simp] theorem answer_nv (v : W32) : (answer s v).nv = s.nv := rfl
@[simp] theorem answer_pw (v : W32) : (answer s v).pw = s.pw := rfl
@[simp] theorem answer_rst (v : W32) : (answer s v).rst = s.rst := rfl
@[simp] theorem answer_host (v : W32) : (answer s v).host = s.host := rfl
@[simp] theorem answer_pol (v : W32) : (answer s v).pol = s.pol := rfl
@[simp] theorem answer_progs (v : W32) : (answer s v).progs = s.progs := rfl
@[simp] theorem answer_rsets (v : W32) : (answer s v).rsets = s.rsets := rfl
@[simp] theorem answer_jobs (v : W32) : (answer s v).jobs = s.jobs := rfl
@[simp] theorem answer_nextJob (v : W32) : (answer s v).nextJob = s.nextJob := rfl
@[simp] theorem answer_void (v : W32) : (answer s v).void = s.void := rfl
@[simp] theorem answer_cores (v : W32) : (answer s v).cores = s.cores := rfl
@[simp] theorem answer_bpm (v : W32) : (answer s v).bpm = s.bpm := rfl
@[simp] theorem answer_isl (v : W32) : (answer s v).isl = s.isl := rfl
@[simp] theorem answer_cmpr (v : W32) : (answer s v).cmpr = s.cmpr := rfl
@[simp] theorem answer_srch (v : W32) : (answer s v).srch = s.srch := rfl
@[simp] theorem answer_flcs (v : W32) : (answer s v).flcs = s.flcs := rfl
@[simp] theorem answer_ftla (v : W32) : (answer s v).ftla = s.ftla := rfl
@[simp] theorem answer_dram (v : W32) : (answer s v).dram = s.dram := rfl
@[simp] theorem answer_drc (v : W32) : (answer s v).drc = s.drc := rfl
@[simp] theorem answer_memi (v : W32) : (answer s v).memi = s.memi := rfl
@[simp] theorem answer_nrg (v : W32) : (answer s v).nrg = s.nrg := rfl
@[simp] theorem answer_time (v : W32) : (answer s v).time = s.time := rfl
@[simp] theorem answer_flt (v : W32) : (answer s v).flt = s.flt := rfl
@[simp] theorem answer_sbd (v : W32) : (answer s v).sbd = s.sbd := rfl
@[simp] theorem answer_hdrs (v : W32) : (answer s v).hdrs = s.hdrs := rfl
@[simp] theorem answer_pmon (v : W32) : (answer s v).pmon = s.pmon := rfl
@[simp] theorem answer_clkLock (v : W32) : (answer s v).clkLock = s.clkLock := rfl
@[simp] theorem answer_clkLoss (v : W32) : (answer s v).clkLoss = s.clkLoss := rfl
@[simp] theorem answer_out (v : W32) : (answer s v).out = { s.out with reg := v } := rfl

@[simp] theorem takeFree_now : (takeFree s).2.now = s.now := rfl
@[simp] theorem takeFree_freeCtr : (takeFree s).2.freeCtr = s.freeCtr + 1 := rfl
@[simp] theorem takeFree_pending : (takeFree s).2.pending = s.pending := rfl
@[simp] theorem takeFree_fuse : (takeFree s).2.fuse = s.fuse := rfl
@[simp] theorem takeFree_nv : (takeFree s).2.nv = s.nv := rfl
@[simp] theorem takeFree_pw : (takeFree s).2.pw = s.pw := rfl
@[simp] theorem takeFree_rst : (takeFree s).2.rst = s.rst := rfl
@[simp] theorem takeFree_host : (takeFree s).2.host = s.host := rfl
@[simp] theorem takeFree_pol : (takeFree s).2.pol = s.pol := rfl
@[simp] theorem takeFree_progs : (takeFree s).2.progs = s.progs := rfl
@[simp] theorem takeFree_rsets : (takeFree s).2.rsets = s.rsets := rfl
@[simp] theorem takeFree_jobs : (takeFree s).2.jobs = s.jobs := rfl
@[simp] theorem takeFree_nextJob : (takeFree s).2.nextJob = s.nextJob := rfl
@[simp] theorem takeFree_void : (takeFree s).2.void = s.void := rfl
@[simp] theorem takeFree_cores : (takeFree s).2.cores = s.cores := rfl
@[simp] theorem takeFree_bpm : (takeFree s).2.bpm = s.bpm := rfl
@[simp] theorem takeFree_isl : (takeFree s).2.isl = s.isl := rfl
@[simp] theorem takeFree_cmpr : (takeFree s).2.cmpr = s.cmpr := rfl
@[simp] theorem takeFree_srch : (takeFree s).2.srch = s.srch := rfl
@[simp] theorem takeFree_flcs : (takeFree s).2.flcs = s.flcs := rfl
@[simp] theorem takeFree_ftla : (takeFree s).2.ftla = s.ftla := rfl
@[simp] theorem takeFree_dram : (takeFree s).2.dram = s.dram := rfl
@[simp] theorem takeFree_drc : (takeFree s).2.drc = s.drc := rfl
@[simp] theorem takeFree_memi : (takeFree s).2.memi = s.memi := rfl
@[simp] theorem takeFree_nrg : (takeFree s).2.nrg = s.nrg := rfl
@[simp] theorem takeFree_time : (takeFree s).2.time = s.time := rfl
@[simp] theorem takeFree_flt : (takeFree s).2.flt = s.flt := rfl
@[simp] theorem takeFree_sbd : (takeFree s).2.sbd = s.sbd := rfl
@[simp] theorem takeFree_hdrs : (takeFree s).2.hdrs = s.hdrs := rfl
@[simp] theorem takeFree_pmon : (takeFree s).2.pmon = s.pmon := rfl
@[simp] theorem takeFree_clkLock : (takeFree s).2.clkLock = s.clkLock := rfl
@[simp] theorem takeFree_clkLoss : (takeFree s).2.clkLoss = s.clkLoss := rfl
@[simp] theorem takeFree_out : (takeFree s).2.out = s.out := rfl
@[simp] theorem takeFree_fst : (takeFree s).1 = s.freeCtr := rfl

@[simp] theorem modJob_now (j : Nat) (f : Job → Job) : (modJob s j f).now = s.now := by unfold modJob; split <;> rfl
@[simp] theorem modJob_freeCtr (j : Nat) (f : Job → Job) : (modJob s j f).freeCtr = s.freeCtr := by unfold modJob; split <;> rfl
@[simp] theorem modJob_pending (j : Nat) (f : Job → Job) : (modJob s j f).pending = s.pending := by unfold modJob; split <;> rfl
@[simp] theorem modJob_fuse (j : Nat) (f : Job → Job) : (modJob s j f).fuse = s.fuse := by unfold modJob; split <;> rfl
@[simp] theorem modJob_nv (j : Nat) (f : Job → Job) : (modJob s j f).nv = s.nv := by unfold modJob; split <;> rfl
@[simp] theorem modJob_pw (j : Nat) (f : Job → Job) : (modJob s j f).pw = s.pw := by unfold modJob; split <;> rfl
@[simp] theorem modJob_rst (j : Nat) (f : Job → Job) : (modJob s j f).rst = s.rst := by unfold modJob; split <;> rfl
@[simp] theorem modJob_host (j : Nat) (f : Job → Job) : (modJob s j f).host = s.host := by unfold modJob; split <;> rfl
@[simp] theorem modJob_pol (j : Nat) (f : Job → Job) : (modJob s j f).pol = s.pol := by unfold modJob; split <;> rfl
@[simp] theorem modJob_progs (j : Nat) (f : Job → Job) : (modJob s j f).progs = s.progs := by unfold modJob; split <;> rfl
@[simp] theorem modJob_rsets (j : Nat) (f : Job → Job) : (modJob s j f).rsets = s.rsets := by unfold modJob; split <;> rfl
@[simp] theorem modJob_nextJob (j : Nat) (f : Job → Job) : (modJob s j f).nextJob = s.nextJob := by unfold modJob; split <;> rfl
@[simp] theorem modJob_void (j : Nat) (f : Job → Job) : (modJob s j f).void = s.void := by unfold modJob; split <;> rfl
@[simp] theorem modJob_cores (j : Nat) (f : Job → Job) : (modJob s j f).cores = s.cores := by unfold modJob; split <;> rfl
@[simp] theorem modJob_bpm (j : Nat) (f : Job → Job) : (modJob s j f).bpm = s.bpm := by unfold modJob; split <;> rfl
@[simp] theorem modJob_isl (j : Nat) (f : Job → Job) : (modJob s j f).isl = s.isl := by unfold modJob; split <;> rfl
@[simp] theorem modJob_cmpr (j : Nat) (f : Job → Job) : (modJob s j f).cmpr = s.cmpr := by unfold modJob; split <;> rfl
@[simp] theorem modJob_srch (j : Nat) (f : Job → Job) : (modJob s j f).srch = s.srch := by unfold modJob; split <;> rfl
@[simp] theorem modJob_flcs (j : Nat) (f : Job → Job) : (modJob s j f).flcs = s.flcs := by unfold modJob; split <;> rfl
@[simp] theorem modJob_ftla (j : Nat) (f : Job → Job) : (modJob s j f).ftla = s.ftla := by unfold modJob; split <;> rfl
@[simp] theorem modJob_dram (j : Nat) (f : Job → Job) : (modJob s j f).dram = s.dram := by unfold modJob; split <;> rfl
@[simp] theorem modJob_drc (j : Nat) (f : Job → Job) : (modJob s j f).drc = s.drc := by unfold modJob; split <;> rfl
@[simp] theorem modJob_memi (j : Nat) (f : Job → Job) : (modJob s j f).memi = s.memi := by unfold modJob; split <;> rfl
@[simp] theorem modJob_nrg (j : Nat) (f : Job → Job) : (modJob s j f).nrg = s.nrg := by unfold modJob; split <;> rfl
@[simp] theorem modJob_time (j : Nat) (f : Job → Job) : (modJob s j f).time = s.time := by unfold modJob; split <;> rfl
@[simp] theorem modJob_flt (j : Nat) (f : Job → Job) : (modJob s j f).flt = s.flt := by unfold modJob; split <;> rfl
@[simp] theorem modJob_sbd (j : Nat) (f : Job → Job) : (modJob s j f).sbd = s.sbd := by unfold modJob; split <;> rfl
@[simp] theorem modJob_hdrs (j : Nat) (f : Job → Job) : (modJob s j f).hdrs = s.hdrs := by unfold modJob; split <;> rfl
@[simp] theorem modJob_pmon (j : Nat) (f : Job → Job) : (modJob s j f).pmon = s.pmon := by unfold modJob; split <;> rfl
@[simp] theorem modJob_clkLock (j : Nat) (f : Job → Job) : (modJob s j f).clkLock = s.clkLock := by unfold modJob; split <;> rfl
@[simp] theorem modJob_clkLoss (j : Nat) (f : Job → Job) : (modJob s j f).clkLoss = s.clkLoss := by unfold modJob; split <;> rfl
@[simp] theorem modJob_out (j : Nat) (f : Job → Job) : (modJob s j f).out = s.out := by unfold modJob; split <;> rfl

end Sys2Proof.Machine
end

