-- ==== Sys2Proof/Laws/Table.lean ====
section
/-! SUPPORT. Sparse tables and byte memory: a read after a write, a write leaves other keys alone, and every operation keeps the
canonical form. -/

namespace Sys2Proof.Machine

open Sys2Proof

variable {α : Type}

/-! ## Reads and writes -/

theorem tget_nil (d : α) (k : Nat) : tget [] d k = d := rfl

theorem tget_cons (d : α) (k : Nat) (e : Nat × α) (t : Tbl α) :
    tget (e :: t) d k = if e.1 = k then e.2 else tget t d k := rfl

/-- Every key of the table is above a bound. -/
theorem tsorted_weaken (t : Tbl α) (lo : Option Nat) (h : tsorted t lo = true) : tsorted t none = true := by
  cases t with
  | nil => rfl
  | cons e r =>
    obtain ⟨j, v⟩ := e
    cases lo <;> simp_all [tsorted]

theorem tsorted_cons (j : Nat) (v : α) (r : Tbl α) (lo : Option Nat) :
    tsorted ((j, v) :: r) lo = ((match lo with | none => true | some l => decide (l < j)) && tsorted r (some j)) := rfl

theorem tsorted_mono (t : Tbl α) (a b : Nat) (hab : a ≤ b) (h : tsorted t (some b) = true) : tsorted t (some a) = true := by
  cases t with
  | nil => rfl
  | cons e r =>
    obtain ⟨j, v⟩ := e
    simp only [tsorted_cons, Bool.and_eq_true, decide_eq_true_eq] at h ⊢
    exact ⟨by omega, h.2⟩

/-- A key at or below the bound of a sorted table is unlisted. -/
theorem tget_low (t : Tbl α) (d : α) (k b : Nat) (h : tsorted t (some b) = true) (hk : k ≤ b) : tget t d k = d := by
  induction t generalizing b with
  | nil => rfl
  | cons e r ih =>
    obtain ⟨j, v⟩ := e
    simp only [tsorted_cons, Bool.and_eq_true, decide_eq_true_eq] at h
    rw [tget_cons, if_neg (by simp; omega)]
    exact ih j h.2 (by omega)

theorem tget_tput_same (t : Tbl α) (d v : α) (k : Nat) : tget (tput t k v) d k = v := by
  induction t with
  | nil => simp [tput, tget]
  | cons e r ih =>
    obtain ⟨j, w⟩ := e
    simp only [tput]
    split
    · simp [tget]
    · split
      · simp [tget]
      · simp [tget_cons, *]

theorem tget_tput_ne (t : Tbl α) (d v : α) (k n : Nat) (h : n ≠ k) : tget (tput t k v) d n = tget t d n := by
  induction t with
  | nil => simp [tput, tget, Ne.symm h]
  | cons e r ih =>
    obtain ⟨j, w⟩ := e
    simp only [tput]
    split
    · rename_i hj; subst hj; simp [tget, Ne.symm h]
    · split
      · simp [tget, Ne.symm h]
      · simp [tget_cons, ih]

theorem tget_tdel_ne (t : Tbl α) (d : α) (k n : Nat) (h : n ≠ k) : tget (tdel t k) d n = tget t d n := by
  induction t with
  | nil => rfl
  | cons e r ih =>
    obtain ⟨j, w⟩ := e
    simp only [tdel]
    split
    · rename_i hj; subst hj; simp [tget, Ne.symm h, ih]
    · simp [tget_cons, ih]

theorem tget_tdel_same (t : Tbl α) (d : α) (k : Nat) : tget (tdel t k) d k = d := by
  induction t with
  | nil => rfl
  | cons e r ih =>
    obtain ⟨j, w⟩ := e
    simp only [tdel]
    split
    · exact ih
    · rename_i hj
      rw [tget_cons, if_neg hj]
      exact ih

/-- A write leaves every other key alone. -/
theorem tget_tset_ne [DecidableEq α] (t : Tbl α) (d v : α) (k n : Nat) (h : n ≠ k) : tget (tset t d k v) d n = tget t d n := by
  unfold tset
  split
  · exact tget_tdel_ne t d k n h
  · exact tget_tput_ne t d v k n h

/-- A read after a write gives the value written. -/
@[simp] theorem tget_tset_same [DecidableEq α] (t : Tbl α) (d v : α) (k : Nat) : tget (tset t d k v) d k = v := by
  unfold tset
  split
  · rename_i hv; rw [hv]; exact tget_tdel_same t d k
  · exact tget_tput_same t d v k

/-- A read after a write, in one equation. -/
theorem tget_tset [DecidableEq α] (t : Tbl α) (d v : α) (k n : Nat) : tget (tset t d k v) d n = if n = k then v else tget t d n := by
  split
  · rename_i h; rw [h]; exact tget_tset_same t d v k
  · rename_i h; exact tget_tset_ne t d v k n h

/-- A read after a change, in one equation. -/
theorem tget_tmod [DecidableEq α] (t : Tbl α) (d : α) (k n : Nat) (f : α → α) :
    tget (tmod t d k f) d n = if n = k then f (tget t d k) else tget t d n :=
  tget_tset t d _ k n

/-! ## The canonical form is kept -/

theorem tsorted_tdel (t : Tbl α) (k : Nat) (lo : Option Nat) (h : tsorted t lo = true) : tsorted (tdel t k) lo = true := by
  induction t generalizing lo with
  | nil => exact h
  | cons e r ih =>
    obtain ⟨j, w⟩ := e
    simp only [tsorted_cons, Bool.and_eq_true] at h
    simp only [tdel]
    split
    · cases lo with
      | none => exact ih none (tsorted_weaken r _ h.2)
      | some l => exact ih (some l) (tsorted_mono r l j (by have := h.1; simp at this; omega) h.2)
    · simp only [tsorted_cons, Bool.and_eq_true]
      exact ⟨h.1, ih (some j) h.2⟩

theorem tsorted_tput (t : Tbl α) (k : Nat) (v : α) (lo : Option Nat) (h : tsorted t lo = true)
    (hk : ∀ l, lo = some l → l < k) : tsorted (tput t k v) lo = true := by
  induction t generalizing lo with
  | nil =>
    cases lo with
    | none => rfl
    | some l => simp [tput, tsorted, hk l rfl]
  | cons e r ih =>
    obtain ⟨j, w⟩ := e
    simp only [tsorted_cons, Bool.and_eq_true] at h
    simp only [tput]
    split
    · rename_i hj; subst hj; simp only [tsorted_cons, Bool.and_eq_true]; exact h
    · split
      · rename_i hlt
        simp only [tsorted_cons, Bool.and_eq_true, decide_eq_true_eq]
        refine ⟨?_, hlt, h.2⟩
        cases lo with
        | none => rfl
        | some l => simpa using hk l rfl
      · rename_i hne hge
        simp only [tsorted_cons, Bool.and_eq_true]
        refine ⟨h.1, ih (some j) h.2 ?_⟩
        intro l hl
        cases hl
        omega

theorem all_tdel (t : Tbl α) (k : Nat) (p : Nat × α → Bool) (h : t.all p = true) : (tdel t k).all p = true := by
  induction t with
  | nil => exact h
  | cons e r ih =>
    obtain ⟨j, w⟩ := e
    simp only [List.all_cons, Bool.and_eq_true] at h
    simp only [tdel]
    split
    · exact ih h.2
    · simp only [List.all_cons, Bool.and_eq_true]; exact ⟨h.1, ih h.2⟩

theorem all_tput (t : Tbl α) (k : Nat) (v : α) (p : Nat × α → Bool) (h : t.all p = true) (hv : p (k, v) = true) :
    (tput t k v).all p = true := by
  induction t with
  | nil => simp [tput, hv]
  | cons e r ih =>
    obtain ⟨j, w⟩ := e
    simp only [List.all_cons, Bool.and_eq_true] at h
    simp only [tput]
    split
    · simp only [List.all_cons, Bool.and_eq_true]; exact ⟨hv, h.2⟩
    · split
      · simp only [List.all_cons, Bool.and_eq_true]; exact ⟨hv, h⟩
      · simp only [List.all_cons, Bool.and_eq_true]; exact ⟨h.1, ih h.2⟩

/-- A write keeps the canonical form. -/
theorem twf_tset [DecidableEq α] (t : Tbl α) (d v : α) (k : Nat) (h : twf t d = true) : twf (tset t d k v) d = true := by
  simp only [twf, Bool.and_eq_true] at h ⊢
  unfold tset
  split
  · exact ⟨tsorted_tdel t k none h.1, all_tdel t k _ h.2⟩
  · rename_i hv
    exact ⟨tsorted_tput t k v none h.1 (by simp), all_tput t k v _ h.2 (by simpa using hv)⟩

theorem twf_tmod [DecidableEq α] (t : Tbl α) (d : α) (k : Nat) (f : α → α) (h : twf t d = true) : twf (tmod t d k f) d = true :=
  twf_tset t d _ k h

theorem tsorted_tdrop (t : Tbl α) (p : Nat → α → Bool) (lo : Option Nat) (h : tsorted t lo = true) :
    tsorted (tdrop t p) lo = true := by
  induction t generalizing lo with
  | nil => exact h
  | cons e r ih =>
    obtain ⟨j, w⟩ := e
    simp only [tsorted_cons, Bool.and_eq_true] at h
    unfold tdrop at ih ⊢
    simp only [List.filter_cons]
    split
    · simp only [tsorted_cons, Bool.and_eq_true]; exact ⟨h.1, ih (some j) h.2⟩
    · cases lo with
      | none => exact tsorted_weaken _ _ (ih (some j) h.2)
      | some l => exact tsorted_mono _ l j (by have := h.1; simp at this; omega) (ih (some j) h.2)

/-- Dropping entries keeps the canonical form. -/
theorem twf_tdrop [DecidableEq α] (t : Tbl α) (d : α) (p : Nat → α → Bool) (h : twf t d = true) : twf (tdrop t p) d = true := by
  simp only [twf, Bool.and_eq_true] at h ⊢
  refine ⟨tsorted_tdrop t p none h.1, ?_⟩
  have h2 := h.2
  rw [List.all_eq_true] at h2 ⊢
  intro e he
  exact h2 e (List.mem_of_mem_filter he)

theorem tget_tdrop_keep (t : Tbl α) (d : α) (p : Nat → α → Bool) (k : Nat) (h : ∀ v, p k v = false) :
    tget (tdrop t p) d k = tget t d k := by
  induction t with
  | nil => rfl
  | cons e r ih =>
    obtain ⟨j, w⟩ := e
    unfold tdrop at ih ⊢
    simp only [List.filter_cons]
    split
    · simp only [tget_cons, ih]
    · rename_i hp
      rw [ih, tget_cons]
      by_cases hj : j = k
      · subst hj; simp [h w] at hp
      · simp [hj]

/-- A key that the test picks whatever its value reads as unlisted. -/
theorem tget_tdrop_drop (t : Tbl α) (d : α) (p : Nat → α → Bool) (k : Nat) (h : ∀ v, p k v = true) : tget (tdrop t p) d k = d := by
  induction t with
  | nil => rfl
  | cons e r ih =>
    obtain ⟨j, w⟩ := e
    unfold tdrop at ih ⊢
    simp only [List.filter_cons]
    split
    · rename_i hp
      have hj : j ≠ k := by intro hjk; subst hjk; simp [h w] at hp
      rw [tget_cons, if_neg hj, ih]
    · exact ih

/-! ## Byte memory -/

theorem wf_nil : Memory.wf [] = true := rfl

theorem wf_sorted (m : Memory) (h : Memory.wf m = true) : tsorted m none = true := by
  simp only [Memory.wf, twf, Bool.and_eq_true] at h
  exact h.1

/-- Writing a byte keeps the canonical form. -/
theorem wf_writeByte (m : Memory) (a : Nat) (b : Byte) (h : Memory.wf m = true) : Memory.wf (writeByte m a b) = true :=
  twf_tset m 0 b a h

/-- Writing bytes keeps the canonical form. -/
theorem wf_writeBytes (bs : Bytes) (m : Memory) (a : Nat) (h : Memory.wf m = true) : Memory.wf (writeBytes m a bs) = true := by
  induction bs generalizing m a with
  | nil => exact h
  | cons b r ih => exact ih _ _ (wf_writeByte m a b h)

/-- Zeroing bytes keeps the canonical form. -/
theorem wf_zeroBytes (m : Memory) (a n : Nat) (h : Memory.wf m = true) : Memory.wf (zeroBytes m a n) = true := twf_tdrop m 0 _ h

/-- A byte written reads back. -/
theorem readByte_writeByte_same (m : Memory) (a : Nat) (b : Byte) : readByte (writeByte m a b) a = b :=
  tget_tset_same m 0 b a

/-- A byte written leaves every other byte alone. -/
theorem readByte_writeByte_ne (m : Memory) (a n : Nat) (b : Byte) (h : n ≠ a) : readByte (writeByte m a b) n = readByte m n :=
  tget_tset_ne m 0 b a n h

/-- Bytes written leave every byte outside them alone. -/
theorem readByte_writeBytes_ne (bs : Bytes) (m : Memory) (a n : Nat) (h : n < a ∨ a + bs.length ≤ n) :
    readByte (writeBytes m a bs) n = readByte m n := by
  induction bs generalizing m a with
  | nil => rfl
  | cons b r ih =>
    simp only [List.length_cons] at h
    simp only [writeBytes]
    rw [ih _ _ (by omega), readByte_writeByte_ne _ _ _ _ (by omega)]

/-- Bytes written read back. -/
theorem readByte_writeBytes_same (bs : Bytes) (m : Memory) (a i : Nat) (hi : i < bs.length) :
    readByte (writeBytes m a bs) (a + i) = bs[i] := by
  induction bs generalizing m a i with
  | nil => simp at hi
  | cons b r ih =>
    simp only [writeBytes]
    cases i with
    | zero =>
      rw [readByte_writeBytes_ne _ _ _ _ (by omega)]
      simpa using readByte_writeByte_same m a b
    | succ j =>
      have := ih (writeByte m a b) (a + 1) j (by simpa using hi)
      simpa [Nat.add_assoc, Nat.add_comm 1 j] using this

/-- A byte zeroed reads as zero. -/
theorem readByte_zeroBytes_in (m : Memory) (a n k : Nat) (h : a ≤ k ∧ k < a + n) : readByte (zeroBytes m a n) k = 0 := by
  unfold readByte zeroBytes
  exact tget_tdrop_drop m 0 _ k (by intro v; simp [h])

/-- Zeroing leaves every other byte alone. -/
theorem readByte_zeroBytes_out (m : Memory) (a n k : Nat) (h : k < a ∨ a + n ≤ k) : readByte (zeroBytes m a n) k = readByte m k := by
  unfold readByte zeroBytes
  exact tget_tdrop_keep m 0 _ k (by intro v; simp; omega)

end Sys2Proof.Machine
end

