-- ==== Sys2Proof/Laws/Cores.lean ====
section
/-! SUPPORT. What an instruction word does to the machine besides its own result: one lemma per shared operation of the
cores, which proofs cite instead of unfolding the operation. -/

namespace Sys2Proof.Machine

open Sys2Proof

/-! ## Cores, accounts, jobs -/

@[simp] theorem core_setCore_same (s : State) (c : Nat) (k : Core) : core (setCore s c k) c = k := by
  simp [core]

theorem core_setCore_ne (s : State) (c d : Nat) (k : Core) (h : d ≠ c) : core (setCore s c k) d = core s d := by
  simp [core, tget_tset_ne _ _ _ _ _ h]

@[simp] theorem setCore_setCore_core (s : State) (c d : Nat) (k l : Core) :
    core (setCore (setCore s c k) c l) d = core (setCore s c l) d := by
  by_cases h : d = c
  · subst h; simp
  · simp [core_setCore_ne _ _ _ _ h]

theorem acct_modAcct (s : State) (p q : Nat) (f : Acct → Acct) :
    acct (modAcct s p f) q = if q = p then f (acct s p) else acct s q := by
  simp only [acct, modAcct_nrg]
  exact tget_tmod _ _ _ _ _

theorem job_setJob (s : State) (j i : Nat) (v : Option Job) : job (setJob s j v) i = if i = j then v else job s i := by
  simp only [job, setJob_jobs]
  exact tget_tset _ _ _ _ _

theorem counter_modCounter (k : Core) (n i : Nat) (f : Counter → Counter) :
    counter (modCounter k n f) i = if i = n then f (counter k n) else counter k i := by
  simp only [counter, modCounter]
  exact tget_tmod _ _ _ _ _

/-! ## Registers -/

/-- Writing a register (R118). -/
theorem rget_rset (k : Core) (rd r : BitVec 5) (v : W36) :
    rget (rset k rd v) r = if r = rd ∧ r ≠ 0 then v else rget k r := by
  unfold rset rget
  by_cases h0 : rd = 0
  · simp only [h0, if_true]
    split <;> simp_all
  · simp only [h0, if_false]
    by_cases hr : r = 0
    · simp [hr]
    · simp only [hr, if_false, tget_tset]
      by_cases he : r = rd
      · have h1 : ¬ rd = 0#5 := h0
        simp [he, h1]
      · have : r.toNat ≠ rd.toNat := fun e => he (BitVec.eq_of_toNat_eq e)
        simp [he, this]

theorem rset_rest (k : Core) (rd : BitVec 5) (v : W36) : rset k rd v = { k with regs := (rset k rd v).regs } := by
  unfold rset; split <;> rfl

/-! ## Charging the cycles -/

theorem onlyCharges_refl (s : State) : OnlyCharges s s := ⟨rfl, fun _ => rfl, fun _ => rfl⟩

theorem onlyCharges_trans (s t u : State) (h : OnlyCharges s t) (g : OnlyCharges t u) : OnlyCharges s u := by
  refine ⟨?_, fun p => ?_, fun j => ?_⟩
  · rw [g.nrg, h.nrg]
  · rw [g.accounts p, h.accounts p]
  · rw [g.jobs j, h.jobs j]

theorem charge_only (s : State) (p n : Nat) : OnlyCharges s (charge s p n) := by
  refine ⟨rfl, fun q => ?_, fun j => rfl⟩
  simp only [charge, acct_modAcct]
  split
  · rename_i h; subst h; rfl
  · rfl

theorem charge_rest (s : State) (p n : Nat) : charge s p n = { s with nrg := (charge s p n).nrg } := rfl

theorem chargeJob_rest (s : State) (p : Nat) (j : Option Nat) (n : Nat) :
    chargeJob s p j n = { s with jobs := (chargeJob s p j n).jobs, nrg := (chargeJob s p j n).nrg } := by
  unfold chargeJob modJob
  split
  · rfl
  · split
    · rfl
    · split <;> rfl

theorem chargeJob_only (s : State) (p : Nat) (j : Option Nat) (n : Nat) : OnlyCharges s (chargeJob s p j n) := by
  unfold chargeJob
  split
  · exact charge_only s p n
  · rename_i i
    split
    · exact charge_only s p n
    · rename_i v hv
      refine ⟨by simp, fun q => ?_, fun q => ?_⟩
      · rw [acct_modAcct]
        split
        · rename_i h; subst h
          simp [acct]
        · simp [acct]
      · simp only [modAcct_jobs, job, modJob]
        have hv' : tget s.jobs none i = some v := hv
        rw [hv']
        simp only [setJob_jobs, tget_tset]
        split
        · rename_i h; subst h; simp [hv']
        · rfl

/-! ## Counters -/

theorem bump_frame (v : Counter) (d : Nat) (pc : W36) (sl ad la : Nat) :
    bump v d pc sl ad la = { v with val := (bump v d pc sl ad la).val, wraps := (bump v d pc sl ad la).wraps } := by
  unfold bump
  dsimp only
  split <;> rfl

/-- What a change of the counters alone leaves. -/
structure OnlyCounts (k l : Core) : Prop where
  rest : l = { k with cnt := l.cnt }
  counters : ∀ n, counter l n = { counter k n with val := (counter l n).val, wraps := (counter l n).wraps }

theorem onlyCounts_refl (k : Core) : OnlyCounts k k := ⟨rfl, fun _ => rfl⟩

theorem onlyCounts_trans (k l m : Core) (h : OnlyCounts k l) (g : OnlyCounts l m) : OnlyCounts k m := by
  refine ⟨?_, fun n => ?_⟩
  · rw [g.rest, h.rest]
  · rw [g.counters n, h.counters n]

theorem onlyCounts_mod (k : Core) (n : Nat) (d : Counter → Nat) (pc : W36) (sl ad la : Nat) :
    OnlyCounts k (modCounter k n (fun v => bump v (d v) pc sl ad la)) := by
  refine ⟨rfl, fun i => ?_⟩
  rw [counter_modCounter]
  split
  · rename_i h; subst h; exact bump_frame _ _ _ _ _ _
  · rfl

theorem onlyCounts_foldl {α : Type} (l : List α) (f : Core → α → Core) (hf : ∀ k a, OnlyCounts k (f k a)) (k : Core) :
    OnlyCounts k (l.foldl f k) := by
  induction l generalizing k with
  | nil => exact onlyCounts_refl k
  | cons a r ih => exact onlyCounts_trans _ _ _ (hf k a) (ih (f k a))

/-- Counting a word changes counter values only. -/
theorem countWord_only (k : Core) (evs : List Nat) (cy st sl ad la : Nat) : OnlyCounts k (countWord k evs cy st sl ad la) := by
  unfold countWord
  refine onlyCounts_foldl _ _ (fun k n => ?_) k
  dsimp only
  split
  · split
    · exact onlyCounts_refl k
    · exact onlyCounts_mod k n (fun _ => _) _ _ _ _
  · exact onlyCounts_refl k

/-- Counting a level event changes counter values only. -/
theorem countLevel_only (k : Core) (ev n : Nat) (b : Bool) : OnlyCounts k (countLevel k ev n b) := by
  unfold countLevel
  refine onlyCounts_foldl _ _ (fun k n => ?_) k
  dsimp only
  split
  · exact onlyCounts_mod k n (fun v => if cfgEdge v.cfg then _ else _) _ _ _ _
  · exact onlyCounts_refl k

/-! ## Retirement -/

/-- What retiring a word changes: the counters and the cycle counter of its core, and the accounts. -/
theorem retireParts_only (s : State) (c : Nat) (pc0 : W36) (ps : List (List Nat × Nat × Option Nat)) :
    OnlyCore s (retireParts s c pc0 ps) c ∧
      core (retireParts s c pc0 ps) c =
        { core s c with cnt := (core (retireParts s c pc0 ps) c).cnt, cyc := (core (retireParts s c pc0 ps) c).cyc,
                        stalled := false, routine := none } ∧
      ∀ n, counter (core (retireParts s c pc0 ps) c) n = { counter (core s c) n with
        val := (counter (core (retireParts s c pc0 ps) c) n).val, wraps := (counter (core (retireParts s c pc0 ps) c) n).wraps } := by
  unfold retireParts
  simp only [takeFree]
  generalize hs3 : ({ s with freeCtr := s.freeCtr + 1 + 1 + 1 } : State) = s3
  have hcore : ∀ d, core s3 d = core s d := by intro d; rw [← hs3]; rfl
  simp only [hcore]
  generalize hk : List.foldl _ _ ps = k1
  have hk1 : OnlyCounts { core s c with pc := pc0 } k1 := by
    rw [← hk]
    refine onlyCounts_trans _ _ _ (countWord_only _ _ _ _ _ _ _) (onlyCounts_foldl _ _ (fun k a => countWord_only _ _ _ _ _ _ _) _)
  generalize hcy : (core s c).cyc + _ = cy
  generalize hq : ({ k1 with pc := (core s c).pc, cyc := cy, stalled := false, routine := none } : Core) = q
  generalize hn : coreFj _ _ = n
  have hch := chargeJob_only (setCore s3 c q) (core s c).polder (core s c).job n
  have hr := chargeJob_rest (setCore s3 c q) (core s c).polder (core s c).job n
  generalize chargeJob (setCore s3 c q) (core s c).polder (core s c).job n = t at hch hr
  have htc : t.cores = (setCore s3 c q).cores := by rw [hr]
  have hcd : ∀ d, core t d = core (setCore s3 c q) d := by intro d; simp only [core, htc]
  refine ⟨⟨?_, fun d hd => ?_, ?_⟩, ?_, fun i => ?_⟩
  · rw [hr, ← hs3]; rfl
  · rw [hcd, core_setCore_ne _ _ _ _ hd, hcore]
  · refine ⟨?_, fun p => ?_, fun j => ?_⟩
    · rw [hch.nrg, ← hs3]; rfl
    · have := hch.accounts p
      rw [← hs3] at this; exact this
    · have := hch.jobs j
      rw [← hs3] at this; exact this
  · rw [hcd, core_setCore_same, ← hq, hk1.rest]
  · rw [hcd, core_setCore_same, ← hq]
    exact hk1.counters i

theorem onlyCore_trans (s t u : State) (c : Nat) (h : OnlyCore s t c) (g : OnlyCore t u c) : OnlyCore s u c := by
  refine ⟨?_, fun d hd => ?_, onlyCharges_trans s t u h.charges g.charges⟩
  · rw [g.rest, h.rest]
  · rw [g.others d hd, h.others d hd]

theorem setCore_only (s : State) (c : Nat) (k : Core) : OnlyCore s (setCore s c k) c :=
  ⟨rfl, fun d hd => core_setCore_ne s c d k hd, ⟨rfl, fun _ => rfl, fun _ => rfl⟩⟩

/-- A word that changes its own core and retires. -/
theorem runWord_ok (s : State) (c : Nat) (f : State → Ran) (k : Core) (evs : List Nat) (ad : Option Nat)
    (h : CanRun s c) (hf : f s = .ok (setCore s c k) evs ad) :
    OnlyCore s (runWord c s f) c ∧
      core (runWord c s f) c = { k with cnt := (core (runWord c s f) c).cnt, cyc := (core (runWord c s f) c).cyc,
                                          stalled := false, routine := none } ∧
      ∀ n, counter (core (runWord c s f) c) n = { counter k n with
        val := (counter (core (runWord c s f) c) n).val, wraps := (counter (core (runWord c s f) c) n).wraps } := by
  unfold runWord
  rw [if_pos h.1, h.2]
  simp only [hf, retire]
  have hr := retireParts_only (setCore s c k) c (core s c).pc [(evs, 0, ad)]
  rw [core_setCore_same] at hr
  exact ⟨onlyCore_trans _ _ _ _ (setCore_only s c k) hr.1, hr.2.1, hr.2.2⟩

/-- A word that writes a register and the flags of its own core and goes on completes with exactly that. -/
theorem runWord_result (s : State) (c : Nat) (f : State → Ran) (rd : BitVec 5) (v : W36) (g : BitVec 4) (pc : W36)
    (evs : List Nat) (ad : Option Nat) (h : CanRun s c)
    (hf : f s = .ok (setCore s c { rset (core s c) rd v with flags := g, pc := pc }) evs ad) :
    OnlyCore s (runWord c s f) c ∧ SameContext (core s c) (core (runWord c s f) c) ∧
      WritesReg (core s c) (core (runWord c s f) c) rd v ∧ (core (runWord c s f) c).flags = g ∧
      (core (runWord c s f) c).pc = pc := by
  have hr := runWord_ok s c f _ evs ad h hf
  generalize runWord c s f = t at hr
  obtain ⟨h1, h2, h3⟩ := hr
  have hs := rset_rest (core s c) rd v
  refine ⟨h1, ⟨?_, fun n => ?_⟩, fun r => ?_, by rw [h2], by rw [h2]⟩
  · rw [h2, hs]
  · rw [h3 n]
    have : counter { rset (core s c) rd v with flags := g, pc := pc } n = counter (core s c) n := by
      rw [hs]; rfl
    rw [this]
  · rw [h2, ← rget_rset]; rfl

/-- A word whose operation only computes a register and the flags. -/
theorem runWord_next (s : State) (c : Nat) (f : State → Ran) (rd : BitVec 5) (v : W36) (g : BitVec 4) (h : CanRun s c)
    (hf : f s = nextWord s c { rset (core s c) rd v with flags := g }) :
    OnlyCore s (runWord c s f) c ∧ SameContext (core s c) (core (runWord c s f) c) ∧
      WritesReg (core s c) (core (runWord c s f) c) rd v ∧ (core (runWord c s f) c).flags = g ∧
      (core (runWord c s f) c).pc = (core s c).pc + 1 := by
  refine runWord_result s c f rd v g _ [2, 3] none h ?_
  rw [hf, nextWord, rset_rest]

end Sys2Proof.Machine
end

