-- ==== Sys2Proof/Laws/Memory.lean ====
section
/-! SUPPORT. What the shared operations that write the two byte memories can do: the DRAM, the shared buffer SRAM and the subsystem
local memory inside the DRAM. One lemma says that both memories keep their canonical form, one which bytes of a memory a write may
change, one that it changes nothing else of the machine. -/

namespace Sys2Proof.Machine

open Sys2Proof

/-- The byte memories of the machine have their canonical form. -/
def MemsWf (s : State) : Prop := Memory.wf s.dram = true ∧ Memory.wf s.bpm.sram = true

theorem reset_memsWf : MemsWf State.reset := ⟨rfl, rfl⟩

/-! ## Clearing what was wrong with lines -/

@[simp] theorem clearLines_dram (s : State) (i l : Nat → Nat) (bs : List Nat) : (clearLines s i l bs).dram = s.dram := by
  unfold clearLines; split <;> rfl

@[simp] theorem clearLines_bpm (s : State) (i l : Nat → Nat) (bs : List Nat) : (clearLines s i l bs).bpm = s.bpm := by
  unfold clearLines; split <;> rfl

@[simp] theorem clearLines_drc (s : State) (i l : Nat → Nat) (bs : List Nat) : (clearLines s i l bs).drc = s.drc := by
  unfold clearLines; split <;> rfl

@[simp] theorem clearLines_void (s : State) (i l : Nat → Nat) (bs : List Nat) : (clearLines s i l bs).void = s.void := by
  unfold clearLines; split <;> rfl

/-- Clearing lines changes what is recorded of lines, nothing else. -/
theorem clearLines_rest (s : State) (i l : Nat → Nat) (bs : List Nat) :
    clearLines s i l bs = { s with memi := (clearLines s i l bs).memi } := by
  unfold clearLines; split <;> rfl

/-! ## DRAM -/

theorem dramWrite_dram (s : State) (x : Nat) (bs : Bytes) : (dramWrite s x bs).dram = writeBytes s.dram x bs := by
  simp [dramWrite]

@[simp] theorem dramWrite_bpm (s : State) (x : Nat) (bs : Bytes) : (dramWrite s x bs).bpm = s.bpm := by simp [dramWrite]

@[simp] theorem dramWrite_void (s : State) (x : Nat) (bs : Bytes) : (dramWrite s x bs).void = s.void := by simp [dramWrite]

/-- A DRAM write changes DRAM bytes, the write queue and what is recorded of lines, nothing else. -/
theorem dramWrite_rest (s : State) (x : Nat) (bs : Bytes) :
    dramWrite s x bs =
      { s with dram := (dramWrite s x bs).dram, drc := (dramWrite s x bs).drc, memi := (dramWrite s x bs).memi } := by
  unfold dramWrite; rw [clearLines_rest]

/-- A DRAM write reads back. -/
theorem dramWrite_same (s : State) (x : Nat) (bs : Bytes) (i : Nat) (hi : i < bs.length) :
    readByte (dramWrite s x bs).dram (x + i) = bs[i] := by
  rw [dramWrite_dram]; exact readByte_writeBytes_same bs s.dram x i hi

/-- A DRAM write leaves every byte outside it alone. -/
theorem dramWrite_other (s : State) (x n : Nat) (bs : Bytes) (h : n < x ∨ x + bs.length ≤ n) :
    readByte (dramWrite s x bs).dram n = readByte s.dram n := by
  rw [dramWrite_dram]; exact readByte_writeBytes_ne bs s.dram x n h

theorem dramWrite_memsWf (s : State) (x : Nat) (bs : Bytes) (h : MemsWf s) : MemsWf (dramWrite s x bs) := by
  refine ⟨?_, ?_⟩
  · rw [dramWrite_dram]; exact wf_writeBytes bs s.dram x h.1
  · rw [dramWrite_bpm]; exact h.2

/-! ## The shared buffer SRAM -/

theorem sramWrite_sram (s : State) (o : Nat) (bs : Bytes) : (sramWrite s o bs).bpm.sram = writeBytes s.bpm.sram o bs := by
  simp [sramWrite]

@[simp] theorem sramWrite_dram (s : State) (o : Nat) (bs : Bytes) : (sramWrite s o bs).dram = s.dram := by simp [sramWrite]

/-- An SRAM write changes SRAM bytes and what is recorded of lines, nothing else. -/
theorem sramWrite_rest (s : State) (o : Nat) (bs : Bytes) :
    sramWrite s o bs =
      { s with bpm := { s.bpm with sram := (sramWrite s o bs).bpm.sram }, memi := (sramWrite s o bs).memi } := by
  unfold sramWrite; rw [clearLines_rest]

/-- An SRAM write reads back. -/
theorem sramWrite_same (s : State) (o : Nat) (bs : Bytes) (i : Nat) (hi : i < bs.length) :
    readByte (sramWrite s o bs).bpm.sram (o + i) = bs[i] := by
  rw [sramWrite_sram]; exact readByte_writeBytes_same bs s.bpm.sram o i hi

/-- An SRAM write leaves every byte outside it alone. -/
theorem sramWrite_other (s : State) (o n : Nat) (bs : Bytes) (h : n < o ∨ o + bs.length ≤ n) :
    readByte (sramWrite s o bs).bpm.sram n = readByte s.bpm.sram n := by
  rw [sramWrite_sram]; exact readByte_writeBytes_ne bs s.bpm.sram o n h

theorem sramWrite_memsWf (s : State) (o : Nat) (bs : Bytes) (h : MemsWf s) : MemsWf (sramWrite s o bs) := by
  refine ⟨?_, ?_⟩
  · rw [sramWrite_dram]; exact h.1
  · rw [sramWrite_sram]; exact wf_writeBytes bs s.bpm.sram o h.2

/-! ## Subsystem local memory -/

theorem wf_zeroFold (bs : List Nat) (m : Memory) (base n : Nat) (h : Memory.wf m = true) :
    Memory.wf (bs.foldl (fun m b => zeroBytes m (base + b * n) n) m) = true := by
  induction bs generalizing m with
  | nil => exact h
  | cons b r ih => exact ih _ (wf_zeroBytes m _ _ h)

theorem slmWrite_memsWf (s : State) (o : Nat) (bs : Bytes) (h : MemsWf s) : MemsWf (slmWrite s o bs) := by
  unfold slmWrite
  exact dramWrite_memsWf _ _ _ ⟨wf_zeroFold _ _ _ _ h.1, h.2⟩

@[simp] theorem slmWrite_bpm (s : State) (o : Nat) (bs : Bytes) : (slmWrite s o bs).bpm = s.bpm := by
  unfold slmWrite; simp

/-- A DRAM read by the reader's own account changes the forwarding count and the counter of free values, no memory. -/
@[simp] theorem dramRead_dram (s : State) (x n : Nat) : (dramRead s x n).dram = s.dram := by
  unfold dramRead; simp only [takeFree]; split <;> rfl

@[simp] theorem dramRead_bpm (s : State) (x n : Nat) : (dramRead s x n).bpm = s.bpm := by
  unfold dramRead; simp only [takeFree]; split <;> rfl

/-- Counting an uncorrectable read changes no memory: the fault records it writes lie outside both. -/
theorem setLine_memsWf (s : State) (i l v : Nat) (h : MemsWf s) : MemsWf (setLine s i l v) := h

end Sys2Proof.Machine
end

