-- ==== Sys2Proof/Laws/Words.lean ====
section
/-! SUPPORT. What a word of each shared form gives: ALU, immediate and nonet words, and the flags they set. -/

namespace Sys2Proof.Machine

open Sys2Proof

/-- An ALU word with a zero modifier gives its function's result. -/
theorem wordResult_alu (i : Instr) (s : State) (c : Nat) (rd ra rb : BitVec 5) (f : AluFn) (h : CanRun s c)
    (hi : exec i s = .next (aluWord c rd ra rb 0 f s)) :
    WordResult i s c rd (f (rget (core s c) ra) (rget (core s c) rb) (core s c).flags).1
      (f (rget (core s c) ra) (rget (core s c) rb) (core s c).flags).2 ((core s c).pc + 1) :=
  ⟨_, hi, runWord_next s c _ rd _ _ h rfl⟩

/-- A nonet word gives its function's result. -/
theorem wordResult_nonet (i : Instr) (s : State) (c : Nat) (rd ra rb : BitVec 5) (o : Option AluFn) (f : AluFn) (h : CanRun s c)
    (hi : exec i s = .next (nonetWord c rd ra rb o s)) (ho : o = some f) :
    WordResult i s c rd (f (rget (core s c) ra) (rget (core s c) rb) (core s c).flags).1
      (f (rget (core s c) ra) (rget (core s c) rb) (core s c).flags).2 ((core s c).pc + 1) :=
  ⟨_, hi, runWord_next s c _ rd _ _ h (by subst ho; simp)⟩

/-- An immediate word whose zero fields are zero gives its function's result. -/
theorem wordResult_imm (i : Instr) (s : State) (c : Nat) (rd ra : BitVec 5) (ok : Bool)
    (f : W36 → BitVec 4 → W36 × BitVec 4) (h : CanRun s c)
    (hi : exec i s = .next (immWord c rd ra ok f s)) (ho : ok = true) :
    WordResult i s c rd (f (rget (core s c) ra) (core s c).flags).1
      (f (rget (core s c) ra) (core s c).flags).2 ((core s c).pc + 1) :=
  ⟨_, hi, runWord_next s c _ rd _ _ h (by subst ho; simp)⟩

/-! ## Flags -/

theorem setCV_withCV (g : BitVec 4) (x y : Bool) : setCV g x y = withCV g x y := by
  revert g x y; decide

theorem setT_withT (g : BitVec 4) (x : Bool) : setT g x = withT g x := by
  revert g x; decide

theorem tags4_nz (a b c d : Bool) : (tags4 a b c d != 0) = (a || b || c || d) := by
  revert a b c d; decide

/-! ## Nonets -/

theorem tags4_get (a b c d : Bool) (n : Nat) (h : n < 4) :
    (tags4 a b c d).getLsbD n = if n = 0 then a else if n = 1 then b else if n = 2 then c else d := by
  match n, h with
  | 0, _ => revert a b c d; decide
  | 1, _ => revert a b c d; decide
  | 2, _ => revert a b c d; decide
  | 3, _ => revert a b c d; decide

/-- The tag of a lane of a word built from tags and data. -/
theorem mkWord_tag (t : BitVec 4) (d : W32) (n : Nat) : (mkWord t d).getLsbD (32 + n) = t.getLsbD n := by
  exact (BitVec.getLsbD_append (x := t) (y := d) (i := 32 + n)).trans (by simp)

/-- The data bits of a word built from tags and data. -/
theorem mkWord_low (t : BitVec 4) (d : W32) (n : Nat) (h : n < 32) : (mkWord t d).getLsbD n = d.getLsbD n := by
  exact (BitVec.getLsbD_append (x := t) (y := d) (i := n)).trans (by simp [h])

/-- The byte of a lane of a word built from tags and the data of `a`. -/
theorem mkWord_byte (t : BitVec 4) (a : W36) (n : Nat) (h : n < 4) :
    ((mkWord t (dataOf a)) >>> (8 * n)).setWidth 8 = (a >>> (8 * n)).setWidth 8 := by
  ext i hi
  have : 8 * n + i < 32 := by omega
  simp [mkWord_low _ _ _ this, dataOf, this]

/-- A bit of four bytes put together. -/
theorem bytes4_bit (b0 b1 b2 b3 : Byte) (j : Nat) :
    (bytes4 b0 b1 b2 b3).getLsbD j =
      if j < 8 then b0.getLsbD j else if j < 16 then b1.getLsbD (j - 8) else if j < 24 then b2.getLsbD (j - 16)
      else b3.getLsbD (j - 24) := by
  have h1 := BitVec.getLsbD_append (x := b3 ++ b2 ++ b1) (y := b0) (i := j)
  have h2 := BitVec.getLsbD_append (x := b3 ++ b2) (y := b1) (i := j - 8)
  have h3 := BitVec.getLsbD_append (x := b3) (y := b2) (i := j - 8 - 8)
  unfold bytes4
  rw [h1, h2, h3]
  by_cases g1 : j < 8
  · simp [g1]
  · by_cases g2 : j < 16
    · have : j - 8 < 8 := by omega
      simp [g1, g2, this]
    · by_cases g3 : j < 24
      · have e1 : ¬ j - 8 < 8 := by omega
        have e2 : j - 8 - 8 < 8 := by omega
        have e3 : j - 8 - 8 = j - 16 := by omega
        rw [if_neg g1, if_neg e1, if_pos e2, if_neg g1, if_neg g2, if_pos g3, e3]
      · have e1 : ¬ j - 8 < 8 := by omega
        have e2 : ¬ j - 8 - 8 < 8 := by omega
        have e3 : j - 8 - 8 - 8 = j - 24 := by omega
        rw [if_neg g1, if_neg e1, if_neg e2, if_neg g1, if_neg g2, if_neg g3, e3]

/-- The byte of a lane of a word built from tags and four bytes. -/
theorem bytes4_byte (b0 b1 b2 b3 : Byte) (t : BitVec 4) (n : Nat) (h : n < 4) :
    ((mkWord t (bytes4 b0 b1 b2 b3)) >>> (8 * n)).setWidth 8 =
      if n = 0 then b0 else if n = 1 then b1 else if n = 2 then b2 else b3 := by
  ext i hi
  have hl : 8 * n + i < 32 := by omega
  rw [BitVec.getElem_setWidth, BitVec.getLsbD_ushiftRight, mkWord_low _ _ _ hl, bytes4_bit]
  match n, h with
  | 0, _ => simp [hi]
  | 1, _ => simp [show ¬ 8 + i < 8 by omega, show 8 + i < 16 by omega, BitVec.getLsbD_eq_getElem hi]
  | 2, _ => simp [show ¬ 16 + i < 8 by omega, show ¬ 16 + i < 16 by omega, show 16 + i < 24 by omega, BitVec.getLsbD_eq_getElem hi]
  | 3, _ => simp [show ¬ 24 + i < 8 by omega, show ¬ 24 + i < 16 by omega, show ¬ 24 + i < 24 by omega, BitVec.getLsbD_eq_getElem hi]

end Sys2Proof.Machine
end

