-- ==== Sys2Proof/WellFormed.lean ====
section
/-! DEFINITION. Which commands are well formed: every number names something that the module has (R13, R426-R428, R461 and the
counts of cores, rings, channels, dies, queues, frames, memory instances and functions). -/

namespace Sys2Proof

/-- An initiator that exists (R461). -/
def Ini.wf : Ini → Bool
  | .core n => decide (n < 32)
  | .host fn => decide (fn ≤ 64)
  | .block code _ => decide (1 ≤ code) && decide (code ≤ 0x15)

/-- Is a command well formed? -/
def Instr.wf : Instr → Bool
  | .coldPowerOn _ => true
  | .mainPowerOn => true
  | .mainPowerLoss _ => true
  | .auxPowerLoss => true
  | .boot _ => true
  | .mramWriteRelease => true
  | .mramReleaseTimeout => true
  | .bootTimeout _ => true
  | .nvmSubsystemReset fn _ => decide (fn ≤ 64)
  | .watchdogPeriodEnd => true
  | .portAConventionalReset => true
  | .portAPfFlr => true
  | .portBConventionalReset _ => true
  | .vfFlr k => (decide (1 ≤ k) && decide (k ≤ 63))
  | .controllerReset fn => decide (fn ≤ 64)
  | .optionPolderReactivation => true
  | .powerDisable => true
  | .powerDisableRelease => true
  | .brownoutLatch => true
  | .brownoutRecovery => true
  | .holdupDrainDone _ => true
  | .thermalShutdown _ => true
  | .railFault _ _ => true
  | .clockLoss dom => (decide (1 ≤ dom) && decide (dom ≤ 40))
  | .linkTraining port _ _ _ => decide (port < 2)
  | .vfEnableClear => true
  | .numvfsLower n => decide (n ≤ 63)
  | .controllerEnable fn _ => decide (fn ≤ 64)
  | .controllerReady fn => decide (fn ≤ 64)
  | .normalShutdown fn => decide (fn ≤ 64)
  | .shutdownComplete fn => decide (fn ≤ 64)
  | .sqTailDoorbell fn sq _ => decide (fn ≤ 64) && decide (sq < 65536)
  | .createIoSubmissionQueue fn cid _ _ _ => decide (fn ≤ 64) && decide (cid < 65536)
  | .deleteIoSubmissionQueue fn cid _ => decide (fn ≤ 64) && decide (cid < 65536)
  | .createIoCompletionQueue fn cid _ _ _ => decide (fn ≤ 64) && decide (cid < 65536)
  | .deleteIoCompletionQueue fn cid _ => decide (fn ≤ 64) && decide (cid < 65536)
  | .getLogPage fn cid _ _ _ _ => decide (fn ≤ 64) && decide (cid < 65536)
  | .getLogPolderStatus fn cid _ _ _ => decide (fn ≤ 64) && decide (cid < 65536)
  | .getLogCalibrationExport fn cid _ _ => decide (fn ≤ 64) && decide (cid < 65536)
  | .identify fn cid _ _ => decide (fn ≤ 64) && decide (cid < 65536)
  | .abort fn cid sq _ => decide (fn ≤ 64) && decide (cid < 65536) && decide (sq < 65536)
  | .getFeatures fn cid _ _ _ => decide (fn ≤ 64) && decide (cid < 65536)
  | .setFeatures fn cid _ _ _ _ => decide (fn ≤ 64) && decide (cid < 65536)
  | .setPowerManagement fn cid _ _ => decide (fn ≤ 64) && decide (cid < 65536)
  | .setApst fn cid _ _ _ => decide (fn ≤ 64) && decide (cid < 65536)
  | .setTimestamp fn cid _ _ => decide (fn ≤ 64) && decide (cid < 65536)
  | .setNumberOfQueues fn cid _ _ _ => decide (fn ≤ 64) && decide (cid < 65536)
  | .setFreezeOnError fn cid _ _ => decide (fn ≤ 64) && decide (cid < 65536)
  | .queueThaw fn cid sq _ => decide (fn ≤ 64) && decide (cid < 65536) && decide (sq < 65536)
  | .setPowerEnvelope fn cid _ _ => decide (fn ≤ 64) && decide (cid < 65536)
  | .setPolderEnergyShare fn cid _ _ _ _ => decide (fn ≤ 64) && decide (cid < 65536)
  | .setReadAroundPolicy fn cid _ _ _ => decide (fn ≤ 64) && decide (cid < 65536)
  | .asynchronousEventRequest fn cid => decide (fn ≤ 64) && decide (cid < 65536)
  | .namespaceCreate fn cid _ _ => decide (fn ≤ 64) && decide (cid < 65536)
  | .namespaceDelete fn cid _ => decide (fn ≤ 64) && decide (cid < 65536)
  | .namespaceAttach fn cid _ _ => decide (fn ≤ 64) && decide (cid < 65536)
  | .namespaceDetach fn cid _ _ => decide (fn ≤ 64) && decide (cid < 65536)
  | .virtualizationManagement fn cid _ _ => decide (fn ≤ 64) && decide (cid < 65536)
  | .nvmeMiSend fn cid _ _ => decide (fn ≤ 64) && decide (cid < 65536)
  | .nvmeMiReceive fn cid _ _ => decide (fn ≤ 64) && decide (cid < 65536)
  | .formatNvm fn cid _ _ _ => decide (fn ≤ 64) && decide (cid < 65536)
  | .deviceSelfTest fn cid _ => decide (fn ≤ 64) && decide (cid < 65536)
  | .sanitizeBlockErase fn cid => decide (fn ≤ 64) && decide (cid < 65536)
  | .sanitizeCryptoErase fn cid => decide (fn ≤ 64) && decide (cid < 65536)
  | .firmwareImageDownload fn cid _ _ => decide (fn ≤ 64) && decide (cid < 65536)
  | .firmwareCommitReplace fn cid _ => decide (fn ≤ 64) && decide (cid < 65536)
  | .firmwareCommitReplaceActivate fn cid _ => decide (fn ≤ 64) && decide (cid < 65536)
  | .firmwareCommitActivate fn cid _ => decide (fn ≤ 64) && decide (cid < 65536)
  | .firmwareActivationWithoutReset fn cid _ => decide (fn ≤ 64) && decide (cid < 65536)
  | .fwActivationQuiesced => true
  | .fwActivationSelfCheck _ => true
  | .securityProtocolList fn cid _ _ _ => decide (fn ≤ 64) && decide (cid < 65536)
  | .transportKey fn cid _ => decide (fn ≤ 64) && decide (cid < 65536)
  | .attestationChain fn cid _ => decide (fn ≤ 64) && decide (cid < 65536)
  | .slotStatus fn cid _ => decide (fn ≤ 64) && decide (cid < 65536)
  | .quoteNonce fn cid _ _ => decide (fn ≤ 64) && decide (cid < 65536)
  | .quote fn cid _ => decide (fn ≤ 64) && decide (cid < 65536)
  | .establish fn cid _ _ => decide (fn ≤ 64) && decide (cid < 65536)
  | .loadKey fn cid _ _ => decide (fn ≤ 64) && decide (cid < 65536)
  | .eraseKey fn cid _ _ => decide (fn ≤ 64) && decide (cid < 65536)
  | .imageKey fn cid _ _ => decide (fn ≤ 64) && decide (cid < 65536)
  | .eraseAll fn cid _ _ => decide (fn ≤ 64) && decide (cid < 65536)
  | .flush fn sq cid _ => decide (fn ≤ 64) && decide (sq < 65536) && decide (cid < 65536)
  | .write fn sq cid _ _ _ _ => decide (fn ≤ 64) && decide (sq < 65536) && decide (cid < 65536)
  | .read fn sq cid _ _ _ => decide (fn ≤ 64) && decide (sq < 65536) && decide (cid < 65536)
  | .writeUncorrectable fn sq cid _ _ _ => decide (fn ≤ 64) && decide (sq < 65536) && decide (cid < 65536)
  | .compare fn sq cid _ _ _ => decide (fn ≤ 64) && decide (sq < 65536) && decide (cid < 65536)
  | .writeZeroes fn sq cid _ _ _ _ => decide (fn ≤ 64) && decide (sq < 65536) && decide (cid < 65536)
  | .datasetManagement fn sq cid _ _ => decide (fn ≤ 64) && decide (sq < 65536) && decide (cid < 65536)
  | .verify fn sq cid _ _ _ => decide (fn ≤ 64) && decide (sq < 65536) && decide (cid < 65536)
  | .copy fn sq cid _ _ _ _ => decide (fn ≤ 64) && decide (sq < 65536) && decide (cid < 65536)
  | .ioManagementReceive fn sq cid _ _ _ => decide (fn ≤ 64) && decide (sq < 65536) && decide (cid < 65536)
  | .ioManagementSend fn sq cid _ _ _ => decide (fn ≤ 64) && decide (sq < 65536) && decide (cid < 65536)
  | .commandInterrupted fn sq cid => decide (fn ≤ 64) && decide (sq < 65536) && decide (cid < 65536)
  | .stagingAdmit fn sq cid => decide (fn ≤ 64) && decide (sq < 65536) && decide (cid < 65536)
  | .programUnitIssue ch die _ _ _ _ _ => decide (ch < 32) && decide (die < 16)
  | .loadProgram fn sq cid _ _ _ _ => decide (fn ≤ 64) && decide (sq < 65536) && decide (cid < 65536)
  | .programUnload fn sq cid _ _ => decide (fn ≤ 64) && decide (sq < 65536) && decide (cid < 65536)
  | .programActivate fn sq cid _ _ => decide (fn ≤ 64) && decide (sq < 65536) && decide (cid < 65536)
  | .programDeactivate fn sq cid _ _ => decide (fn ≤ 64) && decide (sq < 65536) && decide (cid < 65536)
  | .executeProgram fn sq cid _ _ _ _ => decide (fn ≤ 64) && decide (sq < 65536) && decide (cid < 65536)
  | .executeProgramDeferred _ => true
  | .jobTimeLimit _ => true
  | .jobOutputsSettled _ => true
  | .voidBlockZeroed _ => true
  | .memoryRangeSetCreate fn sq cid _ _ => decide (fn ≤ 64) && decide (sq < 65536) && decide (cid < 65536)
  | .memoryRangeSetDelete fn sq cid _ => decide (fn ≤ 64) && decide (sq < 65536) && decide (cid < 65536)
  | .memoryRead fn sq cid _ _ => decide (fn ≤ 64) && decide (sq < 65536) && decide (cid < 65536)
  | .memoryWrite fn sq cid _ _ => decide (fn ≤ 64) && decide (sq < 65536) && decide (cid < 65536)
  | .memoryCopy fn sq cid _ _ => decide (fn ≤ 64) && decide (sq < 65536) && decide (cid < 65536)
  | .apstIdleTimer => true
  | .powerStateEntry => true
  | .powerStateExit => true
  | .dramSegmentInitDone => true
  | .provision ini p => ini.wf && decide (p < 64)
  | .activate ini p => ini.wf && decide (p < 64)
  | .quiesce ini p => ini.wf && decide (p < 64)
  | .polderDrained p => decide (p < 64)
  | .teardown ini p => ini.wf && decide (p < 64)
  | .teardownHaltTimeout p _ => decide (p < 64)
  | .teardownComplete p => decide (p < 64)
  | .breachRecordRead ini => ini.wf
  | .breachRecordPop ini _ => ini.wf
  | .iAdd c _ _ _ _ => decide (c < 32)
  | .iSub c _ _ _ _ => decide (c < 32)
  | .iAddc c _ _ _ _ => decide (c < 32)
  | .iSubc c _ _ _ _ => decide (c < 32)
  | .iAnd c _ _ _ _ => decide (c < 32)
  | .iOr c _ _ _ _ => decide (c < 32)
  | .iXor c _ _ _ _ => decide (c < 32)
  | .iAndn c _ _ _ _ => decide (c < 32)
  | .iSll c _ _ _ _ => decide (c < 32)
  | .iSrl c _ _ _ _ => decide (c < 32)
  | .iSra c _ _ _ _ => decide (c < 32)
  | .iRot c _ _ _ _ => decide (c < 32)
  | .iSlt c _ _ _ _ => decide (c < 32)
  | .iSltu c _ _ _ _ => decide (c < 32)
  | .iMinu c _ _ _ _ => decide (c < 32)
  | .iMaxu c _ _ _ _ => decide (c < 32)
  | .iMul c _ _ _ _ => decide (c < 32)
  | .iMulhu c _ _ _ _ => decide (c < 32)
  | .iMulh c _ _ _ _ => decide (c < 32)
  | .iAddh c _ _ _ _ => decide (c < 32)
  | .iSubh c _ _ _ _ => decide (c < 32)
  | .iAddhs c _ _ _ _ => decide (c < 32)
  | .iClz c _ _ _ _ => decide (c < 32)
  | .iPopc c _ _ _ _ => decide (c < 32)
  | .iAddi c _ _ _ => decide (c < 32)
  | .iAndi c _ _ _ => decide (c < 32)
  | .iOri c _ _ _ => decide (c < 32)
  | .iXori c _ _ _ => decide (c < 32)
  | .iLui c _ _ _ => decide (c < 32)
  | .iShi c _ _ _ => decide (c < 32)
  | .iTcmpi c _ _ _ => decide (c < 32)
  | .iTcmp c _ _ _ _ => decide (c < 32)
  | .iTset c _ _ _ _ => decide (c < 32)
  | .iTand c _ _ _ _ => decide (c < 32)
  | .iTor c _ _ _ _ => decide (c < 32)
  | .iTxor c _ _ _ _ => decide (c < 32)
  | .iTandn c _ _ _ _ => decide (c < 32)
  | .iTget c _ _ _ _ => decide (c < 32)
  | .iTput c _ _ _ _ => decide (c < 32)
  | .iTcnta c _ _ _ _ => decide (c < 32)
  | .iTfirst c _ _ _ _ => decide (c < 32)
  | .iTsprd c _ _ _ _ => decide (c < 32)
  | .iNext c _ _ _ _ => decide (c < 32)
  | .iNins c _ _ _ _ => decide (c < 32)
  | .iNrot c _ _ _ _ => decide (c < 32)
  | .iNaln c _ _ _ _ => decide (c < 32)
  | .iPackt c _ _ _ _ => decide (c < 32)
  | .iNbcast c _ _ _ _ => decide (c < 32)
  | .iCls c _ _ _ _ => decide (c < 32)
  | .iClsw c _ _ _ _ => decide (c < 32)
  | .iLd c _ _ _ _ _ => decide (c < 32)
  | .iSt c _ _ _ _ _ => decide (c < 32)
  | .iStp c _ _ _ _ => decide (c < 32)
  | .iAadd c _ _ _ => decide (c < 32)
  | .iAswp c _ _ _ => decide (c < 32)
  | .iRsl c _ _ _ => decide (c < 32)
  | .iRslt c _ _ _ => decide (c < 32)
  | .iRsn c _ _ _ => decide (c < 32)
  | .iBeq c _ _ _ => decide (c < 32)
  | .iBne c _ _ _ => decide (c < 32)
  | .iBlt c _ _ _ => decide (c < 32)
  | .iBge c _ _ _ => decide (c < 32)
  | .iBltu c _ _ _ => decide (c < 32)
  | .iBgeu c _ _ _ => decide (c < 32)
  | .iBf c _ _ _ => decide (c < 32)
  | .iJal c _ _ => decide (c < 32)
  | .iJalr c _ _ _ => decide (c < 32)
  | .iDbr c _ _ _ _ => decide (c < 32)
  | .iWfe c _ _ _ _ => decide (c < 32)
  | .wfeTimeout c => decide (c < 32)
  | .iSig c _ _ _ _ => decide (c < 32)
  | .iFence c _ _ _ _ => decide (c < 32)
  | .iMfs c _ _ _ _ => decide (c < 32)
  | .iMff c _ _ _ _ => decide (c < 32)
  | .iMtf c _ _ _ _ => decide (c < 32)
  | .iRdc c _ _ _ _ => decide (c < 32)
  | .iEnd c _ _ _ _ => decide (c < 32)
  | .iTrap c _ _ _ _ => decide (c < 32)
  | .iMfc c _ _ _ _ => decide (c < 32)
  | .iMtc c _ _ _ _ => decide (c < 32)
  | .iEret c _ _ _ _ => decide (c < 32)
  | .iHalt c _ _ _ _ => decide (c < 32)
  | .customInstruction c _ _ _ _ _ => decide (c < 32)
  | .pairedWord c _ _ _ => decide (c < 32)
  | .counterWrap c n => decide (c < 32) && decide (n < 8)
  | .counterOvf c => decide (c < 32)
  | .smpFull c => decide (c < 32)
  | .extInt c => decide (c < 32)
  | .coreForceStop c => decide (c < 32)
  | .coreHalt ini c => ini.wf && decide (c < 32)
  | .coreRestart ini c => ini.wf && decide (c < 32)
  | .controlStoreRead ini c => ini.wf && decide (c < 32)
  | .counterPageWrite ini c _ _ => ini.wf && decide (c < 32)
  | .samplingAreaWrite ini c _ _ => ini.wf && decide (c < 32)
  | .cycleCounterRead ini c _ => ini.wf && decide (c < 32)
  | .ringDoorbell ini r _ => ini.wf && decide (r < 256)
  | .descriptorDispatch r => decide (r < 256)
  | .engineCompletion r idx _ => decide (r < 256) && decide (idx < 65536)
  | .heldCompletionWrite ini r _ => ini.wf && decide (r < 256)
  | .ringCancel ini r _ => ini.wf && decide (r < 256)
  | .cancelAtBoundary r idx => decide (r < 256) && decide (idx < 65536)
  | .ringRestart ini r _ => ini.wf && decide (r < 256)
  | .ringRelease ini r => ini.wf && decide (r < 256)
  | .alloc r idx => decide (r < 256) && decide (idx < 65536)
  | .hold r idx => decide (r < 256) && decide (idx < 65536)
  | .release r idx => decide (r < 256) && decide (idx < 65536)
  | .bufferWaitTimeout r idx => decide (r < 256) && decide (idx < 65536)
  | .bufferFreeDone pool _ => decide (pool < 4)
  | .toSlm r idx => decide (r < 256) && decide (idx < 65536)
  | .fromSlm r idx => decide (r < 256) && decide (idx < 65536)
  | .extentRead r idx => decide (r < 256) && decide (idx < 65536)
  | .bufferAudit ini _ => ini.wf
  | .gcmEnc r a => decide (r < 256) && decide (a.idx < 65536)
  | .gcmDec r a => decide (r < 256) && decide (a.idx < 65536)
  | .keyErase r idx => decide (r < 256) && decide (idx < 65536)
  | .ctxRelease r idx => decide (r < 256) && decide (idx < 65536)
  | .digest r idx => decide (r < 256) && decide (idx < 65536)
  | .extend r idx => decide (r < 256) && decide (idx < 65536)
  | .measRead r idx => decide (r < 256) && decide (idx < 65536)
  | .digestCtxRelease r idx => decide (r < 256) && decide (idx < 65536)
  | .entropyHealthWindow _ => true
  | .voltageGlitch => true
  | .clockGlitch => true
  | .temperature => true
  | .slotIntegrity _ _ => true
  | .alarmMediaReady => true
  | .alarmRingReady => true
  | .drbgReseed => true
  | .mediaKeyNew ini _ => ini.wf
  | .mediaKeyReload ini => ini.wf
  | .measSelect ini _ => ini.wf
  | .measDataRead ini => ini.wf
  | .ciphRngStatRead ini => ini.wf
  | .compress r idx => decide (r < 256) && decide (idx < 65536)
  | .deflateBlockEnd _ => true
  | .decompress r idx => decide (r < 256) && decide (idx < 65536)
  | .cmprCtxRelease r idx => decide (r < 256) && decide (idx < 65536)
  | .cmprErrRead ini e => ini.wf && decide (e < 5)
  | .lookup r idx => decide (r < 256) && decide (idx < 65536)
  | .searchWrite r idx => decide (r < 256) && decide (idx < 65536)
  | .invalidate r idx => decide (r < 256) && decide (idx < 65536)
  | .searchRead r idx => decide (r < 256) && decide (idx < 65536)
  | .step r idx => decide (r < 256) && decide (idx < 65536)
  | .shift r idx => decide (r < 256) && decide (idx < 65536)
  | .maskRecomputeDone row => decide (row < 1024)
  | .searchEntrySnapshot ini _ => ini.wf
  | .descriptorPushWord ini ch q _ => ini.wf && decide (ch < 32) && decide (q < 4)
  | .readPage ch q _ => decide (ch < 32) && decide (q < 4)
  | .readCache ch q _ => decide (ch < 32) && decide (q < 4)
  | .readRetry ch q _ => decide (ch < 32) && decide (q < 4)
  | .program ch q _ => decide (ch < 32) && decide (q < 4)
  | .erase ch q _ => decide (ch < 32) && decide (q < 4)
  | .suspend ch q _ => decide (ch < 32) && decide (q < 4)
  | .resume ch q _ => decide (ch < 32) && decide (q < 4)
  | .resetDie ch q _ => decide (ch < 32) && decide (q < 4)
  | .getFeature ch q _ => decide (ch < 32) && decide (q < 4)
  | .setFeature ch q _ => decide (ch < 32) && decide (q < 4)
  | .readStatus ch q _ => decide (ch < 32) && decide (q < 4)
  | .dieCommandEnd ch die _ => decide (ch < 32) && decide (die < 16)
  | .softDecodeDone ch _ _ _ _ => decide (ch < 32)
  | .flcCompletionWrite ini ch _ => ini.wf && decide (ch < 32)
  | .flcCancel ini ch _ => ini.wf && decide (ch < 32)
  | .flcEnable ini ch _ => ini.wf && decide (ch < 32)
  | .blockStateSelect ini ch _ => ini.wf && decide (ch < 32)
  | .blockStateRestore ini ch _ => ini.wf && decide (ch < 32)
  | .autoSuspend ch die => decide (ch < 32) && decide (die < 16)
  | .autoResume ch die => decide (ch < 32) && decide (die < 16)
  | .dieRetrain ch die _ => decide (ch < 32) && decide (die < 16)
  | .dieTimeout ch die => decide (ch < 32) && decide (die < 16)
  | .flcEccSoftRead ini ch => ini.wf && decide (ch < 32)
  | .flcEccUncRead ini ch => ini.wf && decide (ch < 32)
  | .readAround fn sq cid _ => decide (fn ≤ 64) && decide (sq < 65536) && decide (cid < 65536)
  | .mapWriteBack _ => true
  | .qWindowReadback _ _ _ => true
  | .ftlaReady _ => true
  | .mapGet => true
  | .mapSet => true
  | .mapMove => true
  | .trim => true
  | .pageOut _ => true
  | .record => true
  | .rebuild => true
  | .sbSet => true
  | .ftlaCompletionWrite ini _ => ini.wf
  | .ftlaLaMissRead ini => ini.wf
  | .ftlaMcMissRead ini => ini.wf
  | .ftlaRaCntRead ini => ini.wf
  | .dramRetrainPause ch _ _ => decide (ch < 8)
  | .dramRepairPause ch _ => decide (ch < 8)
  | .orderSwitch ini _ => ini.wf
  | .scrub inst _ _ => decide (inst ≤ 169)
  | .lineRemap inst _ => decide (inst ≤ 169)
  | .dramDeviceFailed dev => decide (dev < 8)
  | .checkBitTestArm ini _ => ini.wf
  | .memiSelect ini _ => ini.wf
  | .ueRecordRead ini => ini.wf
  | .drcFwdRead ini => ini.wf
  | .nrgSample _ => true
  | .epochBoundary _ => true
  | .envelopeGuardWindow => true
  | .energyDeferred r idx => decide (r < 256) && decide (idx < 65536)
  | .embankmentMeasurement => true
  | .embankmentMeasurementEnd _ _ => true
  | .bankCharged => true
  | .safetyDrain _ => true
  | .drainRelease => true
  | .calendarTick => true
  | .calendarSave => true
  | .powerOnSecond => true
  | .calendarShadowRead ini => ini.wf
  | .powerOnSecondsRead ini => ini.wf
  | .energyDeliveredRead ini => ini.wf
  | .epochRead ini => ini.wf
  | .calibrationCommit ini _ => ini.wf
  | .optionCommit ini _ => ini.wf
  | .faultReport _ _ _ _ _ _ => true
  | .faultWindowEnd => true
  | .tagRelease _ _ => true
  | .fltAbsRead ini => ini.wf
  | .entdaa _ _ _ => true
  | .setdasa _ _ => true
  | .rstdaa => true
  | .enec => true
  | .disec => true
  | .getpid => true
  | .getbcr => true
  | .getdcr => true
  | .getstatus => true
  | .getmwl => true
  | .setmwl _ => true
  | .getmrl => true
  | .setmrl _ => true
  | .unsupportedCcc _ => true
  | .i2cFruRead _ _ => true
  | .i2cFruOffsetWrite _ _ => true
  | .mctpPacket _ => true
  | .setEndpointId _ => true
  | .getEndpointId => true
  | .getEndpointUuid => true
  | .getMctpVersionSupport => true
  | .getMessageTypeSupport => true
  | .readNvmeMiDataStructure _ _ _ => true
  | .nvmSubsystemHealthStatusPoll _ => true
  | .controllerHealthStatusPoll _ _ => true
  | .configurationGet _ _ => true
  | .configurationSet _ _ _ => true
  | .vpdRead _ _ _ => true
  | .adminTunnel _ _ _ => true
  | .miResponseReady _ => true
  | .sbdStatRead ini => ini.wf
  | .keyWrite ini frame _ => ini.wf && decide (frame < 4096)
  | .keyWindowEnd frame => decide (frame < 4096)
  | .registerWrite ini off _ _ => ini.wf && decide (off < 16777216)
  | .bridgeTimeout ini off _ => ini.wf && decide (off < 16777216)
  | .errorRecordRead ini frame => ini.wf && decide (frame < 4096)
  | .bar2Request off _ _ => decide (off < 16777216)
  | .pmonClear ini => ini.wf
  | .pmonCounterRead ini n => ini.wf && decide (n < 12)
  | .cqHeadDoorbell fn _ _ => decide (fn ≤ 64)
  | .vfEnableSet numVfs => decide (numVfs ≤ 63)

end Sys2Proof
end

