-- ==== Sys2Proof/Tests/Slice0.lean ====
section
/-! SUPPORT. Checks of the model's own: ill-formed commands, words written out from the spec's encodings, one-step results worked out by
hand from the spec, and for every obligation with hypotheses concrete states and operands that meet them. -/

namespace Sys2Proof.Tests

open Sys2Proof Sys2Proof.Machine

set_option Elab.async false

/-! ## Small states -/

/-- The region entries of a user context: local data memory, a code section, the shared buffer SRAM (R153). -/
def rgns : Tbl (Option Rgn) :=
  [(0, some { base := 0, limit := 131071, w := true, r := true }),
   (1, some { base := imageWin, limit := imageWin + 1023, x := true, r := true }),
   (49, some { base := sramWin, limit := sramWin + 12582911, w := true, r := true })]

/-- A core in system mode, between two words. -/
def sysCore : Core := { st := .running, pc := 0x80000005#36, stvec := 64, regs := [(1, 5), (2, 7)] }

/-- A core in user mode with a trap handler, of job 1 of polder 1. -/
def userCore : Core :=
  { st := .running, user := true, polder := 1, job := some 1, pc := 0x80000005#36, utvec := 4096, regs := [(1, 5), (2, 7)],
    rgn := rgns }

/-- The machine with one core. -/
def on (k : Core) : State := { ({} : State) with cores := [(0, k)] }

/-- The machine with one core that runs a job. -/
def onJob (k : Core) (v : Job) : State := { on k with jobs := [(1, some v)] }

/-- The job of `userCore`. -/
def job1 : Job := { polder := 1, fn := 1, sq := 1, cid := 9, st := .running, cores := [0], ranges := [(0, 4096)] }

/-- Polder 1 with permissions and the resources that the statements name. -/
def pol1 (f : Polder → Polder) : Pol :=
  { ({} : Pol) with tab := [(0, { st := .active, weight := 16 }),
    (1, f { st := .active, perm := 7, own := { cores := 1, rings := 0x20004, keys := 0x10001, slm := 0x10000, srch := 0x10000 } })] }

/-- A user core's machine with polder 1 behind it. -/
def onPol (k : Core) (f : Polder → Polder := id) : State := { onJob k job1 with pol := pol1 f }

/-! ## Ill-formed commands are refused -/

theorem test_wf_core : (Instr.iAdd 31 1 2 3 0).wf = true ∧ (Instr.iAdd 32 1 2 3 0).wf = false := by decide
theorem test_wf_counter : (Instr.counterWrap 0 7).wf = true ∧ (Instr.counterWrap 0 8).wf = false := by decide
theorem test_wf_function : (Instr.controllerEnable 64 0).wf = true ∧ (Instr.controllerEnable 65 0).wf = false := by decide
theorem test_wf_cid : (Instr.identify 0 65535 1 0).wf = true ∧ (Instr.identify 0 65536 1 0).wf = false := by decide
theorem test_wf_queue : (Instr.flush 0 65535 0 1).wf = true ∧ (Instr.flush 0 65536 0 1).wf = false := by decide
theorem test_wf_vf : (Instr.vfFlr 63).wf = true ∧ (Instr.vfFlr 0).wf = false ∧ (Instr.vfFlr 64).wf = false := by decide
theorem test_wf_domain : (Instr.clockLoss 40).wf = true ∧ (Instr.clockLoss 0).wf = false ∧ (Instr.clockLoss 41).wf = false := by decide
theorem test_wf_port : (Instr.linkTraining 1 64 8 true).wf = true ∧ (Instr.linkTraining 2 64 8 true).wf = false := by decide
theorem test_wf_polder : (Instr.polderDrained 63).wf = true ∧ (Instr.polderDrained 64).wf = false := by decide
theorem test_wf_initiator : (Instr.provision (.core 31) 1).wf = true ∧ (Instr.provision (.core 32) 1).wf = false ∧
    (Instr.provision (.host 65) 1).wf = false ∧ (Instr.provision (.block 0 0) 1).wf = false := by decide

/-! ## Words written out from the encodings (chapter "The Adral-2 instruction set") -/

/-- ADD w3, w1, w2: op 0o000, rd 3, ra 1, rb 2, fn 0o00 (R125, R128). -/
theorem test_word_add : decodeWord 0 (0b0_0000000_00011_00001_00010_0000000_000000#36) = some (.iAdd 0 3 1 2 0) := by decide
/-- SHI w3, w1, SRL by 4: op 0o006, immediate kind 1 in bits 17:16 (R126). -/
theorem test_word_shi : decodeWord 0 (0b0_0000110_00011_00001_010000000000000100#36) = some (.iShi 0 3 1 0x10004) := by decide
/-- TCMP w3, w1, w2, condition GEU (3), combine OR (2): op 0o010, fn 12:6 = 2 × 8 + 3 (R129). -/
theorem test_word_tcmp : decodeWord 0 (0b0_0001000_00011_00001_00010_0010011_000000#36) = some (.iTcmp 0 3 1 2 19) := by decide
/-- CLSW: op 0o013, rd 0, table 5 (R131). -/
theorem test_word_clsw : decodeWord 0 (0b0_0001011_00000_00001_00010_0000000000101#36) = some (.iClsw 0 0 1 2 5) := by decide
/-- RSLT: op 0o014, fn 1 (R133). -/
theorem test_word_rslt : decodeWord 0 (0b0_0001100_00011_00001_00010_0000000000001#36) = some (.iRslt 0 3 1 2) := by decide
/-- LD w3, mode BS (2), lane 1, offset −1 of w1: op 0o020 (R132). -/
theorem test_word_ld : decodeWord 0 (0b0_0010000_00011_00001_010_01_1111111111111#36) = some (.iLd 0 3 1 2 1 0x1FFF) := by decide
/-- ASWP: op 0o023, fn 1 (R134). -/
theorem test_word_aswp : decodeWord 0 (0b0_0010011_00011_00001_00010_0000000000001#36) = some (.iAswp 0 3 1 2) := by decide
/-- BNE w1, w2, −2: op 0o031, format B (R125). -/
theorem test_word_bne : decodeWord 0 (0b0_0011001_00001_00010_111111111111111110#36) = some (.iBne 0 1 2 0x3FFFE) := by decide
/-- TRAP 9: op 0o050, fn 5:0 = 0o12, code in fn 12:6 (R135). -/
theorem test_word_trap : decodeWord 0 (0b0_0101000_00000_00000_00000_0001001_001010#36) = some (.iTrap 0 0 0 0 9) := by decide
/-- MFC w3, CNT_0 (16): op 0o074 (R156). -/
theorem test_word_mfc : decodeWord 0 (0b0_0111100_00011_00000_00000_0000000010000#36) = some (.iMfc 0 3 0 0 16) := by decide
/-- A custom instruction of index 7 (R146). -/
theorem test_word_custom : decodeWord 0 (0b0_1_000111_00011_00001_00010_0000000000000#36) = some (.customInstruction 0 7 3 1 2 0) := by decide
/-- A paired word: MOV w3, w1 beside LI w4, −1 (R125, R140). -/
theorem test_word_pair :
    decodeWord 0 (0b1_0_00001_00011_00001_00_01010_00100_1111111#36) = some (.pairedWord 0 false 0b00001_00011_00001_00 0b01010_00100_1111111) := by
  decide
/-- An opcode that no table lists (0o007) is no word (R127). -/
theorem test_word_unlisted : decodeWord 0 (0b0_0000111_00000_00000_00000_0000000000000#36) = none := by decide
/-- The table of operations gives its rows no bits. -/
theorem test_no_table_word (n w : Nat) : decodeTableWord n w = none := rfl

/-! ## The core: witnesses -/

theorem witness_run : CanRun (on sysCore) 0 ∧ CanRun (onPol userCore) 0 ∧ HasHandler (Machine.core (onPol userCore) 0) ∧
    (Machine.core (on sysCore) 0).user = false ∧ (Machine.core (on sysCore) 0).sstatus.getLsbD 1 = false := by
  unfold CanRun HasHandler; decide

/-- AluGroupResults, NonetGroupResults, PairedWordResults, IllegalWordsTrap: a version 2 image. -/
theorem witness_version2 : CanRun (on sysCore) 0 ∧ (Machine.core (on sysCore) 0).v1 = false := by unfold CanRun; decide

/-- IllegalWordsTrap: a version 1 image. -/
theorem witness_version1 : CanRun (on { sysCore with v1 := true }) 0 ∧ (Machine.core (on { sysCore with v1 := true }) 0).v1 = true := by
  unfold CanRun; decide

/-- ImmediateResults, PackedCompareResults, NonetGroupResults, ClassifyResults, BranchResults, PairedWordResults: the last values. -/
theorem witness_last_operands : CanRun (on sysCore) 0 ∧ 35 ≤ 35 ∧ 7 < 8 ∧ 3 < 4 := by unfold CanRun; decide

/-- IllegalWordsTrap: the first value that each clause refuses. -/
theorem witness_illegal_fields : (1 : BitVec 7) ≠ 0 ∧ 31 < (32 : BitVec 7).toNat ∧ 15 < (16 : BitVec 7).toNat ∧ 3 < (4 : BitVec 7).toNat ∧
    1 < (2 : BitVec 7).toNat ∧ 5 < (6 : BitVec 7).toNat ∧ 9 < (10 : BitVec 7).toNat ∧ (1 : BitVec 5) ≠ 0 ∧
    (64 : BitVec 18).toNat / 64 % 1024 ≠ 0 ∧ 35 < (36 : BitVec 18).toNat % 64 ∧ 4095 < (4096 : BitVec 18).toNat ∧
    1023 < (1024 : BitVec 13).toNat ∧ 7 < (8 : BitVec 13).toNat ∧ 1 < (2 : BitVec 13).toNat ∧ 63 < (64 : BitVec 13).toNat ∧
    7 < (8 : BitVec 5).toNat ∧ 4 < (5 : BitVec 3).toNat ∧ (4 : BitVec 3) = 4 ∧ (1 : BitVec 2) ≠ 0 ∧ 3 < (4 : BitVec 3).toNat ∧
    (rget (Machine.core (on { sysCore with regs := [(1, 0x200000000#36)] }) 0) 1).toNat / 2 ^ 33 ≠ 0 ∧
    (rget (Machine.core (on sysCore) 0) 3 = 0 ∧ rget (Machine.core (on sysCore) 0) 4 = 0) ∧
    25 < (0x1A000 : BitVec 17).toNat / 4096 ∧ ((4 : BitVec 17).toNat / 4096 = 0 ∧ (4 : BitVec 17) ≠ 0) ∧
    (3 : BitVec 5) ≠ 4 := by decide

/-- SoftwareTrapAndReturn: a user trap without a handler; a system trap inside a handler; a return from each. -/
theorem witness_trap_ends :
    let s := onPol { userCore with utvec := 0 }
    let h := on { sysCore with sstatus := 3 }
    let r := onPol { userCore with ucause := 0x80000008#36 }
    (CanRun s 0 ∧ (Machine.core s 0).user = true ∧ (Machine.core s 0).utvec = 0 ∧ (Machine.core s 0).job = some 1 ∧ job s 1 = some job1 ∧
      job1.st ≠ .ending ∧ 0 ∈ job1.cores) ∧
    (CanRun h 0 ∧ (Machine.core h 0).user = false ∧ (Machine.core h 0).sstatus.getLsbD 1 = true ∧ h.flt.latched = []) ∧
    (CanRun r 0 ∧ (Machine.core r 0).user = true ∧ (Machine.core r 0).ucause.getLsbD 31 = true) := by unfold CanRun; decide

/-- PrivilegeTraps: no permissions, and the first and last selector of each range. -/
theorem witness_privilege :
    let s := onPol userCore (fun p => { p with perm := 0 })
    (CanRun s 0 ∧ HasHandler (Machine.core s 0) ∧ (polder s 1).perm.getLsbD 0 = false ∧ (polder s 1).perm.getLsbD 1 = false) ∧
    (9 : BitVec 7).toNat ≤ 9 ∧ (8 ≤ 8 ∧ 15 < 16) ∧ (16 ≤ 16 ∧ 23 < 24) ∧ (25 ≤ 25 ∧ 28 ≤ 28) ∧ (32 ≤ 32 ∧ 37 ≤ 37) := by
  unfold CanRun HasHandler; decide

/-- LocalLoads, LocalStores: the last word of local data memory, a byte cursor that crosses into it, a store of tagged bytes. -/
theorem witness_local :
    let k := { userCore with regs := [(1, 0xF0000001F#36), (2, 131071), (3, 524281)] }
    let s := onPol k
    CanRun s 0 ∧ (rget k 2 + (0 : BitVec 13).signExtend 36).toNat = 131071 ∧ protect s k 131071 false = none ∧ protect s k 131071 true = none ∧
    Intact s (ldmCw 0 131071) ∧ Intact s (ldmCw 0 131070) ∧ lineBad s 0 (131071 / 8) = false ∧ lineBad s 0 (131070 / 8) = false ∧
    k.v1 = false ∧ (524281 + 3) / 4 = 131071 ∧ protect s k 131070 false = none ∧ protect s k 131070 true = none ∧ (3 : BitVec 3).toNat < 4 := by
  unfold CanRun Intact; decide

/-- SharedLoads, SharedStores, Atomics: the last word of the buffers, and a word of the DRAM window outside the polder's SLM range. -/
theorem witness_shared : let s := on sysCore
    (SharedWord s 0 29097983 false ∧ SharedWord s 0 29097983 true) ∧ (SharedWord s 0 0x200000000 false ∧ SharedWord s 0 0x200000000 true) := by
  unfold SharedWord Intact; decide

/-- MemoryTraps: a hole, a word of local data memory without a write grant, an atomic on local data memory, a breach. -/
theorem witness_refused_access :
    let s := onPol userCore
    let k := Machine.core s 0
    (protect s k 0x20000 false = some 3 ∧ protect s k 0x80000000 true = some 3) ∧
    (protect s k 5 false = none ∧ protect s k 5 true = none) ∧
    (regionOf 0x200000000 = .dram ∧ protect s k 0x200000000 false = none ∧ curBreach s 1 (4 * 0x200000000) = some (0x0B, 0)) := by decide

/-- DoorbellAndEventWords: the rings 4 and 5 of polder 1, ring 2 of its window outside them; every clause of the event words. -/
theorem witness_doorbell :
    let s := onPol userCore
    (CanRun s 0 ∧ coreHeld s (Machine.core s 0) = false ∧ absRing s 1 1 = some 5 ∧ absRing s 1 2 = none ∧ (polder s 1).st ≠ .teardown) ∧
    ((ring s 5).holder = .free ∧ ((32 : BitVec 16) - (ring s 5).cons).toNat ≤ 32 ∧ 32 < ((33 : BitVec 16) - (ring s 5).cons).toNat ∧
      (33 : BitVec 16) ≠ (ring s 5).prod) := by unfold CanRun; decide

/-- DoorbellAndEventWords: a ring of another holder, and a ring whose producer already is more than 32 ahead. -/
theorem witness_doorbell_holder : let s := setRing (onPol userCore) 5 { holder := .service, prod := 40 }
    ¬ ((ring s 5).holder = .free ∨ (ring s 5).holder = doorHolder userCore) ∧
    let u := setRing (onPol userCore) 5 { holder := .job 1, prod := 40 }
    (ring u 5).holder = doorHolder userCore ∧ 32 < ((40 : BitVec 16) - (ring u 5).cons).toNat ∧ (40 : BitVec 16) = (ring u 5).prod := by
  decide

theorem witness_events :
    let s := on { sysCore with regs := [(1, 0x1FFFFFFFF#36), (2, 1)], pend := 0x100000001#33 }
    let q := on { sysCore with regs := [(1, 0x1FFFFFFFF#36), (2, 1)] }
    let w := on { sysCore with st := .waiting, wfe := some { mask := 1, rd := 3, timeout := 5 } }
    (CanRun s 0 ∧ (rget (Machine.core s 0) 1).toNat < 2 ^ 33 ∧ ¬ (rget (Machine.core s 0) 1 = 0 ∧ rget (Machine.core s 0) 2 = 0) ∧
      (Machine.core s 0).pend &&& (rget (Machine.core s 0) 1).setWidth 33 ≠ 0) ∧
    (CanRun q 0 ∧ (Machine.core q 0).pend &&& (rget (Machine.core q 0) 1).setWidth 33 = 0) ∧
    ((Machine.core w 0).st = .waiting ∧ (Machine.core w 0).out = false ∧ (Machine.core w 0).wfe = some { mask := 1, rd := 3, timeout := 5 }) := by
  unfold CanRun; decide

/-- DoorbellAndEventWords: SIG to a running core, to a waiting one, and past the last core of the job. -/
theorem witness_signal :
    let s := setCore (onJob userCore { job1 with cores := [0, 1] }) 1 { userCore with rel := 1 }
    let w := setCore s 1 { userCore with rel := 1, st := .waiting, wfe := some { mask := 0x100000000#33, rd := 3, timeout := 0 } }
    (CanRun s 0 ∧ (Machine.core s 0).job = some 1 ∧ job s 1 = some { job1 with cores := [0, 1] } ∧ [0, 1][1]? = some 1 ∧ (Machine.core s 1).st = .running ∧
      (Machine.core s 1).wfe = none) ∧
    (CanRun w 0 ∧ (Machine.core w 1).st = .waiting ∧ (Machine.core w 1).pend &&& 0x100000000#33 = 0 ∧ (0x100000000#33).getLsbD 32 = true) ∧
    [0, 1].length ≤ (rget (Machine.core s 0) 1).toNat := by unfold CanRun; decide

/-- SystemReads: a job with and without a limit, the counter permission, a chained pair. -/
theorem witness_system_reads :
    let s := onPol userCore
    let v := { job1 with limitMs := 3 }
    let u := onPol { userCore with cnt := [(1, { cfg := 0xC001 })] }
    (CanRun s 0 ∧ (Machine.core s 0).job = some 1 ∧ job s 1 = some job1 ∧ job1.limitMs = 0) ∧
    (v.limitMs ≠ 0 ∧ v.startT + v.pausedUs + v.limitMs * 1000 < s.now + 2 ^ 36) ∧
    ((polder s 1).perm.getLsbD 0 = true ∧ 3 < 4 ∧ (counter (Machine.core u 0) 0).wraps = [] ∧ (counter (Machine.core u 0) 1).cfg.getLsbD 14 = true) := by
  unfold CanRun; decide

/-- EndOfAJob: the lead core before and at the limit, another core. -/
theorem witness_end : let s := onPol userCore
    (CanRun s 0 ∧ (Machine.core s 0).job = some 1 ∧ job s 1 = some job1 ∧ job1.st ≠ .ending ∧ 0 ∈ job1.cores ∧ (Machine.core s 0).rel = 0 ∧ job1.limitMs = 0) ∧
    (let v := { job1 with limitMs := 1 }
     v.limitMs ≠ 0 ∧ v.startT + v.pausedUs + v.limitMs * 1000 ≤ s.now + 1000) ∧
    (Machine.core (onPol { userCore with rel := 1 }) 0).rel ≠ 0 := by unfold CanRun; decide

/-- ControlRegisterAccess: user mode with both permissions, system mode, an empty and a full sampling area. -/
theorem witness_control_registers : let s := onPol { userCore with smpBase := 3, smpLimit := 9, regs := [(1, 9), (2, 3)] }
    CanRun s 0 ∧ (polder s 1).perm.getLsbD 0 = true ∧ (polder s 1).perm.getLsbD 1 = true ∧ (Machine.core (on sysCore) 0).user = false ∧ 7 < 8 ∧
    (Machine.core s 0).smpLimit.toNat ≤ (rget (Machine.core s 0) 1).toNat % 2 ^ 21 ∧ (rget (Machine.core s 0) 2).toNat % 2 ^ 21 ≤ (Machine.core s 0).smpBase.toNat := by
  unfold CanRun; decide

/-- Two entries of polder 1 with the same key and priority. -/
def srch2 : Srch :=
  { ({} : Srch) with ents := [(0, { valid := true, lo := 5, hi := 9, result := 77, prio := 2, polder := 1 }),
                              (3, { valid := true, lo := 5, hi := 5, result := 78, prio := 2, polder := 1 })] }

/-- A user core with that table and a last search. -/
def onSearch (l : Option LastSearch) : State := { onPol { userCore with search := l } (fun p => { p with own := { p.own with srch := 0x10000 } }) with srch := srch2 }

/-- SearchWords: a match with several entries, no match, a next match, none. -/
theorem witness_search :
    let s := onSearch (some { key := 5, prio := 2, idx := 0 })
    (CanRun s 0 ∧ (∃ f, lookupKey s 1 5 = some f ∧ f.idx = 0 ∧ f.multi = true) ∧ lookupKey s 1 10 = none) ∧
    ((Machine.core s 0).v1 = false ∧ (∃ e v, stepKey s 1 5 2 0 = some (e, v) ∧ e = 3) ∧ stepKey s 1 5 2 3 = none ∧ (Machine.core (onSearch none) 0).search = none) ∧
    twf s.srch.ents {} = true :=
  ⟨⟨by unfold CanRun; decide, ⟨_, rfl, rfl, rfl⟩, rfl⟩, ⟨rfl, ⟨_, _, rfl, rfl⟩, rfl, rfl⟩, by decide⟩

/-- CustomInstructionResults: no entry; an LI; a class 0 ADD; a class 3 word in a user job, at the last place of the control store. -/
theorem witness_custom :
    let s := onPol { userCore with dec := [(7, BitVec.ofNat 36 (2 ^ 35 + 4095 * 2 ^ 21 + 2 ^ 12))], cs := [(4095, BitVec.ofNat 36 (2 ^ 34 + 2 ^ 33 + 4 * 2 ^ 29 + 5))] }
    (CanRun s 0 ∧ (Machine.core s 0).v1 = false ∧ lineBad s 64 (7 / 8) = false ∧ (tget (Machine.core s 0).dec 0 6).toNat < 2 ^ 35 ∧
      (tget (Machine.core s 0).dec 0 7).toNat = 2 ^ 35 + 4095 * 2 ^ 21 + 1 * 2 ^ 12 ∧ lineBad s 64 ((64 + 4095) / 8) = false ∧
      (tget (Machine.core s 0).cs 0 4095).toNat = 2 ^ 34 + 2 ^ 33 + 4 * 2 ^ 29 + 5) ∧
    (BitVec.ofNat 36 (2 ^ 33 + 4 * 2 ^ 22 + 5 * 2 ^ 18 + 6 * 2 ^ 14)).toNat = 2 ^ 33 + 4 * 2 ^ 22 + 5 * 2 ^ 18 + 6 * 2 ^ 14 ∧
    3 * 2 ^ 34 ≤ (BitVec.allOnes 36).toNat := by unfold CanRun; decide

/-- CoreInterrupts: a wrap of an unchained counter, of one below a chained one; both interrupts; a page interrupt; a forced stop. -/
theorem witness_interrupts :
    let w : Counter := { cfg := 0x9001, wraps := [{ n := 2 }, {}] }
    let b1 : Counter := { cfg := 0x8001, wraps := [{}] }
    let a := on { userCore with cnt := [(7, w)] }
    let b := on { userCore with cnt := [(6, b1), (7, { cfg := 0xC000 })] }
    let o := onPol { userCore with ovfPend := true, fullPend := true }
    let x := { on { sysCore with sstatus := 1 } with hdrs := [(256, { intEn := true, raw := 1, en := 1, target := some 0 })] }
    let z := { onJob { userCore with st := .stopping, stopT := some 3 } { job1 with st := .ending } with now := 5 }
    ((counter (Machine.core a 0) 7).wraps = { n := 2 } :: [{}] ∧ (counter (Machine.core a 0) 7).cfg.getLsbD 11 = false ∧ 7 % 2 = 1) ∧
    ((counter (Machine.core b 0) 6).wraps = [{}] ∧ ({} : Wrap).n = 1 ∧ (counter (Machine.core b 0) 6).cfg.getLsbD 11 = false ∧
      (counter (Machine.core b 0) 7).cfg.getLsbD 14 = true ∧ (counter (Machine.core b 0) 7).cfg.getLsbD 15 = true) ∧
    (coreRuns o 0 = true ∧ HasHandler (Machine.core o 0) ∧ (Machine.core o 0).ovfPend = true ∧ (Machine.core o 0).fullPend = true) ∧
    (coreRuns x 0 = true ∧ (Machine.core x 0).user = false ∧ (Machine.core x 0).sstatus = 1 ∧ extFrame x 0 = some 256) ∧
    ((Machine.core z 0).st = .stopping ∧ (Machine.core z 0).out = false ∧ 2 ≤ z.now ∧ (Machine.core z 0).stopT = some (z.now - 2) ∧
      z.flt.latched = []) := by unfold HasHandler; decide

/-! ## Register pages and polders: witnesses -/

/-- Every clock domain runs. -/
def run : State := { ({} : State) with clkLock := BitVec.allOnes 40 }

/-- RegisterPageAccesses, CorePageAccesses, PolderLifecycle, BreachRecords, CipherAndDigest, Translation, MemoryAndFaults, EnergyAndTime,
Sideband: pages of running domains that the initiators reach, the last instance of each kind among them. -/
theorem witness_pages (f : Nat) (hf : f ∈ [frameOf 4 0 0, frameOf 4 0 1, frameOf 5 0 0, frameOf 6 0 0, frameOf 7 0 0, frameOf 8 0 0,
    frameOf 9 31 0, frameOf 9 31 1, frameOf 0x0A 0 0, frameOf 0x0B 0 0, frameOf 0x0C 0 0, frameOf 0x0D 0 0, frameOf 0x0E 0 0,
    frameOf 0x0F 0 0, frameOf 0x10 0 0, frameOf 0x11 0 0, frameOf 0x12 0 0, frameOf 0x13 0 0, frameOf 0x14 0 0, frameOf 2 0 0,
    frameOf 2 0 2, frameOf 2 0 64, frameOf 3 31 0]) :
    PageOpen run (.block 3 0) f ∧ (hdr run f).win = none ∧ (hdr run f).closed = [] := by
  simp only [List.mem_cons, List.not_mem_nil, or_false] at hf
  obtain h | h | h | h | h | h | h | h | h | h | h | h | h | h | h | h | h | h | h | h | h | h | h := hf <;> subst h <;>
    exact ⟨⟨rfl, _, _, _, rfl, by decide, by decide, rfl, by decide⟩, rfl, rfl⟩

/-- A page whose key window the initiator holds. -/
def keyed (f : Nat) : State := { run with hdrs := [(f, { win := some (.block 3 0), seq := 65535 })] }

/-- RegisterPageAccesses, PolderLifecycle, PolderTeardown, CipherAndDigest, FlashChannels, MemoryAndFaults: an open key window. -/
theorem witness_keyed (f : Nat) (hf : f ∈ [frameOf 0x0F 0 0, frameOf 2 0 2, frameOf 2 0 64, frameOf 5 0 0, frameOf 9 31 1, frameOf 0x0B 0 0,
    frameOf 0x0C 0 0, frameOf 0x12 0 0, frameOf 0x13 0 0]) : Keyed (keyed f) (.block 3 0) f := by
  simp only [List.mem_cons, List.not_mem_nil, or_false] at hf
  obtain h | h | h | h | h | h | h | h | h := hf <;> subst h <;>
    exact ⟨⟨rfl, _, _, _, rfl, by decide, by decide, rfl, by decide⟩, rfl⟩

/-- RegisterPageAccesses: another width, a wrong key, a stopped domain, BAR2, the last counter. -/
theorem witness_page_accesses :
    (2 : Nat) ≠ 4 ∧ (0 : W32) ≠ BitVec.ofNat 32 (0x4B47 * 65536 + (hdr run 256).seq.toNat) ∧
    (let s := ({} : State)
     pageAt (frameOf 9 0 0) = some (9, 0, 0) ∧ reaches s (.block 3 0) (frameOf 9 0 0) = true ∧ domainRuns s (domainOf 9 0) = false ∧
       s.flt.latched = [] ∧ domainOf 9 0 ≠ 2) ∧
    (let s := { run with rst := { bar2 := true } }
     s.rst.bar2 = true ∧ PageOpen s (.host 0) (frameOf 0x14 0 0)) ∧ 11 < 12 :=
  ⟨by decide, by decide, by decide, ⟨rfl, rfl, _, _, _, rfl, by decide, by decide, rfl, by decide⟩, by decide⟩

/-- CorePageAccesses: a service core that runs and one that is halted; a tenant core; page 1 of a core with a context. -/
theorem witness_core_pages :
    (let s := { setCore (setCore run 0 { sysCore with polder := 0 }) 1 { sysCore with st := .halted } with rst := { service := [0, 1] } }
     PageOpen s (.block 3 0) (frameOf 3 0 0) ∧ (hdr s (frameOf 3 0 0)).win = none ∧ 0 ∈ s.rst.service ∧ (Machine.core s 0).st = .running ∧
       1 ∈ s.rst.service ∧ (Machine.core s 1).st = .halted ∧ (Machine.core s 1).out = false ∧ (Machine.core s 1).wfe = none ∧ 2 ∉ s.rst.service) ∧
    (let s := { onPol { userCore with smpBase := 1, smpLimit := 1, cnt := [(7, { hiHold := some 5 })] } with
                  clkLock := BitVec.allOnes 40 }
     PageOpen s (.core 0) (frameOf 3 0 1) ∧ (hdr s (frameOf 3 0 1)).win = none ∧ (counter (Machine.core s 0) 6).hiHold = none ∧
       (counter (Machine.core s 0) 7).hiHold = some 5 ∧ job s 1 = some job1 ∧ (0, 4096) ∈ job1.ranges ∧ 0 ≤ (0 % 2 ^ 21) * 4096 ∧
       (Machine.core s 0).smpLimit.toNat * 4096 ≤ 0 + 4096) ∧
    (let s := setCore run 0 { sysCore with smpBase := 1 }
     PageOpen s (.block 3 0) (frameOf 3 0 1) ∧ (Machine.core s 0).smpBase.toNat < 2 % 2 ^ 21 ∧ (Machine.core s 0).job = none) :=
  ⟨⟨⟨rfl, _, _, _, rfl, by decide, by decide, rfl, by decide⟩, by decide⟩,
   ⟨⟨rfl, _, _, _, rfl, by decide, by decide, rfl, by decide⟩, by decide⟩,
   ⟨⟨rfl, _, _, _, rfl, by decide, by decide, rfl, by decide⟩, by decide⟩⟩

/-- Polder `p` in a state, with resource registers, behind an open key window of its page. -/
def polState (p : Nat) (v : Polder) : State :=
  { keyed (frameOf 2 0 (p + 1)) with
    pol := { ({} : Pol) with tab := tset [(0, { st := .active, weight := 16 })] {} p v }
    host := { vfEnable := true, numVfs := 63 } }

/-- PolderLifecycle: the last polder in each state; the checks of ACTIVATE met, and failed by a missing VF, a service core, a conflict. -/
theorem witness_lifecycle :
    (polder (polState 63 {}) 63).st = .empty ∧
    (let s := polState 63 { st := .provisioning, res := { cores := 4 } }
     (polder s 63).st = .provisioning ∧ actCheck s 63 false = none ∧ capFail s (polder s 63).res = none) ∧
    (let s := { polState 63 { st := .quiescing, res := { cores := 4 } } with host := { vfEnable := true, numVfs := 62 } }
     (polder s 63).st = .quiescing ∧ s.host.numVfs < 63) ∧
    (let s := { polState 63 { st := .provisioning, res := { cores := 4 } } with rst := { service := [2] } }
     capFail s (polder s 63).res = none ∧ 2 ∈ s.rst.service ∧ (polder s 63).res.cores.getLsbD 2 = true) ∧
    (let s := { polState 63 { st := .provisioning, res := { cores := 4 } } with
                  pol := { tab := [(0, { st := .active }), (1, { st := .active, own := { cores := 4 } }), (63, { st := .provisioning, res := { cores := 4 } })] } }
     (∀ d ∈ s.rst.service, (polder s 63).res.cores.getLsbD d = false) ∧ (1, polder s 1) ∈ s.pol.tab ∧ (polder s 1).st ≠ .empty ∧
       (polder s 63).res.cores.getLsbD 2 = true ∧ (polder s 1).own.cores.getLsbD 2 = true) ∧
    (polder (polState 1 { st := .active }) 1).st = .active ∧
    (let s := polState 1 { st := .quiescing }
     (polder s 1).st = .quiescing ∧ polBusy s 1 = false) := by decide

/-- PolderTeardown: a polder with a core, a key and a job; the two timeouts at their first instant. -/
theorem witness_teardown :
    (let s := { polState 1 { st := .active, own := { cores := 1, keys := 0x10001 } } with jobs := [(1, some job1)] }
     (polder s 1).st = .active ∧ ownsCore (polder s 1) 0 = true ∧ 0 ∉ s.rst.service ∧ keyOwner s 1 = 1) ∧
    (let s := { polState 1 { st := .teardown, own := { cores := 0x80000000 }, tdStart := 10 } with now := 12 }
     (polder s 1).st = .teardown ∧ s.flt.latched = [] ∧ ownsCore (polder s 1) 31 = true ∧ (polder s 1).tdStart + 2 ≤ s.now) ∧
    (let s := { polState 1 { st := .teardown, tdStart := 10 } with now := 60 }
     28 ≤ 28 ∧ (polder s 1).tdStart + 50 ≤ s.now) := by decide

/-- BreachRecords: the last numbers of each field, an empty FIFO, one record, a polder in TEARDOWN. -/
theorem witness_breaches :
    63 < 64 ∧ 255 < 256 ∧ (polder run 63).st ≠ .teardown ∧ run.pol.fifo.length < 256 ∧ run.pol.fifo = [] ∧
    (polder (polState 1 { st := .teardown }) 1).st = .teardown ∧
    ({ ({} : Pol) with fifo := [⟨1, 2, 3, 4⟩] }).fifo = ⟨1, 2, 3, 4⟩ :: [] := by decide

/-- BreachRecords: a full FIFO. -/
theorem witness_breaches_full (n : Nat) (h : 256 ≤ n) :
    256 ≤ ({ run with pol := { run.pol with fifo := List.replicate n ⟨1, 2, 3, 4⟩ } } : State).pol.fifo.length :=
  h.trans_eq List.length_replicate.symm

/-! ## The host side: witnesses -/

/-- A controller that runs, with one command waiting in its admin queue and in its I/O queue 1. -/
def hostOf (fn : Nat) : HostIf :=
  { vfEnable := true
    numVfs := 63
    portA := { up := true, width := 8, speed := 6, flit := true }
    ctrls := [(fn, { cc := 0x61#32, rdy := true, online := true })]
    sqs := [(fn * 65536, some { size := 8, cq := 0, tail := 1 }), (fn * 65536 + 1, some { size := 8, cq := 1, tail := 1 })]
    cqs := [(fn * 65536, some { size := 8 }), (fn * 65536 + 1, some { size := 8, vector := 1 })] }

/-- The machine behind it, with polder 1 ACTIVE. -/
def hosting (fn : Nat) : State := { run with host := hostOf fn, pol := pol1 id, rst := { ready := true } }

/-- Commands of the port A PF and of VF 1 can be fetched: LoadingPrograms, ExecutingPrograms, SubsystemLocalMemory, HostQueues, HostFeatures,
HostAdministration, IoCommands, StagedReads, ControllersAndResets, Namespaces, FirmwareUpdate, SecurityProtocols, Sideband. -/
theorem witness_fetch : (MayFetch (hosting 0) 0 0 ∧ MayCompute (hosting 0) 0 1) ∧ (MayFetch (hosting 1) 1 0 ∧ MayCompute (hosting 1) 1 1) ∧
    IsPf 0 ∧ ¬ IsPf 1 ∧ 0 < 4 :=
  ⟨⟨⟨by decide, by decide, _, _, rfl, by decide, rfl⟩, ⟨by decide, by decide, by decide, _, _, rfl, by decide, rfl⟩, by decide⟩,
   ⟨⟨by decide, by decide, _, _, rfl, by decide, rfl⟩, ⟨by decide, by decide, by decide, _, _, rfl, by decide, rfl⟩, by decide⟩,
   .inl rfl, by unfold IsPf; decide, by decide⟩

/-- An image of 4 bytes by its header, and one whose header names 12 bytes. -/
def header (n : Nat) : Bytes := List.replicate 8 0 ++ leBytes 4 n

/-- LoadingPrograms: a first piece, a continuation, a whole image that is rejected, an active and an inactive index, no job of the index.
An image that is accepted needs the signature check of R95, an opaque of `Config`: `loadReason` is 0 for no image that the kernel can
show. -/
theorem witness_loading :
    let s := { hosting 1 with progs := [(16, { partialLoad := header 64 }), (31, { image := some (header 12), active := true })] }
    ((prog s 1 0).active = false ∧ (header 12).length ≤ 2097152 ∧ (prog s 1 0).partialLoad.length = 12 ∧ (prog s 1 0).partialLoad ≠ [] ∧
      (header 64).length < 64 ∧ leAt (header 64) 8 4 = 64 ∧ 64 ≤ 67108864) ∧
    (12 ≤ (header 12).length ∧ leAt (header 12) 8 4 ≤ (header 12).length ∧ loadReason s 1 (header 12) ≠ 0) ∧
    ((prog s 1 15).image ≠ none ∧ s.jobs = [] ∧ twf s.jobs none = true) := by decide

/-- A job header of version 1 for one core with a reservation of 7 µJ. -/
def jobHeader : Bytes := [1, 0, 1, 0, 0, 0, 0, 0, 7] ++ List.replicate 23 0

/-- ExecutingPrograms: a program of one core, funded and not. -/
theorem witness_executing :
    let s := { hosting 1 with progs := [(16, { image := some (List.replicate 40 0 ++ [1]), active := true })]
                              rsets := [(65536 + 3, some { ranges := [(0, 4096)] })], nrg := { acct := [(1, { bal := 7, refill := 1 })] } }
    (headerOk jobHeader 0 = true ∧ (prog s 1 0).active = true ∧ engineCores s 1 = [0] ∧ freeCores s 1 = [0] ∧
      leAt (List.replicate 40 0 ++ [1]) 40 1 = 1 ∧ tget s.rsets none (1 * 65536 + 3) = some { ranges := [(0, 4096)] } ∧
      rangeHeld s 1 0 4096 = false) ∧
    (s.nrg.held.getLsbD 0 = false ∧ ((7 : Nat) : Int) ≤ (acct s 1).bal ∧ 7 ≤ 255 * (acct s 1).refill) ∧
    ¬ (((8 : Nat) : Int) ≤ (acct s 1).bal) := by decide

/-- JobEnds: a job at 4 ms, one 1 ms before its limit, one whose outputs have settled, a void block. -/
theorem witness_job_ends :
    let s := { hosting 1 with jobs := [(1, some { job1 with st := .admitting })], now := 4000, void := [7] }
    let u := { hosting 1 with jobs := [(1, some { job1 with limitMs := 5 })], now := 4000 }
    let e := { hosting 1 with jobs := [(1, some { job1 with st := .ending, result := some (.success, 5) })] }
    (job s 1 = some { job1 with st := .admitting } ∧ 0 + 4000 ≤ s.now ∧
      (∃ q c, sqOf s 1 1 = some q ∧ cqOf s 1 q.cq = some c) ∧ 7 ∈ s.void) ∧
    (job u 1 = some { job1 with limitMs := 5 } ∧ 0 + 0 + 5 * 1000 ≤ u.now + 1000) ∧
    (job e 1 = some { job1 with st := .ending, result := some (.success, 5) } ∧ job1.aborted = none) :=
  ⟨⟨rfl, by decide, ⟨_, _, rfl, rfl⟩, by decide⟩, ⟨rfl, by decide⟩, rfl, rfl⟩

/-- SubsystemLocalMemory: the last block of polder 1's namespace, a range set, a namespace of its own with a deallocated block. -/
theorem witness_slm :
    let v : Ns := { blocks := 4, segs := [(2, 1)], owner := 1, ctrl := some 1 }
    let s := { hosting 1 with rsets := [(65536 + 3, some { ranges := [(0, 4096)] })]
                              ftla := { nss := [(5, some v)], map := [(2048, 0o777777777776)] } }
    (65535 < 65536 ∧ tget s.rsets none (65536 + 65535) = none ∧ rsetCount s 1 < 16 ∧
      (∀ r ∈ [(1044480, 4096)], r.1 % 4096 = 0 ∧ r.2 % 4096 = 0 ∧ 0 < r.2 ∧ r.1 + r.2 ≤ memSize s 1)) ∧
    (tget s.rsets none (65536 + 3) ≠ none ∧ (∀ e ∈ s.jobs, ∀ w, e.2 = some w → ¬ (w.polder = 1 ∧ w.rset = 3))) ∧
    (1048575 + 1 ≤ memSize s 1 ∧ rangeHeld s 1 1048575 1 = false ∧ slmPoison s (slmFirst (polder s 1) + 1048575) 1 = false) ∧
    (nsOf s 5 = some v ∧ 0 + 1 ≤ v.blocks ∧ s.host.cmds = [] ∧ s.ftla.staging = [] ∧ dulbe s 1 = false ∧
      (∃ l, lidx v 0 = some l ∧ mapGet s l = vDealloc ∧ (tget s.ftla.pages {} (l / 1024)).loc = none)) :=
  ⟨by decide, ⟨by decide, by intro e he; cases he⟩, by decide, rfl, by decide, rfl, rfl, rfl, _, rfl, rfl, rfl⟩

/-- HostQueues: a queue to create, one to delete, a completion queue in use; doorbells at the last entry. -/
theorem witness_queues :
    let s := hosting 0
    let u := { s with host := { s.host with cqs := tset s.host.cqs none 2 (some { size := 4, posted := [{ fn := 0, sq := 1, cid := 3 }] }) } }
    (2 ≤ queueLimit s 0 ∧ sqOf s 0 2 = none ∧ cqOf s 0 1 ≠ none ∧ cqOf s 0 2 = none ∧ 1 < vectorCount s 0 ∧ sqOf s 0 1 ≠ none ∧
      s.host.cmds = [] ∧ cqUsed s 0 1 = true ∧ cqOf u 0 2 ≠ none ∧ cqUsed u 0 2 = false) ∧
    (running s 0 = true ∧ (polder s (fnPolder 0)).st ≠ .teardown ∧ sqOf s 0 1 = some { size := 8, cq := 1, tail := 1 } ∧ 7 < 8 ∧
      cqOf u 0 2 = some { size := 4, posted := [{ fn := 0, sq := 1, cid := 3 }] } ∧ 1 < 4 ∧ (1 + 4 - 0) % 4 ≤ 1) := by decide

/-- HostFeatures: the last values of each feature. -/
theorem witness_features :
    let s := hosting 0
    (3 ≤ 3 ∧ 5 ≤ 5 ∧ (∀ e ∈ [(4, 100), (0, 0), (5, 9)], e = (0, 0) ∨ e.1 = 4 ∨ e.1 = 5) ∧ 63 < 64 ∧ (polder s 63).st ≠ .teardown ∧ 255 < 256 ∧
      2400 ≤ 2400 ∧ 2400 < 2401 ∧ 99 < 100) ∧
    (65534 < 65535 ∧ 1 ≤ queueLimit s 0 ∧ queueLimit s 0 ≤ 65536 ∧ sqOf s 0 1 = some { size := 8, cq := 1, tail := 1 }) ∧
    (polder (polState 63 { st := .teardown }) 63).st = .teardown := by decide

/-- A controller of the port A PF changed by `f`, and its outstanding commands. -/
def hostCtrl (f : Ctrl → Ctrl) (cmds : List Cmd) : State :=
  { hosting 0 with host := { hostOf 0 with ctrls := [(0, f { cc := 0x61#32, rdy := true, online := true })], cmds := cmds } }

/-- HostAdministration: eight Aborts and event requests, fewer, a read and a job to abort, an event that waits, a snapshot. -/
theorem witness_administration :
    let full := hostCtrl (fun c => { c with aborts := List.replicate 8 (1, 1, 1), aers := List.replicate 8 1 }) []
    let r : Cmd := { fn := 0, sq := 1, cid := 9, op := .read }
    let x : Cmd := { fn := 0, sq := 1, cid := 8, op := .exec 1 }
    let s := { hostCtrl (fun c => { c with events := [⟨6, 3, 0xC4⟩] }) [r, x] with jobs := [(1, some { job1 with polder := 0 })] }
    let v : Ns := { blocks := 4, ctrl := some 0 }
    (8 ≤ (ctrl full 0).aborts.length ∧ 8 ≤ (ctrl full 0).aers.length) ∧
    ((ctrl s 0).aborts.length < 8 ∧ findCmd s 0 1 7 = none ∧ findCmd s 0 1 9 = some r ∧ r.op = .read ∧ findCmd s 0 1 8 = some x ∧
      job s 1 = some { job1 with polder := 0 } ∧ (ctrl s 0).aers.length < 8 ∧ (ctrl s 0).events = ⟨6, 3, 0xC4⟩ :: []) ∧
    (0xC6 ∉ [0, 1, 2, 3, 4, 5, 6, 7, 0x0D, 0x20, 0x21, 0x22, 0x23, 0x81, 0xC0, 0xC1, 0xC2, 0xC3, 0xC4, 0xC5]) ∧
    (s.host.calSnap = none ∧ { s with host := { s.host with calSnap := some [1] } }.host.calSnap = some [1]) ∧
    (attached { s with ftla := { nss := [(5, some v)] } } 0 5 = some v ∧ attached s 0 0 = none) ∧
    (∃ f, ({ s with nv := { faults := [⟨1, 2, 0, 4, 5, 9, 0, 0, 1, 2⟩] } } : State).nv.faults[0]? = some f) :=
  ⟨by decide, by decide, by decide, by decide, by decide, ⟨_, rfl⟩⟩

theorem witness_has_queue : HasQueue (hosting 0) 0 1 := ⟨_, _, rfl, by decide, rfl⟩

/-- A namespace of two pages attached to the port A PF. -/
def ns0 : Ns := { blocks := 2048, segs := [(4, 2)], ctrl := some 0 }

/-- The port A PF with that namespace as NSID 1, staged writes, and a staging limit in MiB. -/
def storing (staging : List Staged) (limit : Nat) (cmds : List Cmd := []) : State :=
  { hosting 0 with ftla := { nss := [(1, some ns0)], staging := staging, enable := true }, host := { hostOf 0 with cmds := cmds }
                   nrg := { limit := limit, embValid := true } }

/-- IoCommands: room for one block and none, a limit of 0, a staged block, the first block past the end, no staging, a write that waits, a
read at 3.5 ms. -/
theorem witness_io :
    let e : Staged := { seq := 1, nsid := 1, lba := 7, lidx := 4096 + 7, polder := 0, data := [1, 2] }
    let w : Cmd := { fn := 0, sq := 1, cid := 9, nsid := 1, op := .write 7 [[1]] }
    let r : Cmd := { fn := 0, sq := 1, cid := 9, op := .read }
    (MayIo (storing [] 1) 0 1 ∧ attached (storing [] 1) 0 1 = some ns0 ∧ findCmd (storing [] 1) 0 1 9 = none ∧ lidx ns0 2047 ≠ none) ∧
    (7 + 1 ≤ ns0.blocks ∧ (storing [] 1).nrg.limit ≠ 0 ∧ occupancy (storing [] 1) + 1 * blockLen ns0 ≤ (storing [] 1).nrg.limit * 1048576 ∧
      (storing [] 0).nrg.limit = 0 ∧ ¬ (occupancy (storing [] 1) + 257 * blockLen ns0 ≤ (storing [] 1).nrg.limit * 1048576) ∧
      ({ ns0 with lbaf := 1 }).lbaf ≠ 0) ∧
    (lidx ns0 7 = some (4096 + 7) ∧ stagedOf (storing [e] 1) (4096 + 7) = some e ∧ stagedLost (storing [e] 1) e = false ∧
      (∃ x ∈ (storing [e] 1).ftla.staging, x.nsid = 1)) ∧
    (ns0.blocks < 2048 + 1 ∧ (storing [] 1).host.cmds = [] ∧ jFull (storing [] 1) = false) ∧
    (findCmd (storing [] 1 [w]) 0 1 9 = some w ∧ w.op = .write 7 [[1]] ∧ HasQueue (storing [] 1 [w]) 0 1 ∧ nsOf (storing [] 1 [w]) 1 = some ns0) ∧
    (findCmd (storing [] 1 [r]) 0 1 9 = some r ∧ r.t + 3500 ≤ ({ storing [] 1 [r] with now := 3500 } : State).now) :=
  ⟨⟨⟨by decide, by decide, by decide, _, _, rfl, by decide, rfl⟩, by decide⟩, by decide, by decide, by decide,
   ⟨rfl, rfl, ⟨_, _, rfl, by decide, rfl⟩, rfl⟩, by decide⟩

/-- IoCommands: every block of the namespace has a logical index, so the premise about them is met. -/
theorem witness_io_indices : ∀ i, i < 2048 → lidx ns0 i ≠ none := by
  intro i hi
  simp [lidx, segIdx, ns0, hi]

/-- StagedReads: two staged entries of one block, the later with the higher sequence number. -/
theorem witness_staged_read :
    let a : Staged := { seq := 1, nsid := 1, lba := 7, lidx := 4103, polder := 0, data := [1] }
    let e : Staged := { seq := 2, nsid := 1, lba := 7, lidx := 4103, polder := 0, data := [2] }
    let s := storing [a, e] 1
    MayIo s 0 1 ∧ attached s 0 1 = some ns0 ∧ findCmd s 0 1 9 = none ∧ 7 < ns0.blocks ∧ lidx ns0 7 = some 4103 ∧ e ∈ s.ftla.staging ∧
      stagedLost s e = false ∧ ∀ x ∈ s.ftla.staging, x.lidx = 4103 → x = e ∨ x.seq < e.seq :=
  ⟨⟨by decide, by decide, by decide, _, _, rfl, by decide, rfl⟩, by decide⟩

/-! ## Controllers, administration, security: witnesses -/

/-- The port A PF enabled and its controller changed by `f`, dual-port mode, VF 5 with the resources and the polder of VF 1's model. -/
def pfState (f : Ctrl → Ctrl) (h : HostIf → HostIf := id) : State :=
  { hosting 0 with
    rst := { ready := true, dual := true }
    host := h { hostOf 0 with
      ctrls := [(0, f { cc := 0x61#32, rdy := true }), (1, { cc := 0x61#32, vq := 2, vi := 1 }), (63, { cc := 0x61#32, online := true })]
      portB := { up := true, width := 4, speed := 5 } } }

/-- ControllersAndResets: link training, enable, ready, reset, shutdown, the reach of VF enable and of the port resets. -/
theorem witness_controllers :
    let s := pfState id
    (domainRuns s 1 = true ∧ domainRuns s 2 = true ∧ s.rst.dual = true) ∧
    (let e := pfState (fun c => { c with cc := 0 })
     present e 0 = true ∧ linkUp e 0 = true ∧ (0x61#32).getLsbD 0 = true ∧ (ctrl e 0).cc.getLsbD 0 = false) ∧
    (let r := pfState (fun c => { c with rdy := false })
     present r 0 = true ∧ (ctrl r 0).cc.getLsbD 0 = true ∧ (ctrl r 0).rdy = false ∧ (ctrl r 0).cfs = false ∧ r.rst.ready = true ∧
       r.nv.failedDev = 0 ∧ r.drc.failedCh = 0) ∧
    (present s 63 = true ∧ (ctrl s 63).cc.getLsbD 0 = true ∧ s.pol.reactivate = false ∧ s.host.fwAct = none ∧ (polder s 63).st ≠ .teardown ∧
      (ctrl s 63).shst = 0) ∧
    (pfState id (fun h => { h with fwAct := some { fn := 0, cid := 3, slot := 1, t := 0 } })).host.fwAct ≠ none ∧
    (let d := pfState (fun c => { c with shst := 1 })
     (ctrl d 0).shst = 1 ∧ d.ftla.staging = [] ∧ d.ftla.replaying = false ∧ d.ftla.writeback = false) ∧
    (let v := pfState id (fun h => { h with vfEnable := false })
     v.host.vfEnable = false ∧ 63 ≤ 63 ∧ v.host.portA.up = true) ∧
    (s.host.vfEnable = true ∧ 62 < s.host.numVfs ∧ 62 < 63) := by decide

/-- ControllersAndResets: the last resources of a secondary controller, too many, missing ones, an Online one, one in TEARDOWN. -/
theorem witness_secondary :
    let s := pfState id
    let u := { s with pol := { s.pol with tab := tset s.pol.tab {} 63 { st := .teardown } } }
    (MayFetch s 0 0 ∧ (polder s 1).st ≠ .teardown ∧ 2 ≤ (ctrl s 1).vq ∧ 1 ≤ (ctrl s 1).vi ∧ (ctrl s 1).online = false ∧ 1024 ≤ 1024) ∧
    ((ctrl s 63).vq < 2 ∧ (ctrl s 63).online = true) ∧
    (heldBy s 1 (fun c => c.vq) + 1024 ≤ 3968 ∧ heldBy s 1 (fun c => c.vi) + 1024 ≤ 1920) ∧
    (let b := pfState id (fun h => { h with ctrls := tset h.ctrls {} 63 { vq := 3000 } })
     3968 < heldBy b 1 (fun c => c.vq) + 1024) ∧
    (polder u 63).st = .teardown :=
  ⟨⟨⟨by decide, by decide, _, _, rfl, by decide, rfl⟩, by decide⟩, by decide, by decide, by decide, by decide⟩

/-- PowerStates: an APST entry at its first instant, an entry without dirty pages, an exit, the initialisation. -/
theorem witness_power_states :
    let s := { hosting 0 with now := 100000, ftla := { pages := [(7, { cached := true, dirty := true, slot := 0 })] } }
    let s := { s with host := { s.host with apstEn := true, apst := [(4, 100), (0, 0)] } }
    let e := { s with host := { s.host with psEntry := some 4 } }
    let x := { s with host := { s.host with ps := 4, psExit := true }, drc := { init := true } }
    (s.host.apstEn = true ∧ s.host.apst[s.host.ps]? = some (4, 100) ∧ s.host.ps < 4 ∧ s.host.psEntry = none ∧ s.host.psExit = false ∧
      s.host.cmds = [] ∧ s.jobs = [] ∧ s.host.idleSince + 100 * 1000 ≤ s.now) ∧
    (e.host.psEntry = some 4 ∧ (∀ p ∈ e.ftla.pages, slotDropped p.2.slot = false)) ∧
    (x.host.psExit = true ∧ 4 ≤ x.host.ps ∧ x.drc.init = true) := by decide

/-- Namespaces: the last block count that one page holds, a namespace to delete, attach, detach and format; a polder that hinders. -/
theorem witness_namespaces :
    let s := { storing [] 1 with pol := { ({} : Pol) with tab := [(0, { st := .active })] } }
    let a := { s with ftla := { s.ftla with nss := [(1, some { ns0 with ctrl := none })] } }
    let t := { s with pol := { ({} : Pol) with tab := [(0, { st := .active }), (5, { st := .teardown })] } }
    (MayFetch s 0 0 ∧ 1024 ≠ 0xFFFFFFFF ∧ nsOf (hosting 0) 1 = none ∧ allocSegs (hosting 0) 1024 = some [(0, 1)] ∧
      allocSegs (hosting 0) (10 ^ 14) = none) ∧
    (nsOf s 1 = some ns0 ∧ (polder s 0).st ≠ .teardown ∧ ns0.ctrl = some 0 ∧ nsOf a 1 = some { ns0 with ctrl := none }) ∧
    (∀ e ∈ s.pol.tab, e.1 = 0 ∨ e.2.st = .empty) ∧ ((5 : Nat) ≠ 0 ∧ (polder t 5).st = .teardown ∧ (polder t 5).st ≠ .empty) :=
  ⟨⟨⟨by decide, by decide, _, _, rfl, by decide, rfl⟩, by decide⟩, by decide, by decide, by decide⟩

/-- FirmwareUpdate: a download at the end of the area, an image that is no image; an activation that quiesces and one that ends. The
premise `fwCheck s im = none` needs a signature that verifies: `Config.ecdsaVerify` is an outside standard's (assumption 4), so the kernel
can show no image that meets it. -/
theorem witness_firmware :
    let a : FwAct := { fn := 0, cid := 4, slot := 2, t := 7 }
    let c : Cmd := { fn := 0, sq := 0, cid := 4, op := .activate }
    let s := { pfState id (fun h => { h with fwAct := some a, cmds := [c] }) with jobs := [(1, some job1)] }
    let q := pfState id (fun h => { h with fwAct := some { a with quiesced := true }, cmds := [c] })
    ([1, 2, 3, 4].length % 4 = 0 ∧ 33554428 % 4 = 0 ∧ 33554428 + [1, 2, 3, 4].length ≤ 33554432) ∧
    (formatOk ((pfState id).nv.download.take 0) true = false ∧ 2 ≤ 2) ∧
    (s.host.fwAct = some a ∧ a.quiesced = false ∧ (∀ x ∈ s.host.cmds, x.sq = 0) ∧ job s 1 = some job1 ∧ job1.st = .running) ∧
    (q.host.fwAct = some { a with quiesced := true } ∧ a.byReset = false ∧ q.host.enClears = [] ∧ q.jobs = [] ∧ findCmd q 0 0 4 = some c ∧
      HasQueue q 0 0) :=
  ⟨by decide, by decide, by decide, rfl, rfl, rfl, rfl, rfl, _, _, rfl, by decide, rfl⟩

/-- The host side of the port A PF with a KEK, a transport key, a nonce, a key in slot 3 and one HMAC key. -/
def securing : State :=
  { hosting 0 with
    host := { hostOf 0 with nonces := [(0, List.replicate 32 7)] }
    isl := { kek := [(0, some (5#8, [1, 2]))], transDraw := [(0, 4)], keys := [(3, { key := some [9], gen := 6 })], hmacs := [(2, { key := some [9] })] } }

/-- A LOAD_KEY blob of kind 1 for slot 3 under KEK generation `g`. -/
def blob (g : Byte) : Bytes := [1, 0, 1, 0, 3, 0, 32, g] ++ List.replicate 48 0

/-- SecurityProtocols: every transfer, a KEK of the blob's generation, of another, and none. That a point is valid and a blob unwraps is for
the outside standards to say (`Config.p384Valid`, `Config.keyUnwrap`, assumption 4): the witness holds for either answer. -/
theorem witness_security :
    let s := securing
    MayFetch s 0 0 ∧ (1 : Nat) ≠ 0 ∧ tget s.isl.kek none 0 = some (5#8, [1, 2]) ∧ (List.replicate 32 7 : Bytes).length = 32 ∧
    tget s.host.nonces [] 0 ≠ [] ∧ ((4 : Byte) :: List.replicate 96 0).length = 97 ∧ tget s.isl.transDraw 0 0 ≠ 0 ∧
    (blobOk (blob 5) = true ∧ leAt (blob 5) 2 1 = 1 ∧ keySlot s 0 (leAt (blob 5) 4 2) = some 3 ∧ (5#8).toNat = leAt (blob 5) 7 1 ∧
      (5#8).toNat ≠ leAt (blob 6) 7 1 ∧ tget (hosting 0).isl.kek none 0 = none ∧ (polder s 0).st ≠ .teardown) ∧
    (([1, 0, 3, 0] : Bytes).length = 4 ∧ leAt [1, 0, 3, 0] 0 1 = 1 ∧ keySlot s 0 (leAt [1, 0, 3, 0] 2 2) = some 3 ∧ leAt [3, 0, 0, 0] 0 1 = 3) ∧
    ([0] ++ List.replicate 97 4 : Bytes).length = 98 :=
  ⟨⟨by decide, by decide, _, _, rfl, by decide, rfl⟩, by decide⟩

/-! ## Engine rings: witnesses -/

/-- A descriptor of a class, op and input kind with a declared length and a handle, whose output goes to the completion; words 6 on. -/
def flight (cls op kind len : Nat) (h : W32) (more : List W32) : Flight :=
  { idx := 7
    words := [BitVec.ofNat 32 (cls * 2 ^ 28 + op * 2 ^ 20 + kind * 2 ^ 18), 5, BitVec.ofNat 32 len, h, 255, 0] ++ more
    ins := if kind = 1 then [h] else [] }

/-- Ring 255 of polder 0, or ring `r`, held by service firmware or by job 1 of polder 1, with that descriptor in flight and a buffer of
64 bytes and pool 1. Ring 5 is polder 1's. -/
def ringing (holder : Holder) (f : Flight) (r : Nat := 255) : State :=
  setRing { run with pol := pol1 (fun p => { p with own := { p.own with bufq := 16 } }), jobs := [(1, some job1)]
                     nrg := { acct := [(1, { bal := 5 })] }, isl := { ready := true }
                     bpm := { bufs := [(bufKey 1 4607, { gen := 9, ref := 1, fill := 64 })] } } r
    { holder := holder, cons := 65535, prod := 3, cprod := 31, flight := [f] }

/-- The handle of that buffer. -/
def aHandle : W32 := mkHandle 1 0 4607 9

/-- EngineRings: doorbells on each side of 32, a dispatch, an invalid descriptor, a fence, a completion, a full queue, cancel. -/
theorem witness_rings :
    let f := flight 7 3 0 0 0 [0, 65535, 1]
    let s := ringing .service f
    let g := ring s 255
    let e : ERes := { status := 6, consumed := 1 }
    (255 < 256 ∧ (g.holder = .service) ∧ ((31 : BitVec 16) - g.cons).toNat ≤ 32 ∧ 32 < ((32 : BitVec 16) - g.cons).toNat ∧
      (32 : BitVec 16) ≠ g.prod ∧ (ring (ringing (.job 1) f) 255).holder = .job 1) ∧
    (let q := setRing s 255 { g with flight := [], desc := [(496, 0x70300000#32), (500, 255), (503, 65535), (504, 1)] }
     let d : Flight := { idx := 65535, words := (List.range 16).map (fun k => tget (ring q 255).desc 0 (65535 % 32 * 16 + k)) }
     (ring q 255).halted = false ∧ (ring q 255).cons ≠ (ring q 255).prod ∧ ringLive q 255 = true ∧ draining q = false ∧ slotPoison q 255 65535 = false ∧ isFrag d = false ∧
       descInvalid q 255 d = false ∧ fFence d = false ∧ descHeld q 255 d = false ∧ fKind d ≤ 1) ∧
    (let d : Flight := { idx := 65535, words := [0xFFFFFFFF] }
     descInvalid s 255 d = true ∧ isFrag (flight 3 0 1 64 aHandle [0x80000003#32, 0]) = true ∧ fFirst (flight 3 0 1 64 aHandle [0x80000003#32, 0]) = true ∧
       fLast (flight 3 0 1 64 aHandle [0x80000003#32, 0]) = false ∧ fFirst (flight 5 0 1 64 aHandle [0x41000000#32, 0]) = false) ∧
    (let d : Flight := { idx := 65535, words := [0x70300020, 0, 0, 0, 255, 0, 0, 65535, 1] ++ List.replicate 7 0 }
     descInvalid s 255 d = false ∧ fFence d = true ∧ g.flight ≠ []) ∧
    (let r := ringing .service { f with res := some e }
     flightOf r 255 7 = some { f with res := some e } ∧ e.verdict = none ∧ f.down = none ∧ fNext f = 255 ∧ fNocomp f = false ∧ e.status = 6 ∧
       (ring r 255).cprod - (ring r 255).ccons ≠ 32 ∧ (ring (setRing r 255 { ring r 255 with ccons := 65535 }) 255).cprod - 65535 = 32) ∧
    ({ e with verify := true }).verify = true ∧
    (areaOk s (.block 3 0) 255 = true ∧ areaOk s (.core 0) 4 = true ∧ (g.cprod - 31).toNat ≤ 32 ∧ (0x80000007#32).getLsbD 31 = true ∧
      flightOf s 255 7 = some f ∧ g.cancelReq = false ∧ flightOf s 255 0 = none ∧ 0 ∉ g.skip ∧
      (BitVec.ofNat 16 0 - g.cons).toNat < (g.prod - g.cons).toNat) ∧
    (let s := onPol { userCore with polder := 2 }
     areaOk s (.core 0) 5 = false) ∧
    (flightOf (ringing .service { f with cancelled := true }) 255 7 = some { f with cancelled := true }) := by refine ⟨?_, ?_, ?_, ?_, ?_, ?_, ?_, ?_, ?_⟩ <;> decide +kernel

/-- RingMemory: allocations in each pool, without room; references at their bounds; timeouts at their first instant. -/
theorem witness_buffers :
    let a := ringing .service (flight 0 0 0 0 0 [512])
    let j := ringing (.job 1) (flight 0 0 0 0 0 [65537]) 5
    let h := ringing .service (flight 0 1 0 0 0 [aHandle])
    let r := ringing .service (flight 0 2 0 0 0 [aHandle])
    (OpReady a 255 7 0 0 (flight 0 0 0 0 0 [512]) ∧ poolFor a 512 = some 0 ∧ unitsUsed a 0 + poolBytes 0 / 512 ≤ quotaUnits a 0) ∧
    (OpReady j 5 7 0 0 (flight 0 0 0 0 0 [65537]) ∧ (allocBuf j 1 65537 (some 1)).isNone = true) ∧
    (OpReady h 255 7 0 1 (flight 0 1 0 0 0 [aHandle]) ∧ bufOk h 0 aHandle = true ∧ (buf h (hKey aHandle)).ref ≠ 255 ∧ bufOk h 0 0 = false) ∧
    (OpReady r 255 7 0 2 (flight 0 2 0 0 0 [aHandle]) ∧ bufOk r 0 aHandle = true ∧ (buf r (hKey aHandle)).quar = [] ∧ (buf r (hKey aHandle)).ref = 1) ∧
    (let m := { h with bpm := { h.bpm with bufs := [(bufKey 1 4607, { gen := 9, ref := 255, zeroing := true })] } }
     bufOk m 0 aHandle = true ∧ (buf m (hKey aHandle)).ref = 255 ∧ (buf m (bufKey 1 4607)).zeroing = true) ∧
    (let f := { flight 0 0 0 0 0 [512] with waitBuf := some 3, waitNrg := some 4 }
     let w := { ringing .service f with now := 20004 }
     255 < 1024 ∧ flightOf w 255 7 = some f ∧ 3 + 100 ≤ w.now ∧ 4 + 20000 ≤ w.now ∧ f.res = none ∧ draining w = false) := by
  unfold OpReady Fresh; refine ⟨?_, ?_, ?_, ?_, ?_, ?_⟩ <;> decide +kernel

/-- RingMemory: an input of 64 bytes into SLM, 4,096 bytes out of it, a staged block, the audit. -/
theorem witness_dma :
    let t := flight 1 0 1 64 aHandle [0, 8]
    let u := flight 1 1 0 4096 0 [0, 8]
    let s := ringing .service t
    let v := ringing .service u
    (OpReady s 255 7 1 0 t ∧ OpInput s 255 t 1 (List.replicate 64 0) ∧ dmaOk s 255 (dmaAddr s 255 t) 64 = true) ∧
    (OpReady v 255 7 1 1 u ∧ 1 ≤ fDecl u ∧ fDecl u ≤ 4096 ∧ dmaOk v 255 (dmaAddr v 255 u) 4096 = true ∧
      slmPoison v (dmaAddr v 255 u) 4096 = false ∧ OpRoom v 255 u 4096) ∧
    (let t := { t with words := t.words.set 6 3 }
     dmaOk (ringing (.job 1) t 5) 5 1048576 4 = false) ∧
    (let f := flight 2 0 0 0 0 [1, 7, 0, 1]
     let w : Staged := { seq := 1, nsid := 1, lba := 7, lidx := 4103, polder := 0, data := [] }
     let s := { ringing .service f with ftla := { nss := [(1, some ns0), (2, some { ns0 with owner := 2 })], staging := [w] } }
     OpReady s 255 7 2 0 f ∧ f.parts = [] ∧ nsOf s (fw f 6).toNat = some ns0 ∧ ringStamp s 255 = 0 ∧ fld (fw f 9) 9 0 = 1 ∧ fld (fw f 9) 14 12 = 0 ∧
       lidx ns0 7 = some 4103 ∧ stagedOf s 4103 = some w ∧ stagedLost s w = false ∧ OpRoom s 255 f 4096) ∧
    ((0 : W32).getLsbD 0 = false ∧ (1 : W32).getLsbD 0 = true ∧ (bufKey 1 4607) < 32768 ∧ (1 : BitVec 8) ≠ 0 ∧ 0 + 0 * 1000 < 1) := by
  unfold OpReady Fresh OpInput OpRoom; refine ⟨?_, ?_, ?_, ?_, ?_⟩ <;> decide +kernel

/-- RingMemory: the staged block is 4,096 bytes long. -/
theorem witness_dma_block : (List.replicate 4096 (0 : Byte)).length = 4096 := List.length_replicate

/-- CipherAndDigest: both GCM operations with a key and without one, in a slot that the stamp does not own; an erase, contexts, a hash with a
value to verify, a measurement. Lengths of the outside standards' results (`Config.gcmCrypt`, `Config.sha256` and the others, assumption 4)
are theirs to say; the premises about them hold for results of 1 to 4,096 bytes. -/
theorem witness_cipher :
    let e := flight 3 0 1 64 aHandle [0xC0000003#32, 0]
    let d := flight 3 1 1 64 aHandle [0xC0000003#32, 0]
    let held := fun (f : Flight) => { ringing .service { f with key := some (3, 2) } with isl := { keys := [(3, { gen := 2, key := some [9] })] } }
    (OpReady (ringing .service e) 255 7 3 0 e ∧ OpReady (ringing .service d) 255 7 3 1 d ∧ fFirst e = true ∧ fLast e = true) ∧
    (OpInput (ringing .service e) 255 e 1 (List.replicate 64 0) ∧ OpInput (ringing .service d) 255 d 1 (List.replicate 64 0)) ∧
    (keySlot (ringing .service e) 0 3 = some 3 ∧ (tget (ringing .service e).isl.keys {} 3).key = none ∧ keySlot (ringing (.job 1) e 5) 1 3 = none) ∧
    (OpReady (held e) 255 7 3 0 { e with key := some (3, 2) } ∧ OpReady (held d) 255 7 3 1 { d with key := some (3, 2) } ∧
      OpInput (held d) 255 { d with key := some (3, 2) } 1 (List.replicate 64 0) ∧ keySlot (held d) 0 3 = some 3 ∧
      genKey (tget (held d).isl.keys {} 3) 2 = some [9] ∧ (held d).isl.nextQuar ∉ (held d).isl.failedQ ∧
      (∀ e ∈ (held d).bpm.rings, ∀ x ∈ e.2.flight, started x = false)) ∧
    (OpRoom (ringing .service e) 255 e 4096 ∧ OpRoom (ringing .service d) 255 d 4096) := by
  unfold OpReady Fresh OpInput OpRoom; refine ⟨?_, ?_, ?_, ?_, ?_⟩ <;> decide +kernel

/-- CipherAndDigest: erasing a key, releasing a cipher context of the stamp, of another polder, none. -/
theorem witness_cipher_release :
    let k := flight 3 2 0 0 0 [3]
    let f := flight 3 3 0 0 0 [0, 0, 0, 0, 0, mkCtx 9 7 63]
    let s := { ringing .service f with isl := { cctx := [(ctxKey 7 63, { used := true, seq := 9 })] } }
    let o := { ringing .service f with isl := { cctx := [(ctxKey 7 63, { used := true, seq := 9, polder := 2, lost := true })] } }
    OpReady (ringing .service k) 255 7 3 2 k ∧
    OpReady s 255 7 3 3 f ∧ cPipe (fw f 11) < 8 ∧ (tget s.isl.cctx {} (ctxKey 7 63)).used = true ∧ cSeq (fw f 11) = 9 ∧
      (tget o.isl.cctx {} (ctxKey 7 63)).polder ≠ 0 ∧ (tget o.isl.cctx {} (ctxKey 7 63)).lost = true ∧ (tget (ringing .service f).isl.cctx {} (ctxKey 7 63)).used = false := by
  unfold OpReady Fresh; refine ⟨?_, ?_, ?_, ?_, ?_, ?_, ?_, ?_⟩ <;> decide +kernel

/-- CipherAndDigest: a hash, a hash with a value to verify, an extend, a measurement, a digest context. -/
theorem witness_digest :
    (let f := flight 4 0 1 64 aHandle [0xC0000000#32]
     let v := flight 4 0 1 64 aHandle [0xE0000000#32, 0, aHandle]
     OpReady (ringing .service f) 255 7 4 0 f ∧ OpInput (ringing .service f) 255 f 1 (List.replicate 64 0) ∧ fHmac f = false ∧ fList f = false ∧
       (fw f 6).getLsbD 29 = false ∧ OpRoom (ringing .service f) 255 f 512 ∧ (fw v 6).getLsbD 29 = true ∧
       bufOk (ringing .service v) 0 (fw v 8) = true ∧ bufPoison (ringing .service v) (fw v 8) = false) ∧
    (let f := flight 4 1 1 48 aHandle [0]
     OpReady (ringing .service f) 255 7 4 1 f ∧ OpInput (ringing .service f) 255 f 1 (List.replicate 48 0)) ∧
    (let f := flight 4 2 0 0 0 [71]
     OpReady (ringing .service f) 255 7 4 2 f ∧ OpRoom (ringing .service f) 255 f 512) ∧
    (let f := flight 4 3 0 0 0 [0, mkCtx 9 3 63]
     let s := { ringing .service f with isl := { dctx := [(ctxKey 3 63, { used := true, seq := 9 })] } }
     OpReady s 255 7 4 3 f ∧ cPipe (fw f 7) < 4 ∧ (tget s.isl.dctx {} (ctxKey 3 63)).used = true ∧ cSeq (fw f 7) = 9) := by
  unfold OpReady Fresh OpInput OpRoom; refine ⟨?_, ?_, ?_, ?_⟩ <;> decide +kernel

/-- CipherAndDigest: the third failed window within a second, a recovery's stages, the register pages. -/
theorem witness_island :
    (({ run with isl := { failT := [5, 6] }, now := 1000004 } : State).now < 5 + 1000000 ∧
      ({ run with isl := { failT := [5, 6] }, now := 1000004 } : State).now < 6 + 1000000 ∧ run.isl.failT = [] ∧ run.isl.up = false ∧ ({ run with isl := { up := true } } : State).isl.sampled = false ∧
      2 ^ 20 ≤ ({ run with isl := { reqs := 1048576 } } : State).isl.reqs ∧
      run.now < run.isl.seedT + 1000000 ∧ run.isl.reqs < 2 ^ 20) ∧
    (let s := { run with isl := { alarms := 1 } }
     let u := { run with isl := { alarms := 1, mediaReady := true } }
     s.isl.alarms ≠ 0 ∧ s.isl.mediaReady = false ∧ u.isl.mediaReady = true ∧ u.isl.ready = false ∧ (polder u 0).st ≠ .empty) ∧
    (1023 < 1024 ∧ (keyed (frameOf 5 0 0)).isl.mediaEnd ≤ (keyed (frameOf 5 0 0)).now ∧
      mediaBusy { keyed (frameOf 5 0 0) with isl := { mediaEnd := 2 } } = true ∧ (71 : W32).toNat % 128 ≤ 71 ∧ 71 < (72 : W32).toNat % 128) := by refine ⟨?_, ?_, ?_⟩ <;> decide +kernel

/-- CipherAndDigest: no soft decode waits anywhere. -/
theorem witness_none_waits : ∀ ch, ∀ x ∈ (flc run ch).soft, x.wait ≠ [] := fun _ _ h => nomatch h

/-- The bytes of the buffer in `ringing`, and its length. -/
def holding (s : State) (bs : Bytes) : State :=
  { s with bpm := { s.bpm with sram := writeBytes [] (bufBase 1 4607) bs, bufs := [(bufKey 1 4607, { gen := 9, ref := 1, fill := bs.length })] } }

/-- Compression: a compressor that is free, one that is bound, blocks of 64 bytes and of one. What the fixed and the dynamic form make of a
block is the outside standard's (`Config.fixedBlock`, `Config.dynamicBlock`, assumption 4): of the clauses on a block that shrinks and one
that does not, one applies whatever it is. -/
theorem witness_compression :
    let c := flight 5 0 1 64 aHandle [0xC1000000#32, 0]
    let x := { c with inst := some 3 }
    let y := { flight 5 0 1 1 aHandle [0xC1000000#32, 0] with inst := some 3 }
    (OpReady (ringing .service c) 255 7 5 0 c ∧ fFirst c = true ∧ fLast c = true ∧ OpInput (ringing .service c) 255 c 1 (List.replicate 64 0) ∧
      (tget (ringing .service c).cmpr.insts {} c.pipe).bound = false ∧ ({ bound := true } : Inst).bound = true) ∧
    (boundTo (ringing .service x) 3 = some (255, x) ∧ Fresh x ∧ OpInput (ringing .service x) 255 x 1 (List.replicate 64 0) ∧
      OpRoom (ringing .service x) 255 x 16 ∧ boundTo (ringing .service x) 2 = none) ∧
    (boundTo (ringing .service y) 3 = some (255, y) ∧ Fresh y ∧ OpInput (ringing .service y) 255 y 1 [0]) := by
  unfold OpReady Fresh OpInput OpRoom; refine ⟨?_, ?_, ?_⟩ <;> decide +kernel

/-- Compression: a stored block of four bytes decompressed without a limit and past one of three bytes; 64 zeros, which are no code. -/
theorem witness_decompression :
    let raw : Bytes := [1, 4, 0, 0xFB, 0xFF, 97, 98, 99, 100]
    let d := flight 6 0 1 9 aHandle [0xC1000000#32, 0, 0]
    let s := holding (ringing .service d) raw
    let out := decodeFrag 1 true 10 raw 0 [] 0 false
    (OpReady s 255 7 6 0 d ∧ OpInput s 255 d 1 raw ∧ freeDec s ≠ none ∧ OpRoom s 255 d 4) ∧
    (out.status = 0 ∧ out.out = [97, 98, 99, 100] ∧ (3 : Nat) < out.out.length ∧ fw d 8 = 0 ∧ fw (flight 6 0 1 9 aHandle [0xC1000000#32, 0, 3]) 8 = 3) ∧
    (10 ≤ (decodeFrag 2 true 65 (List.replicate 64 0) 0 [] 0 false).status ∧ (decodeFrag 2 true 65 (List.replicate 64 0) 0 [] 0 false).status ≤ 13) := by
  unfold OpReady Fresh OpInput OpRoom; refine ⟨?_, ?_, ?_⟩ <;> decide +kernel

/-- Compression: a context of each kind. -/
theorem witness_compression_contexts :
    (let f := flight 5 1 0 0 0 [0, mkCtx 9 3 7]
     let s := { ringing .service f with cmpr := { slots := [(31, { used := true, seq := 9 })] } }
     OpReady s 255 7 5 1 f ∧ cPipe (fw f 7) = 3 ∧ cSlot (fw f 7) = 7 ∧ (tget s.cmpr.slots {} 31).used = true ∧ cSeq (fw f 7) = 9 ∧
       (tget (ringing .service f).cmpr.slots {} 31).used = false) ∧
    (let f := flight 6 1 0 0 0 [0, mkCtx 9 0 63]
     let s := { ringing .service f with cmpr := { recs := [(63, { used := true, seq := 9 })] } }
     let o := { ringing .service f with cmpr := { recs := [(63, { used := true, seq := 9, polder := 2 })] } }
     OpReady s 255 7 6 1 f ∧ cPipe (fw f 7) = 0 ∧ (tget s.cmpr.recs {} 63).used = true ∧ (tget o.cmpr.recs {} 63).polder ≠ 0) ∧
    (3 < 4 ∧ 4 < 5) := by
  unfold OpReady Fresh; refine ⟨?_, ?_, ?_⟩ <;> decide +kernel

/-- A ring of service firmware with the entries 512 and 515 of polder 0, or one of job 1 of polder 1 without a partition. -/
def searching (holder : Holder) (f : Flight) (r : Nat := 255) : State :=
  { ringing holder f r with
    srch := { ents := [(512, { valid := true, lo := 0, hi := 9, result := 77, prio := 2 }), (515, { valid := true, lo := 0, hi := 0, result := 78, prio := 2 })] } }

/-- SearchDescriptors: a record of eight zero bytes, the last entries of the table, an entry outside the partition, masks to recompute. -/
theorem witness_search_rings :
    (let f := flight 7 0 1 64 aHandle [BitVec.ofNat 32 (63 * 2 ^ 20 + 8 * 16)]
     let s := searching .service f
     OpReady s 255 7 7 0 f ∧ OpInput s 255 f 1 (List.replicate 64 0) ∧ fld (fw f 6) 31 20 + 1 = 64 ∧ fld (fw f 6) 1 0 = 0 ∧ OpRoom s 255 f 4096 ∧
       (lookupKey s 0 0).isSome = true ∧ (lookupKey (ringing .service f) 0 0).isNone = true) ∧
    (let f := flight 7 1 0 0 0 [0, 65535, 5, 0, 9]
     OpReady (searching .service f) 255 7 7 1 f ∧ absEntry (searching .service f) 0 65535 1 = some 65535 ∧
       absEntry (searching (.job 1) f 5) (ringStamp (searching (.job 1) f 5) 5) 65535 1 = none) ∧
    (let f := flight 7 2 0 0 0 [0, 65535, 1]
     OpReady (searching .service f) 255 7 7 2 f ∧ absEntry (searching .service f) 0 65535 1 = some 65535) ∧
    (let f := flight 7 3 0 0 0 [0, 65515, 21]
     OpReady (searching .service f) 255 7 7 3 f ∧ absEntry (searching .service f) 0 65515 21 = some 65515 ∧ OpRoom (searching .service f) 255 f 512) ∧
    (let f := flight 7 4 0 0 0 [0, 512, 0, 0, 2]
     OpReady (searching .service f) 255 7 7 4 f ∧ absEntry (searching .service f) 0 512 1 = some 512) ∧
    (let f := flight 7 5 0 0 0 [0, 56]
     let s := { searching .service f with srch := { (searching .service f).srch with pending := [8], shifting := [(some (255, 7), 0, [8])] } }
     OpReady (searching .service f) 255 7 7 5 f ∧ (∀ x ∈ (searching .service f).srch.shifting, x.1 ≠ some (255, 7)) ∧ 8 ∈ s.srch.pending ∧ s.srch.pending = [8] ∧
       s.srch.shifting = [(some (255, 7), ringStamp s 255, [8])] ∧ flightOf s 255 7 = some f ∧ f.res = none) := by
  unfold OpReady Fresh OpInput OpRoom; refine ⟨?_, ?_, ?_, ?_, ?_, ?_⟩ <;> decide +kernel

/-- SearchDescriptors: a next match and none after the last. -/
theorem witness_next_match : let s := searching .service (flight 7 4 0 0 0 [])
    (∃ k x, stepKey s 0 0 2 512 = some (k, x)) ∧ stepKey s 0 0 2 515 = none := ⟨⟨_, _, rfl⟩, rfl⟩

/-! ## Flash and translation: witnesses -/

/-- A flash descriptor of queue 1: op, planes, block, page, list mode, granule mask, words 4 to 7. Its die is 15, its tag 7. -/
def fdesc (op planes block page list grans : Nat) (more : List W32 := [0, 0, 0, 0]) : FDesc :=
  { words := [BitVec.ofNat 32 (op * 2 ^ 28 + 15 * 2 ^ 24 + planes * 2 ^ 20 + 7), BitVec.ofNat 32 (block * 2 ^ 20 + page * 2 ^ 8),
      BitVec.ofNat 32 list, BitVec.ofNat 32 (grans * 2 ^ 16)] ++ more
    q := 1, t := 5 }

/-- Channel 31 with a record, everything ready. -/
def flashing (c : Flc) (now : Nat := 20000) : State :=
  { run with flcs := [(31, c)], now := now, rst := { ready := true }, isl := { mediaReady := true, ready := true },
             ftla := { enable := true, ready := true } }

/-- Channel 31 with one committed descriptor and a die 15. -/
def queued (d : FDesc) (v : Die) (b : Blk := {}) : State :=
  flashing { enable := true, queue := [d], dies := [(15, v)], blks := [(blkKey 15 0 2729, b)], cqProd := 511, cqBase := 7 }

/-- FlashChannels: the pages of channel 31, with half a descriptor in assembly. -/
theorem witness_flash_pages :
    let s := flashing { asm := [(.block 3 0, 3, (fdesc 0 1 2729 9 0 15).words.take 7)] }
    Writable s (.block 3 0) (frameOf 9 31 0) ∧ Writable s (.block 3 0) (frameOf 9 31 1) :=
  ⟨⟨⟨rfl, _, _, _, rfl, by decide, by decide, rfl, by decide⟩, rfl⟩, ⟨⟨rfl, _, _, _, rfl, by decide, by decide, rfl, by decide⟩, rfl⟩⟩

/-- FlashChannels: no descriptor in assembly, one of another queue, an eighth word that makes an invalid one and a valid one, the queue full and
with room. -/
theorem witness_flash_push :
    let ini := Ini.block 3 0
    let ws := (fdesc 0 1 2729 9 0 15).words.take 7
    let bad := (fdesc 0 1 2730 9 0 15).words.take 7
    let full : FDesc := { words := ws ++ [0], q := 3, t := 20000 }
    asmOf ({} : Flc) ini = none ∧ asmOf { asm := [(ini, 2, ws)] } ini = some (2, ws) ∧ asmOf { asm := [(ini, 3, ws)] } ini = some (3, ws) ∧
      ws.length = 7 ∧ bad.length = 7 ∧ dInvalid { words := bad ++ [0], q := 3, t := 20000 } = true ∧ dInvalid full = false ∧
      (dqBase { base3 := (192, 0) } 3).2.toNat ≤ dqUsed { base3 := (192, 0) } 3 ∧ dqUsed {} 3 < (dqBase {} 3).2.toNat ∧ dLimit full = 0 ∧
      onSuspended {} full = false ∧ 40 < ({ drift := 41 } : Flc).drift.toNat ∧ ({ drift := 40 } : Flc).drift.toNat ≤ 40 := by
  refine ⟨?_, ?_, ?_, ?_, ?_, ?_, ?_, ?_, ?_, ?_, ?_, ?_, ?_⟩ <;> decide +kernel

/-- FlashChannels: each op at its turn, with a die that is free, running, or holds a suspended erase of the block. -/
theorem witness_flash_turns (op : Nat) (h : op < 11) : Turn (queued (fdesc op 1 2729 0 1 15) {} { st := .erased }) 31 1 0 op (fdesc op 1 2729 0 1 15) ∧
    HasRecord (queued (fdesc op 1 2729 0 1 15) {}) 31 (fdesc op 1 2729 0 1 15) := by
  unfold Turn HasRecord
  interval_cases op <;> decide +kernel

/-- FlashChannels: reads with and without a list, a suspended block, programs of an erased and of a sealed block, an erase nested in a suspended
one, SUSPEND and RESUME in each state of the die. -/
theorem witness_flash_issue :
    let e := fdesc 4 1 2729 0 0 0
    let sus : Die := { susp := some (e, 3) }
    let r := fdesc 0 1 2729 0 1 15
    let p := fdesc 3 1 2729 0 0 1 [0x4000000, 0, 0x21, 5]
    (onSuspended (die (queued r {}) 31 15) r = false ∧ dList r = true ∧ onSuspended sus r = true ∧
      Turn (queued r sus) 31 1 0 0 r ∧ dList (fdesc 0 1 2729 0 0 1) = false ∧ onSuspended {} (fdesc 0 1 2729 0 0 1) = false) ∧
    (Turn (queued p {} { st := .erased }) 31 1 0 3 p ∧ p.ftla = false ∧ planesOf (dPlanes p) = [0] ∧
      progCheck (queued p {} { st := .erased }) 31 p 0 = none ∧ progCheck (queued p {} { st := .sealed }) 31 p 0 ≠ none) ∧
    (Turn (queued e {}) 31 1 0 4 e ∧ Turn (queued e sus) 31 1 0 4 e ∧ sus.susp ≠ none) ∧
    (let d := fdesc 5 1 2729 0 0 0
     Turn (queued d { st := .erase, run := some e }) 31 1 0 5 d ∧ Turn (queued d { st := .program, run := some p }) 31 1 0 5 d ∧
       Turn (queued d {}) 31 1 0 5 d) ∧
    (let d := fdesc 6 1 2729 0 0 0
     Turn (queued d sus) 31 1 0 6 d ∧ Turn (queued d {}) 31 1 0 6 d) := by
  unfold Turn; refine ⟨?_, ?_, ?_, ?_, ?_⟩ <;> decide +kernel

/-- FlashChannels: the sources of such a program are read. -/
theorem witness_flash_sources : ∃ srcs, progSources (flashing {}) 31 (fdesc 3 1 2729 0 0 1 [0x4000000, 0, 0x21, 5]) = .ok srcs := by
  have h : (match progSources (flashing {}) 31 (fdesc 3 1 2729 0 0 1 [0x4000000, 0, 0x21, 5]) with
      | .ok _ => true
      | .error _ => false) = true := by decide +kernel
  cases hp : progSources (flashing {}) 31 (fdesc 3 1 2729 0 0 1 [0x4000000, 0, 0x21, 5]) with
  | ok v => exact ⟨v, rfl⟩
  | error e => rw [hp] at h; exact Bool.noConfusion h

/-- FlashChannels: a read of one granule finds its list buffer and its granule buffer, whichever free ones they are. -/
theorem witness_flash_buffers : ∃ hs u, allocMany run 0 [512, 4096] = some (hs, u) := by
  have one : ∀ (k : Nat) (v : Buf) (u : State), u.bpm.bufs = [(k, v)] → u.pol.tab = [(0, { st := .active, weight := 16 })] →
      ∃ h w, allocBuf u 0 4096 none = some (h, w) := by
    intro k v u hb hp
    have hf : ∀ p : Nat × Buf → Bool, (([(k, v)] : List (Nat × Buf)).filter p).length ≤ 1 := fun p => by
      simp only [List.filter]; split <;> simp
    have h1 : 0 < poolFree u 1 := by
      have := hf (fun e => keyPool e.1 == 1 && bufOut e.2)
      simp only [poolFree, hb, poolCount]; omega
    have hu : unitsUsed u 0 ≤ 512 := by
      simp only [unitsUsed, hb, List.filter]
      split
      · simp only [List.map, List.sum_cons, List.sum_nil, poolBytes]; split <;> omega
      · simp
    have hq : quotaUnits u 0 = 96256 := by simp [quotaUnits, hp]
    have hpf : poolFor u 4096 = some 1 := by simp [poolFor, poolBytes, h1]
    simp only [allocBuf, hpf]
    rw [if_pos (by rw [hq]; simp only [poolBytes]; omega)]
    exact ⟨_, _, rfl⟩
  have h0 : poolFor run 512 = some 0 := by decide +kernel
  have hq : unitsUsed run 0 + poolBytes 0 / 512 ≤ quotaUnits run 0 := by decide +kernel
  simp only [allocMany, allocBuf, h0, if_pos hq]
  obtain ⟨h, w, e⟩ := one (bufKey 0 (pickOne run (freeIdx run.bpm.bufs 0 0 (poolCount 0)))) { owner := 0, gen := 0, ref := 1, job := none, t := 0 }
    (modBuf (takeFree run).2 (bufKey 0 (pickOne run (freeIdx run.bpm.bufs 0 0 (poolCount 0))))
      (fun _ => { owner := 0, gen := 0, ref := 1, job := none, t := 0 })) (by rfl) (by rfl)
  simp only [allocBuf] at e
  exact ⟨_, _, by
    have hg : (buf (takeFree run).2 (bufKey 0 (pickOne run (freeIdx run.bpm.bufs 0 0 (poolCount 0))))).gen = 0 := rfl
    simp only [hg]
    rw [show (takeFree run).2.now = 0 from rfl, e]⟩

/-- FlashChannels: commands at their end, the last granule in soft decode, a cancel, a suspension and its end, retraining, a timeout. -/
theorem witness_flash_ends :
    let r := fdesc 0 1 2729 0 0 1
    let e := fdesc 4 1 2729 0 0 0
    let with_ := fun (d : FDesc) (v : Die) => flashing { enable := true, dies := [(15, { v with run := some d })], cqProd := 511 }
    ((die (with_ r { st := .reading }) 31 15).run = some r ∧ HasRecord (with_ r {}) 31 r ∧ dOp r = 0 ∧ dList r = false ∧
      (dGranules 31 r).length = 1 ∧ hPool (mkHandle 0 0 2047 0) = 0 ∧ hIdx (mkHandle 0 0 2047 0) < 2048 ∧ hPool (mkHandle 1 0 4607 0) = 1 ∧
      hIdx (mkHandle 1 0 4607 0) < 4608) ∧
    (dOp (fdesc 3 1 2729 0 0 1) = 3 ∧ dOp e = 4 ∧ dOp (fdesc 9 1 2729 0 0 0) = 9 ∧ dOp (fdesc 7 1 2729 0 0 0) = 7 ∧
      (die (with_ e { st := .resetting }) 31 15).stuck = false) ∧
    (let k : SoftRd := { desc := r, wait := [3] }
     (flc (flashing { soft := [k] }) 31).soft = [k] ∧ k.wait = [3] ∧ k.bad = [] ∧
       ({ flashing { soft := [k] } with softPool := [(31, r, 3)] } : State).softPool = [(31, k.desc, 3)] ∧ HasRecord (flashing { soft := [k] }) 31 r) ∧
    (((0 : BitVec 16) - 0xFE00).toNat ≤ 512 ∧ (0x80010007 : W32).getLsbD 31 = true ∧
      (flc (queued r {}) 31).queue.find? (fun d => d.q == (0x80010007 : W32).toNat / 65536 % 4 && dTag d == (0x80010007 : W32).toNat % 65536) = some r ∧
      queuesOk {} = true ∧ queuesOk { base3 := (192, 65) } = false ∧ (7 : W32).toNat % 8 ≥ 4 ∧ (3 : W32).toNat % 8 < 4 ∧
      blkTargeted (flashing {}) 31 15 0 2729 = false ∧ blkTargeted (queued e {}) 31 15 0 2729 = true) ∧
    (let s := flashing { enable := true, queue := [{ r with q := 0 }], dies := [(15, { st := .erase, run := some e, t := 19500 })] }
     (flc s 31).autoSusp = true ∧ urgent s 31 15 = true ∧ (flc s 31).guard.toNat ≤ s.now - (die s 31 15).t) ∧
    (let s := flashing { dies := [(15, { auto := true, susp := some (e, 4) })] }
     (die s 31 15).auto = true ∧ (die s 31 15).st = .idle ∧ urgent s 31 15 = false ∧ (flc s 31).brownout = false) ∧
    ((die (with_ r { st := .reading }) 31 15).t + dieLimit r ≤ (with_ r {}).now ∧ dOp r ≠ 4) := by
  unfold HasRecord; refine ⟨?_, ?_, ?_, ?_, ?_, ?_, ?_⟩ <;> decide +kernel

/-- FlashChannels: no granule is undecodable, and a granule holds 4,096 bytes, where flash holds one intact granule. -/
theorem witness_flash_media (g : Nat) : (tget (flashing {}).ftla.media {} g).bad = false := rfl

/-- FlashChannels, Translation: a program of a staged write, whose record applies to the map. -/
theorem witness_flash_unit :
    let x : Staged := { seq := 9, nsid := 1, lba := 7, lidx := 4103, polder := 0, data := [], placed := some 77 }
    let d := { fdesc 3 1 2729 0 0 1 with ftla := true, units := [(9, 0)] }
    let s := { flashing { dies := [(15, { st := .program, run := some d })] } with ftla := { staging := [x], applied := [(4103, 9)] } }
    (die s 31 15).run = some d ∧ dOp d = 3 ∧ jFull s = false ∧ s.ftla.staging.find? (fun y => y.seq == 9) = some x ∧
      tget s.ftla.applied 0 4103 ≤ 9 ∧ s.host.cmds = [] := by
  refine ⟨?_, ?_, ?_, ?_, ?_, ?_⟩ <;> decide +kernel

/-- Service firmware's queue of FTLA with one command of eight words in its last entry. -/
def asking (ws : List W32) (f : Ftla → Ftla := id) : State :=
  { run with dram := writeBytes [] (4 * 8192 + 255 * 32) (ws.flatMap (fun (w : W32) => leBytes 4 w.toNat))
             ftla := f { enable := true, ready := true, sqBase := 4, sqCons := 255, cqBase := 7, cqProd := 511, cqCons := 1 } }

/-- Translation: each opcode at its turn. -/
theorem witness_ftla_turns (op : Nat) (h : op < 9) : FtlaTurn (asking [BitVec.ofNat 32 (op * 2 ^ 24 + 7)]) op := by
  unfold FtlaTurn; interval_cases op <;> decide +kernel

/-- Translation: the operands of each command of firmware at the bounds that its rule names. -/
theorem witness_ftla_operands :
    let word := fun (ws : List W32) (n : Nat) => cmdW (ftlaCmd (asking ws)) n
    (let ws : List W32 := [0x02000007, 0, 4103, 0, 77, 0, 9]
     (word ws 2).toNat + 2 ^ 32 * fld (word ws 3) 31 28 = 4103 ∧ 4103 < mapEnd ∧ reservedVal 77 = false ∧ (word ws 6).toNat = 9 ∧
       tget (asking ws (fun f => { f with applied := [(4103, 9)] })).ftla.applied 0 4103 ≤ 9 ∧
       9 < tget (asking ws (fun f => { f with applied := [(4103, 10)] })).ftla.applied 0 4103 ∧ jFull (asking ws) = false) ∧
    (mapGet (asking [] (fun f => { f with map := [(4103, 5)] })) 4103 = 5 ∧ mapGet (asking []) 4103 ≠ 5) ∧
    (let ws : List W32 := [0x04000007, 0, 4100, 0, 8, 0xFFFFFFFC, 15]
     4100 + (word ws 4).toNat ≤ mapEnd ∧ (word ws 5).toNat + 2 ^ 32 * fld (word ws 6) 3 0 = vZeroed ∧ vZeroed - 1 < vZeroed) ∧
    (54836273 < mapPages ∧ locOk 0 = true) ∧ (fld (0x50000000 : W32) 31 28 = 5 ∧ fld (0x80000000 : W32) 31 28 = 8 ∧ fld (0x40000000 : W32) 31 28 < 5) ∧
    (sramCur + 50331648 - 4096 + 4096 ≤ sramCur + 50331648 ∧ 43679 < 43680 ∧ 5 < granEnd) ∧
    (asking [] (fun f => { f with ready := false })).ftla.ready = false := by
  refine ⟨?_, ?_, ?_, ?_, ?_, ?_, ?_⟩ <;> decide +kernel

/-- Translation: a granule that can be rebuilt and one that cannot, with a granule's bytes. -/
theorem witness_rebuild :
    canRebuild (asking [] (fun f => { f with sbs := [(0, { window := [1] })] })) 5 = true ∧
      canRebuild (asking [] (fun f => { f with media := [(99, { bad := true }), (99 + 2146959360, { bad := true })] })) 99 = false ∧
      (let s := { asking [] with bpm := { bufs := [(bufKey 1 0, { ref := 1 })] } }
       ∀ p ∈ spanPoints (bufBase 1 0) 4096, freeAt s p = false) ∧
      (granRaw (asking [] (fun f => { f with media := [(5, { data := List.replicate 4096 3, raw := true })] })) 5).length = 4096 := by
  refine ⟨?_, ?_, ?_, ?_⟩ <;> decide +kernel

/-- Translation: a unit of two staged writes, a withdrawn read of a host command, a write-back, a window's oldest page, a recovery. -/
theorem witness_translation :
    (let x : Staged := { seq := 9, nsid := 1, lba := 7, lidx := 4103, polder := 0, data := List.replicate 4096 0 }
     let s := { flashing {} with ftla := { enable := true, ready := true, nss := [(1, some ns0)], staging := [x], sbs := [(15 * 2730 + 2729, { ev := 1 })] } }
     (tget s.ftla.sbs {} (15 * 2730 + 2729)).ev = 1 ∧ pagesOf 0 = 3072 ∧ unitsOk s 1 [(9, 3)] = true ∧
       unitDue s 1 [(9, 3)] = true ∧ unitDue s 3 [(9, 3)] = true ∧ unitDue { s with now := 999 } 3 [(9, 3)] = false ∧
       31 ≠ parityChan s (15 * 2730 + 2729) 3071 ∧ (tget s.ftla.sbs {} (15 * 2730 + 2729)).absent.getLsbD 31 = false ∧ dqRoom (flc s 31) 2 = true ∧
       windowsOpen s < 64 ∧ (flc s 31).backlog = [] ∧ (tget s.ftla.sbs {} (15 * 2730 + 2729)).window.length < 32 ∧ (flc s 31).brownout = false ∧ s.isl.mediaReady = true) ∧
    (let q : RdReq := { id := 5, who := .cmd 0 1 9 7, lidx := 4103, gran := 99, withdrawn := true }
     let c : Cmd := { fn := 0, sq := 1, cid := 9, nsid := 1, op := .read, parts := [{ lba := 7 }] }
     let s := { hosting 0 with isl := { mediaReady := true }, host := { hostOf 0 with cmds := [c] }, ftla := { nss := [(1, some ns0)], reads := [q], sbs := [(0, { window := [24] })] } }
     s.ftla.reads.find? (fun x => x.who == .cmd 0 1 9 7 && x.withdrawn) = some q ∧ consents s q = true ∧ canRebuild s 99 = true ∧
       findCmd s 0 1 9 = some c ∧ ns0.pi = 0) ∧
    (let s := asking [] (fun f => { f with sbs := [(43679, { window := List.range 32, ev := 3 })] })
     (tget s.ftla.sbs {} 43679).window.head? = some 0 ∧ readBackDue s 43679 0 = true ∧ jFull s = false) ∧
    (let s := { run with ftla := { replaying := true }, rst := { step := 9, mramHeld := false }, pw := { por := false } }
     inBoot s = true ∧ 9 ≤ s.rst.step.toNat ∧ drainOk s [] = true ∧ s.nrg.embValid = false) ∧
    (let s := asking [] (fun f => { f with pages := [(4, { dirty := true })] })
     oldestPages s [4] = true ∧ locOk 0 = true) := by
  refine ⟨?_, ?_, ?_, ?_, ?_⟩ <;> decide +kernel

/-- Translation: a journal at the write-back threshold. -/
theorem witness_journal : (List.replicate 196608 ({ typ := 7, seq := 0, w := [] } : JRec)).length = 196608 := List.length_replicate

/-! ## Memory integrity and faults, energy, reset, the sideband: witnesses -/

/-- MEMI and DRC with a line of an instance in a state, errors on it, and lines remapped before. -/
def memory (inst line st errs_ remaps : Nat) : State :=
  { run with drc := { trained := true, fwd := 9 }, now := 500, memi :=
      { insts := if remaps = 0 then [] else [(inst, { remap := List.range remaps })]
        errs := if errs_ = 0 then [] else [(lineKey inst line, errs_)]
        bad := if st = 0 then [] else [(lineKey inst line, st)] } }

/-- MemoryAndFaults: channel 7 and its row, lines that are due with seven and eight remapped, scrubbed instances, devices, domains, rails. -/
theorem witness_memory :
    (let s := memory 169 4294967295 2 0 7
     7 < 8 ∧ s.drc.trained = true ∧ s.drc.selfref = false ∧ 4294967295 < 2 ^ 32 ∧ 2 ≤ lineState s (162 + 7) 4294967295 ∧ (minst s 169).remap.length < 8) ∧
    (let s := memory 161 5 0 3 8
     hasSpares 161 = true ∧ 3 ≤ lineErrs s 161 5 ∧ 8 ≤ (minst s 161).remap.length ∧ (minst s 161).fullRep = false ∧ s.flt.latched = []) ∧
    (let s := memory 96 5 0 0 0
     96 < 162 ∧ lineBad s 96 5 = false ∧ s.drc.scrubEn = true) ∧
    ((run.nv.failedDev.getLsbD 7 = false) ∧ domainRuns run 40 = true ∧ domainRuns run 1 = true ∧ run.pw.main = true ∧ run.pw.thermal = false) ∧
    (169 ≤ 169 ∧ 169 < 170 ∧ (keyed (frameOf 0x0C 0 0)).memi.armed = false) ∧
    (8 < (9 : BitVec 8).toInt.natAbs ∧ ¬ 8 < (248 : BitVec 8).toInt.natAbs) := by
  refine ⟨?_, ?_, ?_, ?_, ?_, ?_⟩ <;> decide +kernel

/-- MemoryAndFaults: report windows of one tag and of two, the second of which covers the first. -/
theorem witness_windows :
    let r : FRep := ⟨6, 5, 0xC, 0, 1, 2⟩
    let r2 : FRep := ⟨1, 0, 0xD, 0, 1, 3⟩
    covers r2.cls r2.inst r.cls r.inst = true ∧ covers r.cls r.inst r2.cls r2.inst = false ∧ 498 + 2 ≤ (memory 0 0 0 0 0).now := by decide +kernel

/-- An option area of 64 bytes without records, of a version. -/
def optArea (version : Nat) : Bytes :=
  let body := ascii "OPTA" ++ leBytes 2 version ++ [0, 0] ++ leBytes 4 7 ++ leBytes 4 64 ++ List.replicate 44 0
  body ++ leBytes 4 (crc32c body).toNat

/-- A calibration set of the operator with records 1 to 5, all empty: its header up to the serial, the rest, and its CRC. -/
def calA : Bytes := ascii "CALB" ++ leBytes 2 1 ++ leBytes 2 1 ++ leBytes 4 88 ++ leBytes 4 5 ++ List.replicate 20 48
def calB : Bytes := List.replicate 28 0 ++ [1, 2, 3, 4, 5].flatMap (fun t => leBytes 2 t ++ [0, 0])
def calArea : Bytes := calA ++ calB ++ leBytes 4 49560081

/-- A machine with a key window open and an area at 4 KiB unit 5 of DRAM. -/
def committing (f : Nat) (b : Bytes) : State := { keyed f with rst := { calSrc := 5, optSrc := 5 }, dram := writeBytes [] 20480 b }

/-- MemoryAndFaults: an option area that passes, one that does not, and a source that polder 0 does not own. -/
theorem witness_option_commit :
    let o := committing (frameOf 0x12 0 0) (optArea 1)
    optSource o 5 = some (optArea 1) ∧ optCheck (optArea 1) = 0 ∧ keyChangeOk o (optArea 1) = true ∧ optCheck (optArea 2) ≠ 0 ∧
      optSource o 8388607 = none := by
  refine ⟨?_, ?_, ?_, ?_, ?_⟩ <;> decide +kernel

/-- MemoryAndFaults: a calibration set at the source, and a source that polder 0 does not own. -/
theorem witness_calibration_source : let c := committing (frameOf 0x13 0 0) calArea
    commitSource c 5 65536 = some calArea ∧ commitSource c 8388607 65536 = none := by
  refine ⟨?_, ?_⟩ <;> decide +kernel

/-- Its CRC, in two halves. -/
theorem calArea_crc : areaCrc calArea 88 = true := by
  have h : crc32c (calA ++ calB) = 49560081#32 := by
    unfold crc32c
    rw [List.foldl_append, show calA.foldl crcByte (BitVec.allOnes 32) = 3749535568#32 by decide +kernel]
    decide +kernel
  unfold areaCrc
  rw [show calArea.take (88 - 4) = calA ++ calB by decide +kernel, h]
  decide +kernel

/-- MemoryAndFaults: the set passes its checks on a module of its serial and not on another. -/
theorem witness_calibration_commit :
    calCheck (committing (frameOf 0x13 0 0) calArea) calArea = 0 ∧ span calArea 16 20 ≠ padTo 20 ([49] : Bytes) := by
  refine ⟨?_, by decide +kernel⟩
  unfold calCheck
  simp only [show leAt calArea 8 4 = 88 by decide +kernel, calArea_crc]
  decide +kernel

/-- LatchedTags: a tag that absorbs a report and one that does not; the instant of a release. -/
theorem witness_latched :
    covers 1 0 6 5 = true ∧ covers 6 5 1 0 = false ∧ 1 ≤ 9 ∧ (3, 4, 0) ∈ [((3 : Nat), (4 : Nat), (0 : Nat))] ∧ 0 + 10000000 ≤ 10000000 := by decide

/-- NRG with a part of its record changed. -/
def ledger (f : Nrg → Nrg) (staging : List Staged := []) : State :=
  { run with nrg := f { capUf := 10 }, ftla := { staging := staging }, isl := { mediaReady := true }, rst := { step := 12, mramHeld := false } }

/-- EnergyAndTime: samples and boundaries with a job and without, the guard at each of its bounds, the embankment, the calendar. -/
theorem witness_energy :
    (run.pw.aux = true ∧ run.jobs = [] ∧ job { run with jobs := [(1, some job1)] } 1 = some job1 ∧ job1.st = .running ∧ [(250 : Int), 849, 850, -1].length = 4 ∧
      ({ run with host := { psNext := some 3, ps := 3 } } : State).host.psNext = some 3) ∧
    (let s := ledger (fun n => { n with samples := 10, window := 70001, held := 7 })
     10 ≤ s.nrg.samples ∧ admission s * 1000 < s.nrg.window) ∧
    (let s := ledger (fun n => { n with samples := 10, window := 66499, held := 6 })
     s.nrg.window ≤ admission s * 1000 ∧ 100 * s.nrg.window < 95 * (admission s * 1000)) ∧
    (let s := ledger (fun n => { n with samples := 10, window := 66500, held := 4 })
     95 * (admission s * 1000) ≤ 100 * s.nrg.window) ∧
    (let s := ledger id
     s.pw.main = true ∧ s.pw.brownout = false ∧ occupancy s ≤ limitAt s (vLo s) * 1048576 ∧ 9 ≤ s.rst.step.toNat) ∧
    (let s := ledger (fun n => { n with measuring := true, limitNext := some 64 })
     s.nrg.measuring = true ∧ s.rst.ready = false ∧ s.rst.failed = false) ∧
    (let e : Staged := { seq := 1, nsid := 1, lba := 3, lidx := 4, polder := 0, data := [1] }
     let s := { ledger (fun n => { n with embValid := true, safety := [9] }) [e] with flcs := [(0, { blks := [(blkKey 0 0 0, { st := .erased })] })] }
     uncovered s = [e] ∧ needsDrain s = true ∧ gransOk s [0] = true ∧ (∀ x ∈ s.ftla.staging, x.seq ∉ s.nrg.safety) ∧ jFull s = false) ∧
    (let s := { run with now := 60000005, time := { saved := 5, cal := 18446744073709551615 } }
     s.time.saved + 60000000 ≤ s.now ∧ s.nrg.limitNext = none) := by
  refine ⟨?_, ?_, ?_, ?_, ?_, ?_, ?_, ?_⟩ <;> decide +kernel

/-- ResetAndBoot: both supplies off, main off, main on with a brown-out and staged writes, resets, power disable, boot, watchdog. -/
theorem witness_reset :
    (let s := { run with pw := { main := false, aux := false } }
     s.pw.main = false ∧ s.pw.aux = false) ∧
    (let s := { run with pw := { brownout := true, por := false } }
     s.pw.main = true ∧ drainOk s [] = true ∧ s.pw.pwrdis = false ∧ (∀ x ∈ s.ftla.staging, stagedLost s x = false)) ∧
    (let s := { run with host := { portA := { up := true } }, rst := { ready := true } }
     s.host.portA.up = true ∧ booting s = false) ∧
    (let s := { run with pw := { pwrdis := true, por := false }, nrg := { draining := true } }
     s.nrg.draining = true ∧ s.pw.pwrdis = true ∧ s.pw.off = false ∧ s.pw.released = false ∧ s.pw.por = false) ∧
    (State.reset.pw.main = true ∧ State.reset.pw.aux = true ∧ State.reset.pw.por = true ∧ State.reset.pw.pwrdis = false ∧
      State.reset.rst.failed = false ∧ State.reset.cores = []) ∧
    (let s := { run with pw := { por := false }, rst := { bootTimeoutS := 20 }, now := 20000000 }
     inBoot s = true ∧ s.rst.mramHeld = true ∧ s.rst.bootT + 3000000 ≤ s.now ∧ s.rst.bootT + s.rst.bootTimeoutS * 1000000 ≤ s.now) ∧
    (let b : Bytes := 63 :: List.replicate 47 0
     let s := { run with pol := { reactivate := true }, rst := { polRecs := [b] } }
     s.pol.reactivate = true ∧ (∀ x ∈ s.pol.tab, x.2.st ≠ .teardown) ∧ leAt b 0 1 = 63 ∧ (polder s 63).st = .empty) ∧
    (let s := { run with rst := { ready := true, wdtEn := true, service := [0, 1], kick := 1, missed := 2 } }
     booting s = false ∧ missedKick s 1 = true ∧ s.rst.missed.getLsbD 1 = true ∧ (∀ k, k < 16 → missedKick { s with rst := { s.rst with kick := 3 } } k = true →
       s.rst.missed.getLsbD k = false)) := by
  refine ⟨?_, ?_, ?_, ?_, ?_, ?_, ?_, ?_⟩ <;> decide +kernel

/-- A sideband with a dynamic address and an endpoint ID, and its first slot. -/
def onSideband (m : MiSlot := {}) : State := { hosting 0 with sbd := { dynValid := true, dynAddr := 0x09, eid := 9, fallback := false, slot0 := m } }

/-- Sideband: addresses, packets at each stage of a message, the two slots, controllers, a host that may send. -/
theorem witness_sideband :
    (run.pw.aux = true ∧ run.sbd.dynValid = false ∧ (0x48 : BitVec 7).toNat = 0x48 + run.sbd.slot.toNat ∧ run.sbd.fallback = true) ∧
    (let s := onSideband { asm := some ([1], 3) }
     s.sbd.dynValid = true ∧ s.sbd.tied = false ∧ (miSlot s 0).asm = some ([1], 3) ∧ (miSlot s 0).req = none ∧ s.sbd.eid ≠ 0 ∧
       69 ≤ 69 ∧ 261 ≤ 261 ∧ (0xFE : BitVec 8) ≠ 0xFF ∧ 64 + 5 ≤ s.sbd.mwl ∧ 256 + 5 ≤ s.sbd.mrl) ∧
    ((miSlot (onSideband { req := some [7] }) 0).req = some [7]) ∧
    (leAt ([3, 0, 64, 0] : Bytes) 0 1 = 3 ∧ leAt ([3, 0, 64, 0] : Bytes) 2 2 = 64 ∧ IsPf 0 ∧ ¬ IsPf 63) := by
  unfold IsPf; refine ⟨?_, ?_, ?_, ?_⟩ <;> decide +kernel

/-- Sideband: the host's admin queue. -/
theorem witness_sideband_host : MayFetch (onSideband {}) 0 0 := ⟨by decide, by decide, _, _, rfl, by decide, rfl⟩

/-! ## The words and the whole machine: witnesses -/

/-- EncodingRoundTrip: a command that is a word, with every field at its greatest value. -/
theorem witness_encoding : ∃ w, encode (.iTcmp 31 31 31 31 127) = some (31, w) ∧ encode (.alloc 0 0) = none := ⟨_, rfl, rfl⟩

/-- StepRunsTheFrontCommand: two commands wait. -/
theorem witness_step : ({ run with pending := [.calendarTick, .powerOnSecond] } : State).pending = .calendarTick :: [.powerOnSecond] := rfl

/-- MemoriesKeepTheirForm: the state after reset has the form, and so has one with a byte written. -/
theorem witness_form : Memory.wf State.reset.dram = true ∧ Memory.wf State.reset.bpm.sram = true ∧
    Memory.wf (writeByte (writeByte [] 9 1) 4 2) = true ∧ step { run with pending := [] } = .next { run with now := 1 } :=
  ⟨rfl, rfl, by decide, rfl⟩

/-! ## Worked examples of the spec -/

/-- Chapters "About this manual" and "Translation": a granule number and its parts. -/
theorem test_granule_number : granNo 3 5 2 100 7 1 = 7180124189 ∧ (gChan 7180124189, gDie 7180124189, gPlane 7180124189) = (3, 5, 2) ∧
    (gBlock 7180124189, gPage 7180124189, gSlot 7180124189) = (100, 7, 1) := by decide +kernel

/-- Chapter "Engine rings": handle 0x4903_2018 and the word of its buffer. -/
theorem test_handle : (hPool 0x49032018, hOwner 0x49032018, hIdx 0x49032018, hGen 0x49032018) = (1, 9, 100, 3) ∧
    bufBase 1 100 / 4 + 16777216 = 0o000134310000 := by decide +kernel

/-- Chapter "Cipher and digest engines": lengths of key blobs. -/
theorem test_blob_lengths : blobLen 32 = 56 ∧ blobLen 64 = 88 := by decide

/-- Chapter "Register page convention": FLC_DQ_BASE_0 of channel 7. -/
theorem test_page_offset : frameOf 9 7 0 * 0x1000 + 0x90 = 0x48E090 ∧ controlWin + 0x48E090 / 4 = 0o040004434044 := by decide +kernel

/-- Chapter "Adral-2 cores": the SLM word of byte offset 1 MiB of polder 5. -/
theorem test_slm_word : dramWin + (slmBase + 1024 * 1048576 + 0x100000) / 4 = 0o152001000000 := by decide +kernel

/-- Chapter "Energy ledger": usable energy and limits of an aged bank, as log page 0xC3 shows them. -/
theorem test_aged_bank : let s := { run with nrg := { capUf := 19800, esr := 110 } }
    eUsable s = 9552 ∧ limitAt s 35000 = 3456 ∧ limitAt s 33000 = 3008 := by decide +kernel

/-- The end of that bank's measurement: 55 mV of step, 79.2 ms of fall. -/
theorem test_bank_measured : (match execEmbankmentMeasurementEnd 55 79200 { run with nrg := { measuring := true } } with
    | .next t => (t.nrg.capUf.toNat, t.nrg.esr.toNat, t.nrg.limit, t.nrg.limitNext)
    | _ => (0, 0, 0, none)) = (19800, 110, 3008, some 3456) := by decide +kernel

/-- Chapter "Range search": polder 12's three entries, the lookup of a core and its next matches. -/
def searched : State :=
  { on { sysCore with polder := 12, regs := [(4, 0x12345678), (5, 5)] } with
    pol := { tab := [(0, { st := .active }), (12, { st := .active, own := { srch := 0x40008 } })] }
    srch := { shift := [(12, 32)]
              ents := [(2058, { valid := true, lo := 0x500000000, hi := 0x5FFFFFFFF, result := 0o101, prio := 3, polder := 12 }),
                       (2118, { valid := true, lo := 0x510000000, hi := 0x51FFFFFFF, result := 0o202, prio := 7, polder := 12 }),
                       (2248, { valid := true, lo := 0x4F0000000, hi := 0x600000000, result := 0o303, prio := 7, polder := 12 })] } }

/-- The register, t and m after a search word. -/
def found (r : Res) (rd : BitVec 5) : Option (Nat × Bool × Bool) := match r with
  | .next t => some ((rget (Machine.core t 0) rd).toNat, (Machine.core t 0).flags.getLsbD 2, (Machine.core t 0).flags.getLsbD 3)
  | _ => none
theorem test_search : found (execIRsl 0 9 4 5 searched) 9 = some (0o202, true, true) := by decide +kernel
theorem test_next_match : (match execIRsl 0 9 4 5 searched with
    | .next t => match execIRsn 0 9 0 0 t with
      | .next u => ((rget (Machine.core u 0) 9).toNat, (found (execIRsn 0 9 0 0 u) 9).map (fun x => (x.1, x.2.1)))
      | _ => (0, none)
    | _ => (0, none)) = (0o303, some (0, false)) := by decide +kernel

/-- Chapter "Sideband": the provisioned ID of slot 3 above the serial's CRC bits. -/
theorem test_provisioned_id : provId { run with sbd := { slot := 3 } } / 4096 = 0x3E7802563 ∧ (0x3E7802563 * 4096 + 0x5A1 = 0x3E78025635A1) := by
  decide +kernel

/-- CRC-32C of "123456789", the check value of the polynomial that the spec names. -/
theorem test_crc : crc32c (ascii "123456789") = 0xE3069283#32 := by decide +kernel

/-! ## One step, results by hand -/

/-- The register a word wrote and the flags v, c. -/
def wrote (r : Res) (rd : BitVec 5) : Option (Nat × Bool × Bool) := match r with
  | .next t => some ((rget (Machine.core t 0) rd).toNat, (Machine.core t 0).flags.getLsbD 1, (Machine.core t 0).flags.getLsbD 0)
  | _ => none

/-- ADD of 2^36 - 1 and 1: the sum wraps, with a carry and no signed overflow; of 2^35 - 1 and 1: a signed overflow (R128). -/
theorem test_add_wraps : wrote (execIAdd 0 3 1 2 0 (on { sysCore with regs := [(1, 0xFFFFFFFFF#36), (2, 1)] })) 3 = some (0, false, true) ∧
    wrote (execIAdd 0 1 1 2 0 (on { sysCore with regs := [(1, 0x7FFFFFFFF#36), (2, 1)] })) 1 = some (2 ^ 35, true, false) := by decide +kernel

/-- A shift by 36 or more gives 0 for SLL (R119), and register 0 stays 0 (R118). -/
theorem test_shift_and_zero : (wrote (execISll 0 3 1 2 0 (on { sysCore with regs := [(1, 5), (2, 36)] })) 3).map Prod.fst = some 0 ∧
    (wrote (execIAdd 0 0 1 2 0 (on sysCore)) 0).map Prod.fst = some 0 := by decide +kernel

/-- ANDI zero-extends its immediate (R126). -/
theorem test_andi_zero_extends : (wrote (execIAndi 0 3 1 0x3FFFF (on { sysCore with regs := [(1, 0xFFFFFFFFF#36)] })) 3).map Prod.fst = some 0x3FFFF := by
  decide +kernel

/-- A fault report opens a window at the time of the step (R408); step takes it from the queue. -/
theorem test_step_takes_front : (match step { run with pending := [.faultReport 6 0 6 5 4 2, .calendarTick], now := 9 } with
    | .next t => (t.flt.window.map Prod.fst, t.pending.length)
    | _ => (none, 0)) = (some 9, 1) := by decide +kernel

/-- A release of the last reference frees the buffer: its generation goes up (R188). -/
theorem test_release : (match execRelease 255 7 (ringing .service (flight 0 2 0 0 0 [aHandle])) with
    | .next t => ((buf t (hKey aHandle)).gen.toNat, (buf t (hKey aHandle)).ref.toNat, (buf t (hKey aHandle)).zeroing)
    | _ => (0, 9, false)) = (10, 0, true) := by decide +kernel

end Sys2Proof.Tests
end

/-! SUPPORT. What the shared operations of the host queues do: the fetch of a command, a success completion, and the delivery of
the blocks that a read waits for. -/

namespace Sys2Proof.Machine

open Sys2Proof

/-! ## Completion entries of a queue -/

@[simp] theorem sqOf_setSq (s : State) (fn sq : Nat) (q : Option Sq) : sqOf (setSq s fn sq q) fn sq = q :=
  tget_tset_same s.host.sqs none q (qkey fn sq)

@[simp] theorem cqOf_setCq (s : State) (fn n : Nat) (c : Option Cq) : cqOf (setCq s fn n c) fn n = c :=
  tget_tset_same s.host.cqs none c (qkey fn n)

theorem entries_of_queue {s : State} {fn sq : Nat} {q : Sq} {c : Cq} (hq : sqOf s fn sq = some q) (hc : cqOf s fn q.cq = some c) :
    entries s fn sq = c.posted ++ c.held := by
  simp [entries, hq, hc]

theorem entries_congr {s t : State} (fn sq : Nat) (hs : t.host.sqs = s.host.sqs) (hc : t.host.cqs = s.host.cqs) :
    entries t fn sq = entries s fn sq := by
  simp [entries, sqOf, cqOf, hs, hc]

theorem hasQueue_congr {s t : State} {fn sq : Nat} (hs : t.host.sqs = s.host.sqs) (hc : t.host.cqs = s.host.cqs)
    (h : HasQueue s fn sq) : HasQueue t fn sq := by
  simpa [HasQueue, sqOf, cqOf, hs, hc] using h

theorem hasQueue_of_mayFetch {s : State} {fn sq : Nat} (h : MayFetch s fn sq) : HasQueue s fn sq := h.2.2

/-! ## Fetching -/

@[simp] theorem beginExit_sqs (s : State) : (beginExit s).host.sqs = s.host.sqs := by
  unfold beginExit; rw [modHost_host]; split <;> rfl

@[simp] theorem beginExit_cqs (s : State) : (beginExit s).host.cqs = s.host.cqs := by
  unfold beginExit; rw [modHost_host]; split <;> rfl

@[simp] theorem beginExit_cmds (s : State) : (beginExit s).host.cmds = s.host.cmds := by
  unfold beginExit; rw [modHost_host]; split <;> rfl

@[simp] theorem beginExit_ftla (s : State) : (beginExit s).ftla = s.ftla := rfl
@[simp] theorem beginExit_flcs (s : State) : (beginExit s).flcs = s.flcs := rfl
@[simp] theorem beginExit_memi (s : State) : (beginExit s).memi = s.memi := rfl

/-- A fetch changes the host side, nothing else. -/
theorem fetch_rest (s : State) (fn sq : Nat) : fetch s fn sq = { s with host := (fetch s fn sq).host } := by
  unfold fetch; split <;> rfl

@[simp] theorem fetch_ftla (s : State) (fn sq : Nat) : (fetch s fn sq).ftla = s.ftla := by rw [fetch_rest]
@[simp] theorem fetch_flcs (s : State) (fn sq : Nat) : (fetch s fn sq).flcs = s.flcs := by rw [fetch_rest]
@[simp] theorem fetch_memi (s : State) (fn sq : Nat) : (fetch s fn sq).memi = s.memi := by rw [fetch_rest]

@[simp] theorem fetch_cmds (s : State) (fn sq : Nat) : (fetch s fn sq).host.cmds = s.host.cmds := by
  unfold fetch; split <;> rfl

@[simp] theorem cqOf_fetch (s : State) (fn sq n : Nat) : cqOf (fetch s fn sq) fn n = cqOf s fn n := by
  unfold fetch; split <;> rfl

/-- The queue's head passes the command that is fetched. -/
theorem sqOf_fetch {s : State} {fn sq : Nat} {q : Sq} (h : sqOf s fn sq = some q) :
    sqOf (fetch s fn sq) fn sq = some { q with head := (q.head + 1) % q.size } := by
  simp only [fetch, h]
  exact sqOf_setSq s fn sq (some { q with head := (q.head + 1) % q.size })

theorem entries_fetch {s : State} {fn sq : Nat} (h : HasQueue s fn sq) : entries (fetch s fn sq) fn sq = entries s fn sq := by
  obtain ⟨q, c, hq, -, hc⟩ := h
  rw [entries_of_queue hq hc, entries_of_queue (sqOf_fetch hq) (by rw [cqOf_fetch]; exact hc)]

theorem hasQueue_fetch {s : State} {fn sq : Nat} (h : HasQueue s fn sq) : HasQueue (fetch s fn sq) fn sq := by
  obtain ⟨q, c, hq, hlt, hc⟩ := h
  exact ⟨_, c, sqOf_fetch hq, hlt, by rw [cqOf_fetch]; exact hc⟩

theorem hasQueue_fetch_beginExit {s : State} {fn sq : Nat} (h : HasQueue s fn sq) : HasQueue (fetch (beginExit s) fn sq) fn sq :=
  hasQueue_fetch (hasQueue_congr (beginExit_sqs s) (beginExit_cqs s) h)

/-- Taking a command off its queue leaves the entries that the host has still to consume. -/
theorem entries_fetch_beginExit {s : State} {fn sq : Nat} (h : HasQueue s fn sq) :
    entries (fetch (beginExit s) fn sq) fn sq = entries s fn sq := by
  rw [entries_fetch (hasQueue_congr (beginExit_sqs s) (beginExit_cqs s) h),
    entries_congr fn sq (beginExit_sqs s) (beginExit_cqs s)]

/-- A command that can be fetched is fetched and runs (R36, R88). -/
theorem fetched_of_mayFetch {s : State} {fn sq : Nat} (h : MayFetch s fn sq) (body : State → State) :
    fetched s fn sq body = body (fetch (beginExit s) fn sq) := by
  obtain ⟨hcan, hps, -⟩ := h
  simp [fetched, hcan, Nat.not_le.mpr hps]

theorem ioCmd_of_mayIo {s : State} {fn sq : Nat} (h : MayIo s fn sq) (body : State → State) :
    ioCmd s fn sq body = body (fetch (beginExit s) fn sq) := by
  rw [ioCmd, if_neg h.1, fetched_of_mayFetch h.2]

/-! ## What counting and charging leave alone -/

/-- Counting an event changes PMON, nothing else. -/
theorem pmonCount_rest (s : State) (n p k : Nat) : pmonCount s n p k = { s with pmon := (pmonCount s n p k).pmon } := by
  unfold pmonCount; split <;> rfl

@[simp] theorem pmonCount_host (s : State) (n p k : Nat) : (pmonCount s n p k).host = s.host := by rw [pmonCount_rest]
@[simp] theorem pmonCount_ftla (s : State) (n p k : Nat) : (pmonCount s n p k).ftla = s.ftla := by rw [pmonCount_rest]
@[simp] theorem pmonCount_flcs (s : State) (n p k : Nat) : (pmonCount s n p k).flcs = s.flcs := by rw [pmonCount_rest]
@[simp] theorem pmonCount_now (s : State) (n p k : Nat) : (pmonCount s n p k).now = s.now := by rw [pmonCount_rest]

@[simp] theorem charge_host (s : State) (p n : Nat) (b : Bool) : (charge s p n b).host = s.host := rfl
@[simp] theorem charge_ftla (s : State) (p n : Nat) (b : Bool) : (charge s p n b).ftla = s.ftla := rfl
@[simp] theorem charge_flcs (s : State) (p n : Nat) (b : Bool) : (charge s p n b).flcs = s.flcs := rfl

/-! ## Posting and completing -/

/-- Posting an entry changes completion queues, nothing else. -/
theorem post_rest (s : State) (k : Compl) : post s k = { s with host := { s.host with cqs := (post s k).host.cqs } } := by
  unfold post
  split
  · rfl
  · split <;> rfl

@[simp] theorem post_sqs (s : State) (k : Compl) : (post s k).host.sqs = s.host.sqs := by rw [post_rest]
@[simp] theorem post_cmds (s : State) (k : Compl) : (post s k).host.cmds = s.host.cmds := by rw [post_rest]
@[simp] theorem post_ftla (s : State) (k : Compl) : (post s k).ftla = s.ftla := by rw [post_rest]
@[simp] theorem post_flcs (s : State) (k : Compl) : (post s k).flcs = s.flcs := by rw [post_rest]

/-- An entry posted, or held while its queue is full, follows the queue's unconsumed entries. -/
theorem entries_post {s : State} {k : Compl} (h : HasQueue s k.fn k.sq) :
    entries (post s k) k.fn k.sq = entries s k.fn k.sq ++ [k] := by
  obtain ⟨q, c, hq, -, hc⟩ := h
  have hq' : sqOf (post s k) k.fn k.sq = some q := by rw [sqOf, post_sqs]; exact hq
  have hc' : cqOf (post s k) k.fn q.cq = some (if c.posted.length + 1 < c.size ∧ c.held = [] then { c with posted := c.posted ++ [k] }
      else { c with held := c.held ++ [k] }) := by
    simp [post, hq, hc]
  rw [entries_of_queue hq' hc', entries_of_queue hq hc]
  split
  · next hroom => simp [hroom.2]
  · simp

@[simp] theorem dropCmd_sqs (s : State) (fn sq cid : Nat) : (dropCmd s fn sq cid).host.sqs = s.host.sqs := rfl
@[simp] theorem dropCmd_cqs (s : State) (fn sq cid : Nat) : (dropCmd s fn sq cid).host.cqs = s.host.cqs := rfl
@[simp] theorem dropCmd_staging (s : State) (fn sq cid : Nat) : (dropCmd s fn sq cid).ftla.staging = s.ftla.staging := rfl
@[simp] theorem dropCmd_map (s : State) (fn sq cid : Nat) : (dropCmd s fn sq cid).ftla.map = s.ftla.map := rfl
@[simp] theorem dropCmd_flcs (s : State) (fn sq cid : Nat) : (dropCmd s fn sq cid).flcs = s.flcs := rfl

theorem findCmd_dropCmd (s : State) (fn sq cid : Nat) : findCmd (dropCmd s fn sq cid) fn sq cid = none := by
  rw [findCmd, List.find?_eq_none]
  intro c hc
  rw [Bool.not_eq_true, ← Bool.not_eq_true']
  exact (List.mem_filter.mp hc).2

/-- A success on an I/O queue freezes nothing and logs no error: the command leaves, its entry is posted, PMON counts it (R77, R440). -/
theorem complete_success {fn sq : Nat} (hsq : sq ≠ 0) (s : State) (cid : Nat) (dw0 dw1 : W32) (data : Bytes) :
    let k : Compl := { fn := fn, sq := sq, cid := cid, dw0 := dw0, dw1 := dw1, data := data }
    complete s fn sq cid .success dw0 dw1 data =
      modHost (pmonCount (post (dropCmd s fn sq cid) k) 0 (fnPolder fn) 1) (fun h =>
        { h with lastIo := some (post (dropCmd s fn sq cid) k).now }) := by
  simp only [complete, commit, logError, statDnr, freezes, hsq, if_true, if_false, Bool.false_and]
  split <;> rfl

section Success

variable {s : State} {fn sq cid : Nat} {dw0 dw1 : W32} {data : Bytes}

theorem entries_complete_success (hsq : sq ≠ 0) (h : HasQueue s fn sq) :
    entries (complete s fn sq cid .success dw0 dw1 data) fn sq =
      entries s fn sq ++ [{ fn := fn, sq := sq, cid := cid, dw0 := dw0, dw1 := dw1, data := data }] := by
  let k : Compl := { fn := fn, sq := sq, cid := cid, dw0 := dw0, dw1 := dw1, data := data }
  calc entries (complete s fn sq cid .success dw0 dw1 data) fn sq
      = entries (post (dropCmd s fn sq cid) k) fn sq := by
        rw [complete_success hsq]; exact entries_congr fn sq (by simp) (by simp [k])
    _ = entries (dropCmd s fn sq cid) fn sq ++ [k] := entries_post (k := k) h
    _ = entries s fn sq ++ [k] := by rw [entries_congr fn sq (dropCmd_sqs s fn sq cid) (dropCmd_cqs s fn sq cid)]

theorem findCmd_complete_success (hsq : sq ≠ 0) : findCmd (complete s fn sq cid .success dw0 dw1 data) fn sq cid = none := by
  rw [complete_success hsq]
  simpa [findCmd] using findCmd_dropCmd s fn sq cid

theorem complete_success_staging (hsq : sq ≠ 0) :
    (complete s fn sq cid .success dw0 dw1 data).ftla.staging = s.ftla.staging := by
  simp [complete_success hsq]

theorem complete_success_map (hsq : sq ≠ 0) : (complete s fn sq cid .success dw0 dw1 data).ftla.map = s.ftla.map := by
  simp [complete_success hsq]

theorem complete_success_flcs (hsq : sq ≠ 0) : (complete s fn sq cid .success dw0 dw1 data).flcs = s.flcs := by
  simp [complete_success hsq]

end Success

/-! ## Protected staging -/

theorem newerStaged_keeps {e x : Staged} (hx : x = e ∨ x.seq < e.seq) : newerStaged (some e) x = some e := by
  obtain rfl | hlt := hx
  · simp [newerStaged]
  · simp [newerStaged, Nat.not_le.mpr hlt]

theorem newerStaged_takes {e : Staged} {b : Option Staged} (hb : ∀ x, b = some x → x = e ∨ x.seq < e.seq) :
    newerStaged b e = some e := by
  cases b with
  | none => rfl
  | some x =>
    have hle : x.seq ≤ e.seq := (hb x rfl).elim (fun h => h ▸ le_rfl) le_of_lt
    simp [newerStaged, hle]

theorem newerStaged_eq_or {b : Option Staged} {x y : Staged} (h : newerStaged b x = some y) : y = x ∨ b = some y := by
  unfold newerStaged at h
  split at h
  · exact .inl (by simpa using h.symm)
  · split at h
    · exact .inl (by simpa using h.symm)
    · exact .inr h

/-- Folding `newerStaged` over writes that are all `e` or older than `e` ends at `e`, wherever `e` stands. -/
theorem foldl_newerStaged {e : Staged} (es : List Staged) (b : Option Staged) (hes : ∀ x ∈ es, x = e ∨ x.seq < e.seq)
    (hb : ∀ x, b = some x → x = e ∨ x.seq < e.seq) (he : b = some e ∨ e ∈ es) : es.foldl newerStaged b = some e := by
  induction es generalizing b with
  | nil => simpa using he
  | cons x es ih =>
    have hx : x = e ∨ x.seq < e.seq := hes x List.mem_cons_self
    refine ih _ (fun y hy => hes y (List.mem_cons_of_mem x hy)) (fun y hy => ?_) ?_
    · obtain rfl | hy := newerStaged_eq_or hy
      · exact hx
      · exact hb y hy
    · obtain rfl | hmem := he
      · exact .inl (newerStaged_keeps hx)
      · obtain rfl | hmem := List.mem_cons.mp hmem
        · exact .inl (newerStaged_takes hb)
        · exact .inr hmem

/-- The newest staged write of a block is the one with the highest sequence number (R24). -/
theorem stagedOf_newest {s : State} {e : Staged} (he : e ∈ s.ftla.staging)
    (h : ∀ x ∈ s.ftla.staging, x.lidx = e.lidx → x = e ∨ x.seq < e.seq) : stagedOf s e.lidx = some e := by
  refine foldl_newerStaged _ none (fun x hx => ?_) (fun _ hx => nomatch hx) (.inr (by simp [he]))
  obtain ⟨hmem, hl⟩ := List.mem_filter.mp hx
  exact h x hmem (by simpa using hl)

theorem stagedOf_congr {s t : State} (h : t.ftla = s.ftla) (l : Nat) : stagedOf t l = stagedOf s l := by
  simp [stagedOf, h]

theorem stagedLost_congr {s t : State} (h : t.memi = s.memi) (e : Staged) : stagedLost t e = stagedLost s e := by
  simp [stagedLost, dramBad, lineBad, lineState, h]

theorem attached_congr {s t : State} (h : t.ftla = s.ftla) (fn nsid : Nat) : attached t fn nsid = attached s fn nsid := by
  simp [attached, nsOf, h]

/-- A staged copy that can be read answers a read of its block at once, and nothing changes (R24). -/
theorem readBlock_staged {s : State} {l : Nat} {e : Staged} (he : stagedOf s l = some e) (hlost : stagedLost s e = false)
    (who : Waiter) (pol : Nat) : readBlock s who pol l = (some { data := e.data }, s) := by
  simp [readBlock, look, he, hlost]

/-! ## Reads -/

theorem nsOf_of_attached {s : State} {fn nsid : Nat} {v : Ns} (h : attached s fn nsid = some v) : nsOf s nsid = some v := by
  unfold attached at h
  split at h
  · split at h
    · next w hw _ => rw [hw, h]
    · cases h
  · cases h

/-- A command of one block passes the checks of its span. -/
theorem spanCheck_one {s : State} {fn nsid slba : Nat} {v : Ns} (h : attached s fn nsid = some v) (hlt : slba < v.blocks) (data : Bool) :
    spanCheck s fn nsid slba 1 data = .ok v := by
  simp [spanCheck, h, mdtsBlocks, Nat.not_lt.mpr (Nat.succ_le_of_lt hlt)]

/-- The command that `addCmd` makes outstanding. -/
def newCmd (s : State) (fn sq cid nsid : Nat) (op : CmdOp) (parts : List Part) (pi : PiChk) : Cmd :=
  { fn := fn, sq := sq, cid := cid, nsid := nsid, t := s.now, ord := s.host.ord, pi := pi, op := op, parts := parts }

section OneBlock

variable (s : State) (fn sq cid nsid lba : Nat) (op : CmdOp) (pi : PiChk)

theorem addCmd_cmds (parts : List Part) :
    (addCmd s fn sq cid nsid op parts pi).host.cmds = s.host.cmds ++ [newCmd s fn sq cid nsid op parts pi] := rfl

@[simp] theorem addCmd_sqs (parts : List Part) : (addCmd s fn sq cid nsid op parts pi).host.sqs = s.host.sqs := rfl
@[simp] theorem addCmd_cqs (parts : List Part) : (addCmd s fn sq cid nsid op parts pi).host.cqs = s.host.cqs := rfl
@[simp] theorem addCmd_ftla (parts : List Part) : (addCmd s fn sq cid nsid op parts pi).ftla = s.ftla := rfl
@[simp] theorem addCmd_flcs (parts : List Part) : (addCmd s fn sq cid nsid op parts pi).flcs = s.flcs := rfl
@[simp] theorem addCmd_memi (parts : List Part) : (addCmd s fn sq cid nsid op parts pi).memi = s.memi := rfl

/-- A read of one block that has a logical index waits for that block alone. -/
theorem startReads_one {v : Ns} {l : Nat} (hl : lidx v lba = some l) :
    startReads s fn sq cid nsid lba 1 v pi op =
      readParts (addCmd s fn sq cid nsid op [{ lba := lba }] pi) fn sq cid [(lba, l)] := by
  simp [startReads, hl]

theorem newCmd_named (parts : List Part) :
    (cmdOn (newCmd s fn sq cid nsid op parts pi) fn sq && (newCmd s fn sq cid nsid op parts pi).cid == cid) = true := by
  simp [newCmd, cmdOn]

variable {s fn sq cid}

/-- An outstanding command is found by its identifier, which no earlier one has. -/
theorem findCmd_addCmd (parts : List Part) (hfree : findCmd s fn sq cid = none) :
    findCmd (addCmd s fn sq cid nsid op parts pi) fn sq cid = some (newCmd s fn sq cid nsid op parts pi) := by
  have hold : s.host.cmds.find? (fun c => cmdOn c fn sq && c.cid == cid) = none := hfree
  rw [findCmd, addCmd_cmds, List.find?_append, hold, Option.none_or]
  exact List.find?_cons_of_pos (newCmd_named s fn sq cid nsid op pi parts)

/-- A command with what has come of its block `lba`. -/
def withPart (lba : Nat) (v : Piece) (c : Cmd) : Cmd :=
  { c with parts := c.parts.map (fun p =>
      if p.lba = lba then { p with data := if v.bad then none else some v.data, bad := v.bad, unwritten := v.unwritten } else p) }

theorem withPart_newCmd (d : Bytes) : withPart lba { data := d } (newCmd s fn sq cid nsid op [{ lba := lba }] pi) =
    newCmd s fn sq cid nsid op [{ lba := lba, data := some d }] pi := by
  simp [withPart, newCmd]

/-- The state in which the command has what has come of its block. -/
def givePart (s : State) (fn sq cid lba : Nat) (v : Piece) : State :=
  modHost s (fun h => { h with cmds := h.cmds.map (fun c => if cmdOn c fn sq && c.cid == cid then withPart lba v c else c) })

/-- Its last block delivered, the command ends. -/
theorem cmdPart_of_last {v : Piece} {c : Cmd} (hfind : findCmd (givePart s fn sq cid lba v) fn sq cid = some c)
    (hdone : partsDone c = true) : cmdPart s fn sq cid lba v = finishReads (givePart s fn sq cid lba v) c := by
  have hcases : cmdPart s fn sq cid lba v = (match findCmd (givePart s fn sq cid lba v) fn sq cid with
      | some c => if partsDone c then finishReads (givePart s fn sq cid lba v) c else givePart s fn sq cid lba v
      | none => givePart s fn sq cid lba v) := rfl
  rw [hcases, hfind]
  exact if_pos hdone

/-- A change of the commands of an identifier changes the one just added, and no other. -/
theorem mapCmds_addCmd (parts : List Part) (g : Cmd → Cmd) (hfree : findCmd s fn sq cid = none) :
    modHost (addCmd s fn sq cid nsid op parts pi) (fun h => { h with cmds := h.cmds.map (fun c =>
      if cmdOn c fn sq && c.cid == cid then g c else c) }) =
      modHost s (fun h => { h with cmds := h.cmds ++ [g (newCmd s fn sq cid nsid op parts pi)] }) := by
  have hold : ∀ c ∈ s.host.cmds, (cmdOn c fn sq && c.cid == cid) = false := by
    simpa [findCmd] using hfree
  have hmap : s.host.cmds.map (fun c => if cmdOn c fn sq && c.cid == cid then g c else c) = s.host.cmds :=
    (List.map_congr_left fun c hc => by simp [hold c hc]).trans (List.map_id' s.host.cmds)
  change modHost s (fun h => { h with cmds := (s.host.cmds ++ [newCmd s fn sq cid nsid op parts pi]).map _ }) = _
  rw [List.map_append, hmap, List.map_singleton, if_pos (newCmd_named s fn sq cid nsid op pi parts)]
  rfl

/-- Its block delivered, a command that waits for one block ends. -/
theorem cmdPart_one (d : Bytes) (hfree : findCmd s fn sq cid = none) :
    cmdPart (addCmd s fn sq cid nsid op [{ lba := lba }] pi) fn sq cid lba { data := d } =
      finishReads (addCmd s fn sq cid nsid op [{ lba := lba, data := some d }] pi)
        (newCmd s fn sq cid nsid op [{ lba := lba, data := some d }] pi) := by
  have hgiven : givePart (addCmd s fn sq cid nsid op [{ lba := lba }] pi) fn sq cid lba { data := d } =
      addCmd s fn sq cid nsid op [{ lba := lba, data := some d }] pi := by
    rw [givePart, mapCmds_addCmd nsid op pi [{ lba := lba }] _ hfree, withPart_newCmd]; rfl
  rw [cmdPart_of_last lba (hgiven ▸ findCmd_addCmd nsid op pi _ hfree) rfl, hgiven]

end OneBlock

/-- What PMON and the polder's account show of a read of `n` blocks by a function (R361, R440). -/
def readPaid (s : State) (fn n : Nat) : State :=
  let u := pmonCount s 1 (fnPolder fn) n
  charge u (fnPolder fn) (hostLinkFj u (n * 4096)) true

@[simp] theorem readPaid_host (s : State) (fn n : Nat) : (readPaid s fn n).host = s.host := by simp [readPaid]
@[simp] theorem readPaid_ftla (s : State) (fn n : Nat) : (readPaid s fn n).ftla = s.ftla := by simp [readPaid]
@[simp] theorem readPaid_flcs (s : State) (fn n : Nat) : (readPaid s fn n).flcs = s.flcs := by simp [readPaid]

/-- A read whose blocks are all delivered, and pass their protection information, completes with their data (R24, R67). -/
theorem finishReads_read {s : State} {c : Cmd} {v : Ns} (hop : c.op = .read) (hbad : c.parts.any (fun p => p.bad) = false)
    (hunw : c.parts.any (fun p => p.unwritten) = false) (hpi : partsFail s c = none) (hns : nsOf s c.nsid = some v) :
    finishReads s c = complete (readPaid s c.fn c.parts.length) c.fn c.sq c.cid .success 0 0
      (c.parts.flatMap (fun p => padTo (blockLen v) (partData p))) := by
  simp [finishReads, hop, hbad, hunw, hpi, hns, readPaid]

/-- The check of a command of one block is that of its block. -/
theorem partsFail_one {s : State} {c : Cmd} {v : Ns} {p : Part} (hparts : c.parts = [p]) (hsrc : p.src = none)
    (hns : nsOf s c.nsid = some v) : partsFail s c = piBlock v c.pi 0 p.lba (partData p) := by
  simp [partsFail, hparts, hsrc, hns]

/-- The state in which a fetched read of one block has its data and its costs, and completes. -/
def readServed (s : State) (fn sq cid nsid lba : Nat) (pi : PiChk) (d : Bytes) : State :=
  readPaid (addCmd s fn sq cid nsid .read [{ lba := lba, data := some d }] pi) fn 1

section Served

variable (s : State) (fn sq cid nsid lba : Nat) (pi : PiChk) (d : Bytes)

@[simp] theorem readServed_sqs : (readServed s fn sq cid nsid lba pi d).host.sqs = s.host.sqs := by simp [readServed]
@[simp] theorem readServed_cqs : (readServed s fn sq cid nsid lba pi d).host.cqs = s.host.cqs := by simp [readServed]
@[simp] theorem readServed_ftla : (readServed s fn sq cid nsid lba pi d).ftla = s.ftla := by simp [readServed]
@[simp] theorem readServed_flcs : (readServed s fn sq cid nsid lba pi d).flcs = s.flcs := by simp [readServed]

end Served

section Staged

variable {s : State} {fn sq cid nsid lba l : Nat} {v : Ns} {e : Staged} {pi : PiChk}

/-- A fetched read of one staged block completes with the staged data (R24). -/
theorem startReads_staged (hns : nsOf s nsid = some v) (hfree : findCmd s fn sq cid = none) (hl : lidx v lba = some l)
    (he : stagedOf s l = some e) (hlost : stagedLost s e = false) (hpi : piBlock v pi 0 lba e.data = none) :
    startReads s fn sq cid nsid lba 1 v pi .read =
      complete (readServed s fn sq cid nsid lba pi e.data) fn sq cid .success 0 0 (padTo (blockLen v) e.data) := by
  let c := newCmd s fn sq cid nsid .read [{ lba := lba, data := some e.data }] pi
  let t := addCmd s fn sq cid nsid .read [{ lba := lba, data := some e.data }] pi
  have hblock := readBlock_staged (s := addCmd s fn sq cid nsid .read [{ lba := lba }] pi)
    ((stagedOf_congr (addCmd_ftla ..) l).trans he) ((stagedLost_congr (addCmd_memi ..) e).trans hlost)
  have hpass : partsFail t c = none := (partsFail_one rfl rfl hns).trans hpi
  calc startReads s fn sq cid nsid lba 1 v pi .read
      = cmdPart (addCmd s fn sq cid nsid .read [{ lba := lba }] pi) fn sq cid lba { data := e.data } := by
        rw [startReads_one _ _ _ _ _ _ _ _ hl]; simp only [readParts, hblock]
    _ = finishReads t c := cmdPart_one nsid lba .read pi e.data hfree
    _ = complete (readPaid t fn 1) fn sq cid .success 0 0 (c.parts.flatMap (fun p => padTo (blockLen v) (partData p))) :=
        finishReads_read rfl rfl rfl hpass hns
    _ = complete (readPaid t fn 1) fn sq cid .success 0 0 (padTo (blockLen v) e.data) :=
        congrArg _ (List.flatMap_singleton _ _)

/-- A READ of one staged block is fetched and completes in its own step with the staged data (R24). -/
theorem exec_read_staged (hio : MayIo s fn sq) (hatt : attached s fn nsid = some v) (hfree : findCmd s fn sq cid = none)
    (hlt : lba < v.blocks) (hl : lidx v lba = some l) (he : stagedOf s l = some e) (hlost : stagedLost s e = false)
    (hpi : piBlock v pi 0 lba e.data = none) :
    exec (.read fn sq cid nsid ⟨lba, pi⟩ 1) s =
      .next (complete (readServed (fetch (beginExit s) fn sq) fn sq cid nsid lba pi e.data) fn sq cid .success 0 0
        (padTo (blockLen v) e.data)) := by
  let u := fetch (beginExit s) fn sq
  have hftla : u.ftla = s.ftla := by simp [u]
  have hmemi : u.memi = s.memi := by simp [u]
  have hattu : attached u fn nsid = some v := (attached_congr hftla fn nsid).trans hatt
  have hfreeu : findCmd u fn sq cid = none := by simpa [findCmd, u] using hfree
  change execRead fn sq cid nsid ⟨lba, pi⟩ 1 s = _
  rw [execRead, ioCmd_of_mayIo hio, spanCheck_one hattu hlt]
  exact congrArg _ (startReads_staged (nsOf_of_attached hattu) hfreeu hl ((stagedOf_congr hftla l).trans he)
    ((stagedLost_congr hmemi e).trans hlost) hpi)

end Staged

/-- Settles O39: the entry with the highest sequence number is the one a lookup finds, the read's only block is delivered from it in
the same step, and the success that follows changes queues, counters and accounts only. -/
theorem stagedReads : Obligations.StagedReads := by
  unfold Obligations.StagedReads
  intro s fn sq cid nsid slba l v e pi hpi hio hatt hfree hlt hl he hel hlost hnewest
  subst hel
  have hsq : sq ≠ 0 := hio.1
  have hqueue : HasQueue s fn sq := hasQueue_of_mayFetch hio.2
  have hserved : HasQueue (readServed (fetch (beginExit s) fn sq) fn sq cid nsid slba pi e.data) fn sq :=
    hasQueue_congr (readServed_sqs ..) (readServed_cqs ..) (hasQueue_fetch_beginExit hqueue)
  refine ⟨_, exec_read_staged hio hatt hfree hlt hl (stagedOf_newest he hnewest) hlost hpi, ?_,
    findCmd_complete_success hsq, ?_, ?_, ?_⟩
  · rw [entries_complete_success hsq hserved, entries_congr fn sq (readServed_sqs ..) (readServed_cqs ..),
      entries_fetch_beginExit hqueue]
  · simp [complete_success_staging hsq]
  · simp [complete_success_map hsq]
  · simp [complete_success_flcs hsq]

end Sys2Proof.Machine

/-! SUPPORT. The functions of the ALU group (R128) as values and flags, in the arithmetic of the table. -/

namespace Sys2Proof.Machine

open Sys2Proof

/-! ## Carry, borrow and signed overflow (R118) -/

/-- The signed overflow of an exact result is that its 36-bit value differs from it. -/
theorem ovf36_eq_of_toInt {r : W36} {z : Int} (h : r.toInt = z.bmod (2 ^ 36)) : ovf36 z = decide (r.toInt ≠ z) := by
  have hfits : z.bmod (2 ^ 36) = z ↔ -(2 ^ 35) ≤ z ∧ z < 2 ^ 35 := by
    rw [Int.bmod_eq_iff (by decide)]
    simp
  rw [h, ovf36, ← Bool.decide_or, decide_eq_decide, ne_eq, hfits]
  omega

theorem addC_eq (a b : W36) (cin : Nat) (g : BitVec 4) :
    addC a b cin g = (a + b + BitVec.ofNat 36 cin, withCV g (decide (2 ^ 36 ≤ a.toNat + b.toNat + cin))
      (decide ((a + b + BitVec.ofNat 36 cin).toInt ≠ a.toInt + b.toInt + cin))) := by
  have hsum : BitVec.ofNat 36 (a.toNat + b.toNat + cin) = a + b + BitVec.ofNat 36 cin := by
    simp [BitVec.ofNat_add]
  have hint : (a + b + BitVec.ofNat 36 cin).toInt = (a.toInt + b.toInt + cin).bmod (2 ^ 36) := by
    simp only [BitVec.toInt_add, BitVec.toInt_ofNat', Int.bmod_add_bmod, Int.add_bmod_bmod]
  simp only [addC, hsum, setCV_withCV, ovf36_eq_of_toInt hint]

theorem subB_eq (a b : W36) (bin : Nat) (g : BitVec 4) :
    subB a b bin g = (a - b - BitVec.ofNat 36 bin, withCV g (decide (a.toNat < b.toNat + bin))
      (decide ((a - b - BitVec.ofNat 36 bin).toInt ≠ a.toInt - b.toInt - bin))) := by
  have hint : (a - b - BitVec.ofNat 36 bin).toInt = (a.toInt - b.toInt - bin).bmod (2 ^ 36) := by
    simp only [BitVec.toInt_sub, BitVec.toInt_ofNat', Int.bmod_sub_bmod, Int.sub_bmod_bmod]
  simp only [subB, setCV_withCV, ovf36_eq_of_toInt hint]

theorem aluAdd_eq (a b : W36) (g : BitVec 4) :
    aluAdd a b g = (a + b, withCV g (decide (2 ^ 36 ≤ a.toNat + b.toNat)) (decide ((a + b).toInt ≠ a.toInt + b.toInt))) := by
  simpa [aluAdd] using addC_eq a b 0 g

theorem aluSub_eq (a b : W36) (g : BitVec 4) :
    aluSub a b g = (a - b, withCV g (decide (a.toNat < b.toNat)) (decide ((a - b).toInt ≠ a.toInt - b.toInt))) := by
  simpa [aluSub] using subB_eq a b 0 g

/-! ## Shifts -/

theorem sll36_eq (a : W36) (n : Nat) : sll36 a n = a <<< n := by
  unfold sll36
  split
  · next h => exact (BitVec.shiftLeft_eq_zero h).symm
  · rfl

theorem srl36_eq (a : W36) (n : Nat) : srl36 a n = a >>> n := by
  unfold srl36
  split
  · next h => exact (BitVec.ushiftRight_eq_zero h).symm
  · rfl

theorem sra36_eq (a : W36) (n : Nat) : sra36 a n = a.sshiftRight n := by
  unfold sra36
  split
  · next h =>
    ext i hi
    have hpast : ¬ n + i < 36 := by omega
    rw [BitVec.getElem_sshiftRight, dif_neg hpast]
    cases a.msb
    · simp
    · exact BitVec.getElem_allOnes i hi
  · rfl

theorem rot36_eq (a : W36) (n : Nat) : rot36 a n = (a <<< (n % 36)) ||| (a >>> (36 - n % 36)) := by
  rw [rot36, BitVec.rotateLeft_def, Nat.mod_mod]

/-! ## Comparisons, minimum, maximum, product -/

theorem bool36_decide (p : Prop) [Decidable p] : bool36 (decide p) = if p then 1 else 0 := by
  simp [bool36]

theorem minu_eq (a b : W36) : (if a.toNat < b.toNat then a else b) = BitVec.ofNat 36 (min a.toNat b.toNat) := by
  split
  · next h => simp [min_eq_left h.le]
  · next h => simp [min_eq_right (not_lt.mp h)]

theorem maxu_eq (a b : W36) : (if a.toNat < b.toNat then b else a) = BitVec.ofNat 36 (max a.toNat b.toNat) := by
  split
  · next h => simp [max_eq_right h.le]
  · next h => simp [max_eq_left (not_lt.mp h)]

theorem mul_eq_ofNat (a b : W36) : a * b = BitVec.ofNat 36 (a.toNat * b.toNat % 2 ^ 36) :=
  BitVec.eq_of_toNat_eq (by simp [BitVec.toNat_mul])

/-! ## Halves (R119) -/

theorem loHalf_toNat (a : W36) : (loHalf a).toNat = a.toNat % 2 ^ 18 := BitVec.toNat_setWidth ..

theorem hiHalf_toNat (a : W36) : (hiHalf a).toNat = a.toNat / 2 ^ 18 := by
  have hfits : a.toNat / 2 ^ 18 < 2 ^ 18 := by omega
  rw [hiHalf, BitVec.toNat_setWidth, BitVec.toNat_ushiftRight, Nat.shiftRight_eq_div_pow, Nat.mod_eq_of_lt hfits]

/-- A word of two halves as a number. -/
theorem halves_eq_ofNat {h l : BitVec 18} {m n : Nat} (hm : h.toNat = m) (hn : l.toNat = n) :
    halves h l = BitVec.ofNat 36 (m * 2 ^ 18 + n) := by
  subst hm hn
  refine BitVec.eq_of_toNat_eq ?_
  have hfits : h.toNat * 2 ^ 18 + l.toNat < 2 ^ 36 := by omega
  rw [halves, BitVec.toNat_append, ← Nat.shiftLeft_add_eq_or_of_lt l.isLt, Nat.shiftLeft_eq, BitVec.toNat_ofNat,
    Nat.mod_eq_of_lt hfits]

theorem subHalf_toNat (p q : BitVec 18) : (p - q).toNat = (p.toNat + 2 ^ 18 - q.toNat) % 2 ^ 18 := by
  rw [BitVec.toNat_sub]
  congr 1
  omega

theorem satHalf_toNat (p q : BitVec 18) : (satHalf p q).toNat = min (p.toNat + q.toNat) (2 ^ 18 - 1) := by
  unfold satHalf
  split
  · next h => rw [BitVec.toNat_allOnes]; omega
  · next h => rw [BitVec.toNat_add]; omega

theorem addh_eq (a b : W36) : halves (hiHalf a + hiHalf b) (loHalf a + loHalf b) =
    BitVec.ofNat 36 ((a.toNat / 2 ^ 18 + b.toNat / 2 ^ 18) % 2 ^ 18 * 2 ^ 18 + (a.toNat % 2 ^ 18 + b.toNat % 2 ^ 18) % 2 ^ 18) :=
  halves_eq_ofNat (by rw [BitVec.toNat_add, hiHalf_toNat, hiHalf_toNat]) (by rw [BitVec.toNat_add, loHalf_toNat, loHalf_toNat])

theorem subh_eq (a b : W36) : halves (hiHalf a - hiHalf b) (loHalf a - loHalf b) =
    BitVec.ofNat 36 ((a.toNat / 2 ^ 18 + 2 ^ 18 - b.toNat / 2 ^ 18) % 2 ^ 18 * 2 ^ 18 +
      (a.toNat % 2 ^ 18 + 2 ^ 18 - b.toNat % 2 ^ 18) % 2 ^ 18) :=
  halves_eq_ofNat (by rw [subHalf_toNat, hiHalf_toNat, hiHalf_toNat]) (by rw [subHalf_toNat, loHalf_toNat, loHalf_toNat])

theorem addhs_eq (a b : W36) : halves (satHalf (hiHalf a) (hiHalf b)) (satHalf (loHalf a) (loHalf b)) =
    BitVec.ofNat 36 (min (a.toNat / 2 ^ 18 + b.toNat / 2 ^ 18) (2 ^ 18 - 1) * 2 ^ 18 +
      min (a.toNat % 2 ^ 18 + b.toNat % 2 ^ 18) (2 ^ 18 - 1)) :=
  halves_eq_ofNat (by rw [satHalf_toNat, hiHalf_toNat, hiHalf_toNat]) (by rw [satHalf_toNat, loHalf_toNat, loHalf_toNat])

/-! ## Counts of bits -/

theorem size_eq_log2_succ {n : Nat} (h : n ≠ 0) : Nat.size n = Nat.log2 n + 1 :=
  le_antisymm (Nat.size_le.mpr Nat.lt_log2_self) (Nat.lt_size.mpr (Nat.log2_self_le h))

theorem clzNat_eq (a : W36) : clzNat a = 36 - Nat.size a.toNat := by
  unfold clzNat
  split
  · next h => simp [h]
  · next h => rw [size_eq_log2_succ h]; omega

theorem popNat_eq (a : W36) : popNat a = (List.range 36).countP (fun i => a.getLsbD i) := List.countP_eq_length_filter.symm

/-! ## The group -/

/-- An ALU word with a zero modifier gives whatever its function computes. -/
theorem wordResult_alu_of_eq {i : Instr} {s : State} {c : Nat} {rd ra rb : BitVec 5} {f : AluFn} {v : W36} {g : BitVec 4}
    (h : CanRun s c) (hi : exec i s = .next (aluWord c rd ra rb 0 f s))
    (hf : f (rget (core s c) ra) (rget (core s c) rb) (core s c).flags = (v, g)) :
    WordResult i s c rd v g ((core s c).pc + 1) := by
  simpa only [hf] using wordResult_alu i s c rd ra rb f h hi

/-- An ALU word whose function leaves the flags alone. -/
theorem wordResult_pureAlu {i : Instr} {s : State} {c : Nat} {rd ra rb : BitVec 5} {f : W36 → W36 → W36} {v : W36}
    (h : CanRun s c) (hi : exec i s = .next (aluWord c rd ra rb 0 (pureAlu f) s))
    (hf : f (rget (core s c) ra) (rget (core s c) rb) = v) :
    WordResult i s c rd v (core s c).flags ((core s c).pc + 1) :=
  wordResult_alu_of_eq h hi (congrArg (·, (core s c).flags) hf)

theorem exec_iAddhs_v2 {s : State} {c : Nat} (rd ra rb : BitVec 5) (m : BitVec 7) (h : (core s c).v1 = false) :
    exec (.iAddhs c rd ra rb m) s = .next (aluWord c rd ra rb m aluAddhs s) := by
  change execIAddhs c rd ra rb m s = _
  simp [execIAddhs, h]

/-- Settles O3: each function computes the value of the table; c and v are the carry or borrow and the signed overflow. -/
theorem aluGroupResults : Obligations.AluGroupResults := by
  unfold Obligations.AluGroupResults
  intro s c rd ra rb h x y g
  exact ⟨
    wordResult_alu_of_eq h rfl (aluAdd_eq x y g), wordResult_alu_of_eq h rfl (aluSub_eq x y g),
    wordResult_alu_of_eq h rfl (addC_eq x y _ g), wordResult_alu_of_eq h rfl (subB_eq x y _ g),
    wordResult_pureAlu h rfl rfl, wordResult_pureAlu h rfl rfl, wordResult_pureAlu h rfl rfl, wordResult_pureAlu h rfl rfl,
    wordResult_pureAlu h rfl (sll36_eq x _), wordResult_pureAlu h rfl (srl36_eq x _),
    wordResult_pureAlu h rfl (sra36_eq x _), wordResult_pureAlu h rfl (rot36_eq x _),
    wordResult_pureAlu h rfl (bool36_decide _), wordResult_pureAlu h rfl (bool36_decide _),
    wordResult_pureAlu h rfl (minu_eq x y), wordResult_pureAlu h rfl (maxu_eq x y),
    wordResult_pureAlu h rfl (mul_eq_ofNat x y), wordResult_pureAlu h rfl rfl, wordResult_pureAlu h rfl rfl,
    wordResult_pureAlu h rfl (addh_eq x y), wordResult_pureAlu h rfl (subh_eq x y),
    fun hv => wordResult_pureAlu h (exec_iAddhs_v2 rd ra rb 0 hv) (addhs_eq x y),
    wordResult_pureAlu h rfl (congrArg _ (clzNat_eq x)), wordResult_pureAlu h rfl (congrArg _ (popNat_eq x))⟩

end Sys2Proof.Machine

/-! SUPPORT. Words whose result is given nonet by nonet (R117, R120). -/

namespace Sys2Proof.Machine

open Sys2Proof

/-! ## Results by lanes -/

@[simp] theorem tags_mkWord (t : BitVec 4) (d : W32) : tags (mkWord t d) = t := by
  ext n hn
  simp [tags, mkWord_tag, BitVec.getLsbD_eq_getElem hn]

/-- A function of the four lanes, lane by lane. -/
theorem lanes_eq {α : Type} (f : Nat → α) {n : Nat} (h : n < 4) :
    (if n = 0 then f 0 else if n = 1 then f 1 else if n = 2 then f 2 else f 3) = f n := by
  interval_cases n <;> rfl

theorem withTags_tag (a : W36) (t : Nat → Bool) {n : Nat} (h : n < 4) : (withTags a t).getLsbD (32 + n) = t n := by
  rw [withTags, mkWord_tag, tags4_get _ _ _ _ n h, lanes_eq t h]

theorem ofLanes_byte (b : Nat → Byte) (t : Nat → Bool) {n : Nat} (h : n < 4) : ((ofLanes b t) >>> (8 * n)).setWidth 8 = b n := by
  rw [ofLanes, bytes4_byte _ _ _ _ _ n h, lanes_eq b h]

theorem ofLanes_tag (b : Nat → Byte) (t : Nat → Bool) {n : Nat} (h : n < 4) : (ofLanes b t).getLsbD (32 + n) = t n := by
  rw [ofLanes, mkWord_tag, tags4_get _ _ _ _ n h, lanes_eq t h]

/-- Setting the tags of a word sets t to their OR (R120). -/
theorem tagRes_withTags_flags (a : W36) (t : Nat → Bool) (g : BitVec 4) :
    (tagRes (withTags a t) g).2 = withT g (t 0 || t 1 || t 2 || t 3) := by
  rw [tagRes, setT_withT, withTags, tags_mkWord, tags4_nz]

section Lanes

variable {i : Instr} {s : State} {c : Nat} {rd : BitVec 5}

/-- A word that sets the tags of `a` keeps its bytes. -/
theorem laneResult_withTags {a : W36} {t : Nat → Bool}
    (h : WordResult i s c rd (withTags a t) (tagRes (withTags a t) (core s c).flags).2 ((core s c).pc + 1)) :
    LaneResult i s c rd true (byteN a) t :=
  ⟨withTags a t, tagRes_withTags_flags a t _ ▸ h, fun n hn => ⟨mkWord_byte _ a n hn, withTags_tag a t hn⟩⟩

/-- A word that puts a word together from nonets. -/
theorem laneResult_ofLanes {b : Nat → Byte} {t : Nat → Bool}
    (h : WordResult i s c rd (ofLanes b t) (core s c).flags ((core s c).pc + 1)) : LaneResult i s c rd false b t :=
  ⟨ofLanes b t, h, fun _ hn => ⟨ofLanes_byte b t hn, ofLanes_tag b t hn⟩⟩

end Lanes

/-- The combine codes as a list of their functions (R129). -/
theorem getD_combines {comb : Nat} (h : comb < 4) :
    ([fun _ h => h, fun o h => o && h, fun o h => o || h, fun o h => o && !h] : List (Bool → Bool → Bool)).getD comb
      (fun _ _ => false) = combine comb := by
  interval_cases comb <;> rfl

end Sys2Proof.Machine

/-! SUPPORT. Where a synchronous trap of a word goes: to the stop of an expired job, to the user handler, or to the system
handler (R157, R158, R160, R161). -/

namespace Sys2Proof.Machine

open Sys2Proof

/-! ## The cause word -/

/-- Fields that do not meet are added: the lower one stands below bit `n`, the upper one from bit `n` on. -/
theorem toNat_or_of_disjoint {x y : W32} {m n v : Nat} (hx : x.toNat = 2 ^ n * m) (hy : y.toNat = v) (hv : v < 2 ^ n) :
    (x ||| y).toNat = 2 ^ n * m + v := by
  rw [BitVec.toNat_or, hx, hy, Nat.two_pow_add_eq_or_of_lt hv]

/-- UCAUSE and SCAUSE as a number: the flags, the busy bit, the slot, the info and the cause (R158). -/
theorem causeWord_eq (f : BitVec 4) (t : Trap) : causeWord f t =
    BitVec.ofNat 36 (f.toNat * 2 ^ 32 + 2 ^ 31 + t.slot % 4 * 2 ^ 29 + t.info % 4096 * 256 + t.cause % 256) := by
  have hput : ∀ v hi lo : Nat, v % 2 ^ (hi - lo + 1) * 2 ^ lo < 2 ^ 32 → (put v hi lo).toNat = v % 2 ^ (hi - lo + 1) * 2 ^ lo :=
    fun v hi lo h => (BitVec.toNat_ofNat ..).trans (Nat.mod_eq_of_lt h)
  have hslot := toNat_or_of_disjoint (x := putB true 31) (m := 1) (n := 31) (by decide) (hput t.slot 30 29 (by omega)) (by omega)
  have hinfo := toNat_or_of_disjoint (m := 4 + t.slot % 4) (n := 29) (hslot.trans (by omega)) (hput t.info 19 8 (by omega)) (by omega)
  have hcause := toNat_or_of_disjoint (m := (4 + t.slot % 4) * 2 ^ 21 + t.info % 4096) (n := 8) (hinfo.trans (by omega))
    (hput t.cause 7 0 (by omega)) (by omega)
  refine BitVec.eq_of_toNat_eq ?_
  rw [causeWord, BitVec.toNat_append, ← Nat.shiftLeft_add_eq_or_of_lt (BitVec.isLt _), hcause, BitVec.toNat_ofNat, Nat.shiftLeft_eq]
  omega

/-! ## The entry of a trap -/

/-- A core as its trap counts it, before the trap's own registers are written. -/
def trapCore (k : Core) (t : Trap) : Core :=
  { countWord k (0x12 :: t.evs) 0 0 t.slot 0 0 with stalled := false, routine := none }

theorem trapCore_rest (k : Core) (t : Trap) :
    trapCore k t = { k with cnt := (trapCore k t).cnt, stalled := false, routine := none } := by
  have hcount := (countWord_only k (0x12 :: t.evs) 0 0 t.slot 0 0).rest
  generalize hl : countWord k (0x12 :: t.evs) 0 0 t.slot 0 0 = l at hcount
  simp only [trapCore, hl]
  rw [hcount]

section TrapCore

variable (k : Core) (t : Trap)

@[simp] theorem trapCore_user : (trapCore k t).user = k.user := by rw [trapCore_rest]
@[simp] theorem trapCore_pc : (trapCore k t).pc = k.pc := by rw [trapCore_rest]
@[simp] theorem trapCore_flags : (trapCore k t).flags = k.flags := by rw [trapCore_rest]
@[simp] theorem trapCore_regs : (trapCore k t).regs = k.regs := by rw [trapCore_rest]
@[simp] theorem trapCore_utvec : (trapCore k t).utvec = k.utvec := by rw [trapCore_rest]
@[simp] theorem trapCore_ucause : (trapCore k t).ucause = k.ucause := by rw [trapCore_rest]
@[simp] theorem trapCore_stvec : (trapCore k t).stvec = k.stvec := by rw [trapCore_rest]
@[simp] theorem trapCore_sstatus : (trapCore k t).sstatus = k.sstatus := by rw [trapCore_rest]

/-- A core that has entered its user handler (R158). -/
def inUserHandler : Core :=
  { k with uepc := k.pc, ucause := causeWord k.flags t, utval := t.val, pc := k.utvec + BitVec.ofNat 36 t.cause }

/-- A core that has entered the system handler (R160). -/
def inSystemHandler : Core :=
  { k with sepc := k.pc, scause := causeWord k.flags t, stval := t.val, sstatus := k.sstatus ||| 2,
           pc := k.stvec + BitVec.ofNat 36 t.cause }

theorem userEntry_trapCore : UserEntry k (inUserHandler (trapCore k t) t) t.cause t.info t.slot t.val := by
  refine ⟨?pc, rfl, ?handler, ?cause, fun r => ?regs, ?flags⟩
  case cause => simp [inUserHandler, causeWord_eq]
  all_goals simp [inUserHandler, rget]

theorem systemEntry_trapCore : SystemEntry k (inSystemHandler (trapCore k t) t) t.cause t.info t.slot t.val := by
  refine ⟨?pc, rfl, ?busy, ?handler, ?cause, fun r => ?regs, ?flags⟩
  case cause => simp [inSystemHandler, causeWord_eq]
  all_goals simp [inSystemHandler, rget]

end TrapCore

section EnterTrap

variable {s : State} {c : Nat} {t : Trap}

theorem enterTrap_user (h : HasHandler (core s c)) (ht : userCause t.cause = true) : enterTrap s c t =
    setCore (setCore s c (trapCore (core s c) t)) c (inUserHandler (trapCore (core s c) t) t) := by
  obtain ⟨huser, hvec, hbusy⟩ := h
  have hmode : (trapCore (core s c) t).user = true := by simp [huser]
  have hmay : (userCause t.cause && decide ((trapCore (core s c) t).utvec ≠ 0) && !(trapCore (core s c) t).ucause.getLsbD 31) = true := by
    rw [trapCore_utvec, trapCore_ucause, ht, hbusy, decide_eq_true hvec]; rfl
  exact (if_pos hmode).trans (if_pos hmay)

theorem enterTrap_system (huser : (core s c).user = false) (hbusy : (core s c).sstatus.getLsbD 1 = false) : enterTrap s c t =
    setCore (setCore s c (trapCore (core s c) t)) c (inSystemHandler (trapCore (core s c) t) t) := by
  have hmode : ¬ (trapCore (core s c) t).user = true := by simp [huser]
  have hfree : ¬ (trapCore (core s c) t).sstatus.getLsbD 1 = true := by rw [trapCore_sstatus, hbusy]; decide
  exact (if_neg hmode).trans (if_neg hfree)

theorem core_setCore_twice_ne (s : State) (k l : Core) {c d : Nat} (h : d ≠ c) :
    core (setCore (setCore s c k) c l) d = core s d := by
  rw [core_setCore_ne _ _ _ _ h, core_setCore_ne _ _ _ _ h]

end EnterTrap

/-! ## The stop of an expired job (R104, R161) -/

theorem limitReached_iff (s : State) (v : Job) : limitReached s v = true ↔ LimitPassed s v := by
  simp [limitReached, LimitPassed]

theorem expiredJob_of_user {s : State} {k : Core} {j : Nat} {v : Job} (huser : k.user = true) (hjob : k.job = some j)
    (hv : job s j = some v) (hlimit : LimitPassed s v) : expiredJob s k = some j := by
  simp [expiredJob, hjob, hv, huser, (limitReached_iff s v).mpr hlimit]

theorem expiredJob_of_system (s : State) {k : Core} (huser : k.user = false) : expiredJob s k = none := by
  unfold expiredJob
  split
  · rfl
  · split
    · rfl
    · simp [huser]

theorem expiredJob_of_noStop {s : State} {c : Nat} (h : NoStop s c) : expiredJob s (core s c) = none := by
  unfold expiredJob
  split
  · rfl
  · next j hjob =>
    split
    · rfl
    · next v hv =>
      simp [limitReached_iff, h j v hjob hv]

/-- A change of one core after the other keeps the jobs. -/
theorem jobs_foldl_modCore (f : State → Core → Core) (l : List Nat) (s : State) :
    (l.foldl (fun s c => modCore s c (f s)) s).jobs = s.jobs := by
  induction l generalizing s with
  | nil => rfl
  | cons d l ih => exact (ih _).trans rfl

/-- A change of one core after the other keeps what it keeps of every core. -/
theorem core_foldl_modCore {α : Type} (p : Core → α) (f : State → Core → Core) (hf : ∀ s k, p (f s k) = p k) (l : List Nat)
    (s : State) (c : Nat) : p (core (l.foldl (fun s c => modCore s c (f s)) s) c) = p (core s c) := by
  induction l generalizing s with
  | nil => rfl
  | cons d l ih =>
    refine (ih (modCore s d (f s))).trans ?_
    by_cases hd : c = d
    · subst hd; rw [modCore, core_setCore_same, hf]
    · rw [modCore, core_setCore_ne _ _ _ _ hd]

/-- A core of a job that ends (R162). -/
def stopCore (s : State) (k : Core) : Core :=
  if k.st = .free ∨ k.st = .halted then k else { k with st := .stopping, wfe := none, stopT := some s.now }

section EndJob

variable {s : State} {j : Nat} {v : Job} (r : Option (NStat × W32))

/-- Ending a job sets its result, changes its buffer flights, and stops its cores. -/
theorem endJob_eq (hv : job s j = some v) (hst : v.st ≠ .ending) : ∃ f, endJob s j r =
    v.cores.foldl (fun s c => modCore s c (stopCore s)) (modBpm (setJob s j (some { v with st := .ending, result := r })) f) := by
  unfold endJob
  rw [hv]
  exact ⟨_, if_neg hst⟩

theorem job_endJob (hv : job s j = some v) (hst : v.st ≠ .ending) :
    job (endJob s j r) j = some { v with st := .ending, result := r } := by
  obtain ⟨f, hf⟩ := endJob_eq r hv hst
  rw [hf, job, jobs_foldl_modCore]
  simp

/-- What stopping a core keeps, the end of a job keeps of every core. -/
theorem core_endJob {α : Type} (p : Core → α) (hp : ∀ s k, p (stopCore s k) = p k) (hv : job s j = some v) (hst : v.st ≠ .ending)
    (c : Nat) : p (core (endJob s j r) c) = p (core s c) := by
  obtain ⟨f, hf⟩ := endJob_eq r hv hst
  rw [hf]
  exact core_foldl_modCore p stopCore hp _ _ c

end EndJob

theorem stopCore_trap (s : State) (k : Core) : (stopCore s k).trap = k.trap := by unfold stopCore; split <;> rfl
theorem stopCore_ucause (s : State) (k : Core) : (stopCore s k).ucause = k.ucause := by unfold stopCore; split <;> rfl

/-! ## A word that traps -/

section Traps

variable {i : Instr} {s : State} {c : Nat} {t : Trap}

theorem takeTrap_expired {j : Nat} (h : expiredJob s (core s c) = some j) :
    takeTrap s c t = endJob s j (some (.interrupted, putB true 31)) := by
  simp [takeTrap, h]

theorem takeTrap_entered (h : expiredJob s (core s c) = none) : takeTrap s c t = enterTrap s c t := by
  simp [takeTrap, h]

/-- A word whose trap changes nothing before it is taken goes where its core's handler is (R158, R160, R161). -/
theorem wordTraps_of_takeTrap (hi : exec i s = .next (takeTrap s c t)) (ht : userCause t.cause = true) :
    WordTraps i s c t.cause t.info t.slot t.val := by
  refine ⟨fun j v huser hjob hv hlimit hst => ⟨_, hi, ?_⟩, fun hhandler hstop => ⟨_, hi, ?_⟩, fun huser hbusy => ⟨_, hi, ?_⟩⟩
  · rw [takeTrap_expired (expiredJob_of_user huser hjob hv hlimit)]
    exact ⟨job_endJob _ hv hst, core_endJob _ Core.trap stopCore_trap hv hst c, core_endJob _ Core.ucause stopCore_ucause hv hst c⟩
  · rw [takeTrap_entered (expiredJob_of_noStop hstop), enterTrap_user hhandler ht]
    exact ⟨rfl, fun d hd => core_setCore_twice_ne s _ _ hd, (core_setCore_same ..).symm ▸ userEntry_trapCore (core s c) t⟩
  · rw [takeTrap_entered (expiredJob_of_system s huser), enterTrap_system huser hbusy]
    exact ⟨rfl, fun d hd => core_setCore_twice_ne s _ _ hd, (core_setCore_same ..).symm ▸ systemEntry_trapCore (core s c) t⟩

theorem runWord_illegal {f : State → Ran} (h : CanRun s c) (hf : f s = illegal s) :
    runWord c s f = takeTrap s c { cause := 1 } := by
  obtain ⟨hrun, hfetch⟩ := h
  simp [runWord, hrun, hfetch, hf, illegal]

/-- An illegal word takes the illegal-instruction trap (R126, R157). -/
theorem wordTraps_illegal {f : State → Ran} (h : CanRun s c) (hi : exec i s = .next (runWord c s f)) (hf : f s = illegal s) :
    WordTraps i s c 1 0 0 0 :=
  wordTraps_of_takeTrap (t := { cause := 1 }) (hi.trans (congrArg _ (runWord_illegal h hf))) (by decide)

end Traps

end Sys2Proof.Machine

/-! SUPPORT. Classification: CLS and CLSW (R130, R131). -/

namespace Sys2Proof.Machine

open Sys2Proof

/-! ## CLS -/

section Fields

variable (k : Core) (a : W36) (g : BitVec 4) {t comb : Nat} (mask : BitVec 4)

/-- Tag mode: table fn 2:0, mask fn 6:3, combine code fn 8:7. -/
theorem clsOp_tagMode (ht : t < 8) (hcomb : comb < 4) :
    clsOp k (t + mask.toNat * 8 + comb * 128) a g = some (tagRes (clsTag k a t mask comb) g) := by
  have hmask := mask.isLt
  have hlow : ¬ 1024 ≤ t + mask.toNat * 8 + comb * 128 := by omega
  have hmode : (t + mask.toNat * 8 + comb * 128) / 512 % 2 = 0 := by omega
  have htable : (t + mask.toNat * 8 + comb * 128) % 8 = t := by omega
  have hfield : (t + mask.toNat * 8 + comb * 128) / 8 % 16 = mask.toNat := by omega
  have hcode : (t + mask.toNat * 8 + comb * 128) / 128 % 4 = comb := by omega
  simp only [clsOp, if_neg hlow, if_pos hmode, htable, hfield, hcode, BitVec.ofNat_toNat, BitVec.setWidth_eq]

/-- Value mode: the combine code is not used. -/
theorem clsOp_valueMode (ht : t < 8) (hcomb : comb < 4) :
    clsOp k (512 + (t + mask.toNat * 8 + comb * 128)) a g = some (clsVal k a t mask, g) := by
  have hmask := mask.isLt
  have hlow : ¬ 1024 ≤ 512 + (t + mask.toNat * 8 + comb * 128) := by omega
  have hmode : ¬ (512 + (t + mask.toNat * 8 + comb * 128)) / 512 % 2 = 0 := by omega
  have htable : (512 + (t + mask.toNat * 8 + comb * 128)) % 8 = t := by omega
  have hfield : (512 + (t + mask.toNat * 8 + comb * 128)) / 8 % 16 = mask.toNat := by omega
  simp only [clsOp, if_neg hlow, if_neg hmode, htable, hfield, BitVec.ofNat_toNat, BitVec.setWidth_eq]

theorem clsOp_reserved {f : Nat} (h : 1023 < f) : clsOp k f a g = none := if_pos h

end Fields

section Cls

variable {s : State} {c : Nat} {rd ra rb : BitVec 5} {fn : BitVec 13}

/-- A CLS word whose fields are legal gives what its operation computes. -/
theorem wordResult_cls {f : Nat} {r : W36 × BitVec 4} (h : CanRun s c) (hf : f < 2 ^ 13)
    (hop : clsOp (core s c) f (rget (core s c) ra) (core s c).flags = some r) :
    WordResult (.iCls c rd ra 0 (BitVec.ofNat 13 f)) s c rd r.1 r.2 ((core s c).pc + 1) := by
  refine ⟨_, rfl, runWord_next s c _ rd _ _ h ?_⟩
  simp only [if_true, BitVec.toNat_ofNat, Nat.mod_eq_of_lt hf, hop]

/-- Tag mode sets the tag of each lane from the entry of its byte (R130). -/
theorem laneResult_clsTag {t comb : Nat} {mask : BitVec 4} (h : CanRun s c) (ht : t < 8) (hcomb : comb < 4) :
    LaneResult (.iCls c rd ra 0 (BitVec.ofNat 13 (t + mask.toNat * 8 + comb * 128))) s c rd true (byteN (rget (core s c) ra))
      (fun n => combine comb (tagN (rget (core s c) ra) n)
        (clsEntry (core s c) t (byteN (rget (core s c) ra) n) &&& mask != 0)) :=
  laneResult_withTags (wordResult_cls h (by have := mask.isLt; omega) (clsOp_tagMode _ _ _ mask ht hcomb))

/-- Value mode gives the masked entries of the bytes, with no tag (R130). -/
theorem laneResult_clsVal {t comb : Nat} {mask : BitVec 4} (h : CanRun s c) (ht : t < 8) (hcomb : comb < 4) :
    LaneResult (.iCls c rd ra 0 (BitVec.ofNat 13 (512 + (t + mask.toNat * 8 + comb * 128)))) s c rd false
      (fun n => (clsEntry (core s c) t (byteN (rget (core s c) ra) n) &&& mask).setWidth 8) (fun _ => false) :=
  laneResult_ofLanes (wordResult_cls h (by have := mask.isLt; omega) (clsOp_valueMode _ _ _ mask ht hcomb))

/-- CLS is illegal with a nonzero rb field or nonzero fn 12:10 (R130). -/
theorem wordTraps_cls (h : CanRun s c) (hfields : rb ≠ 0 ∨ 1023 < fn.toNat) : WordTraps (.iCls c rd ra rb fn) s c 1 0 0 0 := by
  refine wordTraps_illegal h rfl ?_
  obtain hrb | hfn := hfields
  · simp only [if_neg hrb]
  · simp only [clsOp_reserved _ _ _ hfn, ite_self]

end Cls

/-! ## CLSW -/

/-- Writing `m` keys from `base` upward. -/
theorem tget_foldl_tset {α : Type} [DecidableEq α] (l : Tbl α) (d : α) (base : Nat) (f : Nat → α) (m k : Nat) :
    tget ((List.range m).foldl (fun l n => tset l d (base + n) (f n)) l) d k =
      if base ≤ k ∧ k < base + m then f (k - base) else tget l d k := by
  induction m with
  | zero => simp
  | succ m ih =>
    rw [List.range_succ, List.foldl_append, List.foldl_cons, List.foldl_nil, tget_tset, ih]
    by_cases hk : k = base + m
    · subst hk; simp
    · have hrange : (base ≤ k ∧ k < base + (m + 1)) ↔ (base ≤ k ∧ k < base + m) := by omega
      simp only [if_neg hk, hrange]

/-- CLSW writes the eight entries of one group, each from its nibble of `a` (R131). -/
theorem tget_clswSet (k : Core) (t : Nat) (a b : W36) (n : Nat) : tget (clswSet k t a b).cls 0 n =
    if n / 8 = t * 32 + b.toNat % 256 / 8 then (a >>> (4 * (n % 8))).setWidth 4 else tget k.cls 0 n := by
  have hwrite := tget_foldl_tset k.cls 0 (t * 256 + b.toNat % 256 / 8 * 8) (fun n => (a >>> (4 * n)).setWidth 4) 8 n
  refine hwrite.trans ?_
  by_cases hgroup : n / 8 = t * 32 + b.toNat % 256 / 8
  · have hplace : n - (t * 256 + b.toNat % 256 / 8 * 8) = n % 8 := by omega
    rw [if_pos (by omega), if_pos hgroup, hplace]
  · rw [if_neg (by omega), if_neg hgroup]

section Clsw

variable {s : State} {c : Nat} {rd ra rb : BitVec 5} {fn : BitVec 13}

/-- A word that changes its own core and retires completes with that change and what retiring counts. -/
theorem gives_ownCore {i : Instr} {f : State → Ran} {k : Core} {evs : List Nat} {ad : Option Nat} (h : CanRun s c)
    (hi : exec i s = .next (runWord c s f)) (hf : f s = .ok (setCore s c k) evs ad) : Gives i s fun u =>
      OnlyCore s u c ∧
      core u c = { k with cnt := (core u c).cnt, cyc := (core u c).cyc, stalled := false, routine := none } := by
  obtain ⟨honly, hcore, -⟩ := runWord_ok s c f k evs ad h hf
  exact ⟨_, hi, honly, hcore⟩

/-- CLSW is illegal with a nonzero rd field or nonzero fn 12:3 (R131). -/
theorem wordTraps_clsw (h : CanRun s c) (hfields : rd ≠ 0 ∨ 7 < fn.toNat) : WordTraps (.iClsw c rd ra rb fn) s c 1 0 0 0 := by
  have hillegal : ¬ (rd = 0 ∧ fn.toNat < 8) := by
    rintro ⟨hrd, hfn⟩
    exact hfields.elim (· hrd) (by omega)
  exact wordTraps_illegal h rfl (if_neg hillegal)

/-- A legal CLSW writes its group of entries and goes on; nothing else of its core changes but what retiring counts (R131). -/
theorem gives_clsw {t : Nat} (h : CanRun s c) (ht : t < 8) : Gives (.iClsw c 0 ra rb (BitVec.ofNat 13 t)) s fun u =>
    OnlyCore s u c ∧
    core u c = { core s c with cls := (core u c).cls, pc := (core s c).pc + 1, cnt := (core u c).cnt, cyc := (core u c).cyc,
                               stalled := false, routine := none } ∧
    (core u c).cls = (clswSet (core s c) t (rget (core s c) ra) (rget (core s c) rb)).cls := by
  have hfn : (BitVec.ofNat 13 t).toNat = t := (BitVec.toNat_ofNat ..).trans (Nat.mod_eq_of_lt (by omega))
  obtain ⟨u, hu, honly, hcore⟩ := gives_ownCore (i := .iClsw c 0 ra rb (BitVec.ofNat 13 t)) (evs := [2, 3]) (ad := none)
    (k := { clswSet (core s c) t (rget (core s c) ra) (rget (core s c) rb) with pc := (core s c).pc + 1 }) h rfl
    (by simp only [hfn]; exact if_pos ⟨trivial, ht⟩)
  have hcls : (core u c).cls = (clswSet (core s c) t (rget (core s c) ra) (rget (core s c) rb)).cls := by rw [hcore]
  refine ⟨u, hu, honly, ?_, hcls⟩
  rw [hcls]
  exact hcore

end Clsw

/-- Settles O7: both modes of CLS look up the entry of each byte, CLSW writes one group of eight entries, and the zero fields
of both are checked before anything is done. -/
theorem classifyResults : Obligations.ClassifyResults := by
  unfold Obligations.ClassifyResults
  refine ⟨fun s c rd ra t comb mask h ht hcomb => ?_, fun s c ra rb t h ht => ⟨?_, fun rd fn => ⟨wordTraps_clsw h, wordTraps_cls h⟩⟩⟩
  · intro byte a entry combs fn
    refine ⟨?_, laneResult_clsVal h ht hcomb⟩
    have hcombine : combs.getD comb (fun _ _ => false) = combine comb := getD_combines hcomb
    have hhit : ∀ n, decide (entry n ≠ 0) = (entry n != 0) := fun n => Bool.eq_iff_iff.mpr (by simp)
    simp only [hcombine, hhit]
    exact laneResult_clsTag h ht hcomb
  · obtain ⟨u, hu, honly, hcore, hcls⟩ := gives_clsw (ra := ra) (rb := rb) h ht
    exact ⟨u, hu, honly, hcore, fun n => by rw [hcls]; exact tget_clswSet (core s c) t _ _ n⟩

end Sys2Proof.Machine

/-! SUPPORT. Reports to the fault concentrator and its latched tags (R408, R409). -/

namespace Sys2Proof.Machine

open Sys2Proof

/-- A latched tag absorbs the reports of its own tag and of the tags it covers. -/
theorem absorbs_iff (l : Nat × Nat × Nat) (cls inst : Nat) :
    absorbs l cls inst = true ↔ (l.1 = cls ∧ l.2.1 = inst) ∨ covers l.1 l.2.1 cls inst = true := by
  simp [absorbs]

section Reports

variable {s : State} {cls inst blk binst cause action : Nat}

/-! ## One report -/

/-- An absorbed report counts in FLT_ABS and restarts the time of the tags that absorb it; it joins no window. -/
theorem report_absorbed (h : ∃ l ∈ s.flt.latched, absorbs l cls inst = true) :
    report s cls inst blk binst cause action =
      { s with flt := { s.flt with
          abs := satInc s.flt.abs
          latched := s.flt.latched.map (fun l => if absorbs l cls inst then (l.1, l.2.1, s.now) else l) } } :=
  if_pos (List.any_eq_true.mpr h)

/-- A report that no latched tag absorbs opens a window where none is open. -/
theorem report_opens (h : ¬ ∃ l ∈ s.flt.latched, absorbs l cls inst = true) (hw : s.flt.window = none) :
    report s cls inst blk binst cause action =
      { s with flt := { s.flt with window := some (s.now, [(⟨cls, inst, blk, binst, cause, action⟩, s.time.cal)]) } } := by
  rw [report, if_neg (mt List.any_eq_true.mp h), hw]
  rfl

/-- A report that no latched tag absorbs joins the end of the open window. -/
theorem report_joins {opened : Nat} {rs : List (FRep × Nat)} (h : ¬ ∃ l ∈ s.flt.latched, absorbs l cls inst = true)
    (hw : s.flt.window = some (opened, rs)) :
    report s cls inst blk binst cause action =
      { s with flt := { s.flt with window := some (opened, rs ++ [(⟨cls, inst, blk, binst, cause, action⟩, s.time.cal)]) } } := by
  rw [report, if_neg (mt List.any_eq_true.mp h), hw]
  rfl

/-! ## The commands -/

/-- FAULT_REPORT of a fault class gives the state after its report (R406). -/
theorem gives_faultReport {P : State → Prop} (hlow : 1 ≤ cls) (hhigh : cls ≤ 9) (h : P (report s cls inst blk binst cause action)) :
    Gives (.faultReport blk binst cls inst cause action) s P :=
  ⟨_, congrArg Host.Outcome.next (if_pos ⟨hlow, hhigh⟩), h⟩

end Reports

/-- The tags that TAG_RELEASE keeps: all but the named one once its 10 s are over. -/
theorem gives_tagRelease (s : State) (cls inst : Nat) : Gives (.tagRelease cls inst) s fun t =>
    t = { s with flt := { s.flt with latched := t.flt.latched } } ∧
    ∀ l, l ∈ t.flt.latched ↔ l ∈ s.flt.latched ∧ ¬ (l.1 = cls ∧ l.2.1 = inst ∧ l.2.2 + 10000000 ≤ s.now) := by
  refine ⟨_, rfl, rfl, fun l => ?_⟩
  simp only [List.mem_filter, Bool.not_eq_true', Bool.and_eq_false_iff, beq_eq_false_iff_ne, decide_eq_false_iff_not]
  tauto

/-- Settles O53: a report is absorbed, joins the open window or opens one, by the latched tags and the window at its instant;
TAG_RELEASE removes a tag whose 10 s are over and nothing else. -/
theorem latchedTags : Obligations.LatchedTags := by
  unfold Obligations.LatchedTags
  intro s blk inst cls tinst cause action by_ x
  have hby : ∀ l, absorbs l cls tinst = true ↔ by_ l := fun l => absorbs_iff l cls tinst
  refine ⟨fun hlow hhigh => ⟨fun hnone => ?_, fun hsome => ?_⟩, gives_tagRelease s cls tinst⟩
  · have hfree : ¬ ∃ l ∈ s.flt.latched, absorbs l cls tinst = true := fun ⟨l, hl, ha⟩ => hnone l hl ((hby l).mp ha)
    refine gives_faultReport hlow hhigh ?_
    cases hw : s.flt.window with
    | none => exact report_opens hfree hw
    | some w => exact report_joins hfree hw
  · have habsorbed : ∃ l ∈ s.flt.latched, absorbs l cls tinst = true := hsome.imp fun l ⟨hl, hl_by⟩ => ⟨hl, (hby l).mpr hl_by⟩
    refine gives_faultReport hlow hhigh ?_
    rw [report_absorbed habsorbed]
    refine ⟨rfl, List.length_map .., fun i l hl => ⟨fun hyes => ?_, fun hno => ?_⟩⟩
    · simp [List.getElem?_map, hl, (hby l).mpr hyes]
    · simp [List.getElem?_map, hl, mt (hby l).mp hno]

end Sys2Proof.Machine
